-- ==== Sys2Proof/Word.lean ====
section
/-! DEFINITION. The word types of the NGM-4700 (00_scope.md R1 to R4: every register is 32 bits, every
multi-byte field is little-endian). Only the names of the widths stand here. -/
namespace Sys2Proof

/-- One byte. -/
abbrev Byte := BitVec 8
/-- A register of the device, a scalar register of a core (R127). -/
abbrev W32 := BitVec 32
/-- A 64-bit slot, stream instruction or accumulator word (R129, R192, R47). -/
abbrev W64 := BitVec 64

end Sys2Proof
end

