-- ==== Sys2Proof/Machine/Bytes.lean ====
section
/-! DEFINITION. Finite tables in one canonical form (keys strictly rising, no entry equal to what an
unlisted key reads as), memories of bytes as such tables, and the byte orders of R4 and R40. -/
namespace Sys2Proof.Machine

/-- A table from numbers to values; an unlisted key reads as a default that each use names. -/
abbrev Tab (α : Type) := List (Nat × α)

/-- A byte memory: `Host.Cell` entries; an unlisted address reads as 0 (log 5). -/
abbrev Mem := List Host.Cell

variable {α β : Type}

/-- The value at a key. -/
def Tab.get (d : α) : Tab α → Nat → α
  | [], _ => d
  | (k', v) :: t, k => if k = k' then v else Tab.get d t k

/-- Insertion before the first greater key. -/
def Tab.insert (k : Nat) (v : α) : Tab α → Tab α
  | [] => [(k, v)]
  | (k', v') :: t => if k < k' then (k, v) :: (k', v') :: t else (k', v') :: Tab.insert k v t

/-- Removal of a key. -/
def Tab.erase (t : Tab α) (k : Nat) : Tab α := t.filter (fun p => p.1 ≠ k)

/-- The table with one value replaced; the default removes the entry. -/
def Tab.set [DecidableEq α] (d : α) (t : Tab α) (k : Nat) (v : α) : Tab α :=
  if v = d then t.erase k else (t.erase k).insert k v

/-- The table with the value at one key changed by a function. -/
def Tab.upd [DecidableEq α] (d : α) (t : Tab α) (k : Nat) (f : α → α) : Tab α :=
  t.set d k (f (t.get d k))

/-- The canonical form: keys strictly rising and no default listed. -/
def Tab.wf [DecidableEq α] (d : α) : Tab α → Bool
  | [] => true
  | (k, v) :: t => decide (v ≠ d) && t.all (fun p => decide (k < p.1)) && Tab.wf d t

/-- Entries `f 0 … f (n-1)` at keys `base …`, defaults left out. -/
def Tab.block [DecidableEq α] (d : α) (base : Nat) : List α → Tab α
  | [] => []
  | v :: vs => if v = d then Tab.block d (base + 1) vs else (base, v) :: Tab.block d (base + 1) vs

/-- A run of consecutive keys overwritten by a list. -/
def Tab.setRun [DecidableEq α] (d : α) (t : Tab α) (base : Nat) (vs : List α) : Tab α :=
  t.filter (fun p => p.1 < base) ++ Tab.block d base vs ++ t.filter (fun p => base + vs.length ≤ p.1)

/-- The values at `n` consecutive keys. -/
def Tab.run (d : α) (t : Tab α) (base n : Nat) : List α :=
  (List.range n).map (fun i => t.get d (base + i))

/-- Whether the key is listed. -/
def Tab.has (t : Tab α) (k : Nat) : Bool := t.any (fun p => p.1 == k)

/-- One byte of a memory (log 5: a byte nothing has written reads 0). -/
def Mem.read (m : Mem) (a : Nat) : Byte := Tab.get 0 m a
/-- One byte written. -/
def Mem.write (m : Mem) (a : Nat) (b : Byte) : Mem := Tab.set 0 m a b
/-- `n` bytes from an address. -/
def Mem.bytes (m : Mem) (a n : Nat) : List Byte := Tab.run 0 m a n
/-- Bytes written from an address on. -/
def Mem.store (m : Mem) (a : Nat) (bs : List Byte) : Mem := Tab.setRun 0 m a bs
/-- The memory's canonical form. -/
def Mem.wf (m : Mem) : Bool := Tab.wf (0 : Byte) m

/-- The little-endian number of some bytes (R4). -/
def leNat : List Byte → Nat
  | [] => 0
  | b :: bs => b.toNat + 256 * leNat bs

/-- `n` little-endian bytes of a number (R4). -/
def leBytes : Nat → Nat → List Byte
  | 0, _ => []
  | n + 1, v => BitVec.ofNat 8 v :: leBytes n (v / 256)

/-- The bytes from `off` on, `n` of them, absent bytes as 0. -/
def sliceBytes (p : List Byte) (off n : Nat) : List Byte :=
  (List.range n).map (fun i => p.getD (off + i) 0)

/-- The little-endian field of `n` bytes at an offset. -/
def fieldAt (p : List Byte) (off n : Nat) : Nat := leNat (sliceBytes p off n)

/-- Whether `n` bytes from `off` are all 0 (reserved fields). -/
def zeroAt (p : List Byte) (off n : Nat) : Bool := (sliceBytes p off n).all (· == 0)

/-- Bits [msb:lsb] of a number (R2). -/
def bitsOf (v msb lsb : Nat) : Nat := (v / 2 ^ lsb) % 2 ^ (msb + 1 - lsb)

/-- One bit of a number. -/
def bitOf (v i : Nat) : Bool := v.testBit i

/-- A two's-complement reading of the low `n` bits (R41). -/
def signedOf (n v : Nat) : Int :=
  let u := v % 2 ^ n
  if u < 2 ^ (n - 1) then (u : Int) else (u : Int) - (2 ^ n : Nat)

/-- The low `n` bits of an integer. -/
def lowBits (n : Nat) (i : Int) : Nat := (i % (2 ^ n : Nat)).toNat

/-- The number of `w` bits at a bit offset of a memory from a byte address (R40). -/
def Mem.bitsAt (m : Mem) (a bitOff w : Nat) : Nat :=
  let first := bitOff / 8
  let n := (bitOff % 8 + w + 7) / 8
  leNat (m.bytes (a + first) n) / 2 ^ (bitOff % 8) % 2 ^ w

/-- Values of `w` bits packed into bytes, the first in the least significant bits (R40). -/
def packBits (w : Nat) (vs : List Nat) : List Byte :=
  let total := vs.foldr (fun v acc => v % 2 ^ w + acc * 2 ^ w) 0
  leBytes ((vs.length * w + 7) / 8) total

/-- Saturating addition to a counter of `n` bits (R57 and the counter registers). -/
def satAdd (n c k : Nat) : Nat := min (c + k) (2 ^ n - 1)

/-- `f` applied `n` times. -/
def iter (f : α → α) : Nat → α → α
  | 0, x => x
  | n + 1, x => iter f n (f x)

/-- A list with the element at an index changed. -/
def listUpd : List α → Nat → (α → α) → List α
  | [], _, _ => []
  | x :: xs, 0, f => f x :: xs
  | x :: xs, n + 1, f => x :: listUpd xs n f

/-- Insertion sort by a key, stable. -/
def insertBy (key : α → Nat) (x : α) : List α → List α
  | [] => [x]
  | y :: ys => if key x < key y then x :: y :: ys else y :: insertBy key x ys

/-- A stable sort by a key (for the fixed orders of R30 and R140). -/
def sortBy (key : α → Nat) (xs : List α) : List α := xs.foldl (fun acc x => insertBy key x acc) []

end Sys2Proof.Machine
end

