-- ==== Sys2Proof/Syntax.lean ====
section
/-! DEFINITION. The commands of the block: one constructor of `Instr` for each row of spec/opcode_table.json,
with the row's operands. Script instructions carry the operands of R131 to R133 and R108, stream instructions
those of R192 and R194, events what their rule lets the outside decide, host commands a packet header and the
parameter bytes of R324. -/
namespace Sys2Proof

/-- The number formats of R34 (code 0xF is reserved and has no constructor). -/
inductive Fmt where
  | fp32 | bf16 | fp16 | e4m3 | e5m2 | e3m2 | e2m3 | e2m1 | int8 | int4 | int2 | bi32 | int16 | int32 | acc64
  deriving DecidableEq, Repr

/-- RND of R53 (0b11 is reserved). -/
inductive Rnd where
  | near | zero | stoch
  deriving DecidableEq, Repr

/-- Element width W of a vector instruction (R133). -/
inductive VW where
  | w8 | w16 | w32
  deriving DecidableEq, Repr

/-- SCMP conditions (R133). -/
inductive SCond where
  | eq | ne | lt | le | ltu | leu | flt | fle
  deriving DecidableEq, Repr

/-- VCMP conditions (R108). -/
inductive VCond where
  | eq | ne | lt | le | gt | ge | un | ord
  deriving DecidableEq, Repr

/-- The issue of one slot of a bundle on a logical core; `last` marks the last command of its bundle (R128). -/
structure Issue where
  core : Fin 128
  last : Bool
  deriving DecidableEq, Repr

/-- A stream context of a core (R187). -/
structure Ctx where
  core : Fin 128
  ctx : Fin 128
  deriving DecidableEq, Repr

/-- The second scalar operand: S[Sb] or the immediate (R133, R395). -/
inductive BOp where
  | reg (r : Fin 32)
  | imm (v : W32)
  deriving DecidableEq, Repr

/-- The second vector operand: Vb, or a scalar register under SX = 1 (R108). -/
inductive VB where
  | vec (r : Fin 32)
  | scal (r : Fin 32)
  deriving DecidableEq, Repr

/-- DSEL with DREG or DOFF (R131). -/
inductive Dl where
  | off (n : BitVec 24)
  | reg (r : Fin 32)
  deriving DecidableEq, Repr

/-- Width, mask enable and mask register of a vector instruction (R133). -/
structure VEn where
  w : VW
  masked : Bool
  m : Fin 8
  deriving DecidableEq, Repr

/-- RND and GS of a float instruction (R108). -/
structure RG where
  rnd : Rnd
  gs : Fin 16
  deriving DecidableEq, Repr

/-- Operands of VCVT (R115). -/
structure VCvtOp where
  vd : Fin 32
  vs : Fin 32
  fmtS : Fmt
  fmtD : Fmt
  offS : Fin 4
  offD : Fin 4
  rnd : Rnd
  sat : Bool
  ovf : Bool
  sp : Fin 32
  sq : Fin 32
  se : Fin 32
  rc : Fin 4
  gs : Fin 16
  deriving DecidableEq, Repr

/-- Operands of VADAMW (R125); `fmtC = none` is the code 0xF, no compute copy. -/
structure VAdamOp where
  va : Fin 32
  vb : Fin 32
  vc : Fin 32
  vd : Fin 32
  sb : Fin 32
  fmtC : Option Fmt
  rndm : Rnd
  satc : Bool
  gs : Fin 16
  rc : Fin 4
  skipnf : Bool
  deriving DecidableEq, Repr

/-- Operands of GET and GETU (R194); `fmtD = none` is a raw copy (0xF). -/
structure GetOp where
  doff : BitVec 15
  pitch : BitVec 2
  orient : Bool
  fmtD : Option Fmt
  rnd : Rnd
  sat : Bool
  ovf : Bool
  noalloc : Bool
  wing : Bool
  scl : Bool
  xs : Bool
  soff : BitVec 11
  toff : BitVec 15
  deriving DecidableEq, Repr

/-- Operands of PUT (R194); `qa = none` is 1.0 (0b11). -/
structure PutOp where
  doff : BitVec 15
  pitch : BitVec 2
  orient : Bool
  fmtD : Option Fmt
  fmtS : Fmt
  rnd : Rnd
  sat : Bool
  ovf : Bool
  wing : Bool
  qa : Option (Fin 3)
  ca : Fin 3
  cslot : BitVec 4
  toff : BitVec 15
  deriving DecidableEq, Repr

/-- What the memory device gave for the lines of a request (R304): the physical outcome of the read. -/
inductive LineOutcome where
  | good
  | corrected (line : Nat)
  | tagFail (line : Nat)
  | uncorrectable (line : Nat)
  deriving DecidableEq, Repr

/-- The end of a request at its stream (08:R193): its number, and for a RACC whether the other device refused it (10:R233). -/
structure ReqEnd where
  req : Nat
  refused : Bool
  deriving DecidableEq, Repr

/-- What a tag completion carries (01:R29, 10:R245): the cue that the RACC named, and the bucket tag. -/
structure TagMark where
  cue : Fin 64
  tag : BitVec 12
  deriving DecidableEq, Repr

/-- The place of a mirror wing in the mirror (11:R267, R275): its tile, and whether it is the last of a base mirror. -/
structure MirrorPlace where
  tile : Nat
  last : Bool
  deriving DecidableEq, Repr

/-- What the source lines of a layer gave (09:R226): the tile of the layer that met the line outcome. -/
structure LayerRead where
  tile : Nat
  line : LineOutcome
  deriving DecidableEq, Repr

/-- A response of a transfer (13:R344): its bytes, and whether a congested link has marked it. -/
structure NetRecord where
  bytes : List Byte
  marked : Bool
  deriving DecidableEq, Repr

/-- The lead that forwards a command (13:R345, R346): its device, and the key with which it was attested where its commands
enter the group's links. -/
structure LeadId where
  dev : Byte
  pk : List Byte
  deriving DecidableEq, Repr

/-- The number of a MACsec frame (13:R343): its association and its packet number in it. -/
structure FrameNo where
  an : Fin 4
  pn : W64
  deriving DecidableEq, Repr

/-- A SAK as MKA installs it (13:R343): its association number and the key. -/
structure Sak where
  an : Fin 4
  key : BitVec 256
  deriving DecidableEq, Repr

/-- A remote-accumulate contribution (R230, R233, R239, R251). -/
structure Contrib where
  box : Fin 16
  tag : BitVec 12
  tile : Nat
  sdev : Nat
  score : Nat
  cue : Fin 64
  step : BitVec 64
  grid : BitVec 16
  mag : W32
  data : List Byte
  deriving DecidableEq, Repr

/-- A contribution that reaches an engine: one of this device's own in flight, or one from the fabric (R230). -/
inductive ContribSrc where
  | own (k : Nat)
  | fabric (c : Contrib)
  deriving DecidableEq, Repr

/-- The header of a well-formed command packet (R324), the port it came by and the UDP source it names. -/
structure Hdr where
  /-- 0 H0, 1 H1, 2 M0. -/
  port : Fin 3
  /-- 0 to 15, or 0xFF. -/
  box : Byte
  seq : W32
  flags : BitVec 16
  target : Byte
  frag : Byte
  /-- The 16-byte tag (R325). -/
  tag : BitVec 128
  /-- Which of the tiles that the command reads from its box's range, in order, meets the outcome below, and that
  outcome (log 14; 12:R304). -/
  lineTile : Nat := 0
  line : LineOutcome := .good
  /-- The datagram's destination port, source address and source port (R323). -/
  dst : BitVec 16 := 0x125C
  src : List Byte := []
  srcPort : BitVec 16 := 0
  deriving DecidableEq, Repr

/-- What another device tells of a box over the fabric management channel (11:R268, R273, R275; 12:R293, R294): a launch, tag
or seal of an epoch that failed, with the cause; an alarm; a box that closed; a mirror wing without a frame; a completed
restore. -/
inductive PeerReport where
  | launchFailed (epoch : W32) (cause : Byte)
  | alarm
  | closed
  | mirrorFull (epoch : W32)
  | restored
  deriving DecidableEq, Repr

/-- A heartbeat of another device (11:R268): who sends it, and what it has to tell (log 13). -/
structure Beat where
  dev : Fin 64
  told : List (Fin 16 × PeerReport)
  deriving DecidableEq, Repr

/-- A part that fails at run time (R375). -/
inductive Part where
  | core (die : Fin 8) (phys : Fin 17)
  | spokeWire (die : Fin 8) (rx : Bool)
  | flashBlock (spareGone : Bool)
  | regulator (rail : Fin 34)
  | sensor (point : Fin 72)
  /-- A physical row or column of an array of a logical core (R375; 03:R62). -/
  | arrayLine (core : Fin 128) (arr : Fin 2) (col : Bool) (line : Fin 130)
  /-- Cells of a physical latch-bank row, or of spare row n at 0x400 + n, that read wrong: 256 data and 32 check bits (R358). -/
  | row (r : Fin 1056) (bits : BitVec 288)
  /-- A line of a frame's memory (12:R304): what its reads give until the frame is written again (log 14). -/
  | line (tier : Fin 3) (frame : Nat) (outcome : LineOutcome)
  deriving DecidableEq, Repr

/-- What a bring-up phase found (R369, R370, R376): parts and units that passed. -/
structure PhaseReport where
  ms : Nat
  houseOk : Bool
  /-- Bit c of entry d: physical core c of die d passed its tests. -/
  goodCores : List (BitVec 17)
  /-- Seats whose HBM3E stack, LPDDR5X packages, regulators and sensors passed. -/
  goodSeats : BitVec 16
  /-- Wires of spoke d that failed training, for each direction. -/
  badWires : List (Nat × Nat)
  /-- Fabric lanes that trained, in the bit order of settings register 0x88. -/
  goodLanes : BitVec 24
  /-- Rows and columns out of use in the arrays of a logical core: HA_REMAP0 and HA_REMAP1. -/
  remaps : List (Nat × W32 × W32)
  flashReadOnly : Bool
  hostPortsUp : BitVec 3
  deriving DecidableEq, Repr

/-- Why a datagram is dropped without reply (R323, R325). -/
inductive DropCause where
  | notWellFormed
  | tagFailed
  deriving DecidableEq, Repr

/-- The two directions of a fabric lane (R373, register 0x88). -/
structure LaneId where
  port : Fin 4
  rx : Bool
  lane : Fin 3
  deriving DecidableEq, Repr

/-- The attested peer of a fabric link (R312, R314). -/
structure Peer where
  index : Byte
  pk : List Byte
  /-- The peer's life-cycle code. -/
  lcs : Nat
  cert : List Byte
  /-- The peer's signature over its encapsulation key and ciphertext. -/
  sig : List Byte
  msg : List Byte
  deriving DecidableEq, Repr

/-- A status record of another device's part of an operation (R333, R346). -/
structure OpRecord where
  opcode : BitVec 16
  ostatus : Byte
  skind : Byte
  scode : Byte
  progress : W64
  result : W64
  avail : W32
  deriving DecidableEq, Repr

/-- The commands. The docstrings of the chapters' rules stand with the meanings. -/
inductive Instr where
  -- CTL and SYNC slots (R131)
  | nop (i : Issue)
  | halt (i : Issue)
  | jmp (i : Issue) (target : BitVec 14)
  | brz (i : Issue) (sa : Fin 32) (target : BitVec 14)
  | brnz (i : Issue) (sa : Fin 32) (target : BitVec 14)
  | loop (i : Issue) (count : BitVec 24) (endB : BitVec 14)
  | loopr (i : Issue) (sa : Fin 32) (endB : BitVec 14)
  | cwait (i : Issue) (cue : Fin 64) (sben : Bool) (sb : Fin 8)
  | standbySwitchElapsed (core : Fin 128)
  | sbreg (i : Issue) (sb : Fin 8) (entry : BitVec 14)
  | sbret (i : Issue)
  | ppoint (i : Issue)
  | coreRestore (core : Fin 128) (tile : Nat) (line : LineOutcome)
  | cret (i : Issue) (st : Fin 128) (buf : Fin 8) (cue : Fin 64) (dl : Dl)
  | carm (i : Issue) (cue : Fin 64) (pol : BitVec 2) (dl : Dl)
  | cpost (i : Issue) (dest : Fin 128) (cue : Fin 64) (dreg : Fin 32)
  | cdrop (i : Issue) (cue : Fin 64)
  -- core events
  | tokenVisible (core : Fin 128) (wait : Nat) (ks : List Nat) (die : List (Fin 64 × BitVec 40))
  | stallLimit (core : Fin 128)
  | scriptCycleLimit (core : Fin 128)
  -- SC slot (R395)
  | sli (i : Issue) (sd : Fin 32) (imm : W32)
  | smov (i : Issue) (sd sa : Fin 32)
  | sadd (i : Issue) (sd sa : Fin 32) (b : BOp)
  | ssub (i : Issue) (sd sa : Fin 32) (b : BOp)
  | sand (i : Issue) (sd sa : Fin 32) (b : BOp)
  | sor (i : Issue) (sd sa : Fin 32) (b : BOp)
  | sxor (i : Issue) (sd sa : Fin 32) (b : BOp)
  | sshl (i : Issue) (sd sa : Fin 32) (b : BOp)
  | sshr (i : Issue) (sd sa : Fin 32) (b : BOp)
  | ssra (i : Issue) (sd sa : Fin 32) (b : BOp)
  | scmp (i : Issue) (cond : SCond) (sd sa : Fin 32) (b : BOp)
  | smul (i : Issue) (sd sa : Fin 32) (b : BOp)
  | sfadd (i : Issue) (sd sa : Fin 32) (b : BOp)
  | sfsub (i : Issue) (sd sa : Fin 32) (b : BOp)
  | sfmul (i : Issue) (sd sa : Fin 32) (b : BOp)
  | sffma (i : Issue) (sd sa : Fin 32) (b : BOp)
  | sfmin (i : Issue) (sd sa : Fin 32) (b : BOp)
  | sfmax (i : Issue) (sd sa : Fin 32) (b : BOp)
  | sld (i : Issue) (sd sa : Fin 32) (imm : W32)
  | sst (i : Issue) (sd sa : Fin 32) (imm : W32)
  | scyc (i : Issue) (sd : Fin 32)
  -- HA and HD slots (R132)
  | hload (i : Issue) (desc : BitVec 12) (ba : Fin 32) (alt : Bool) (ucue : Fin 64)
  | hmul (i : Issue) (desc : BitVec 12) (ba bb : Fin 32)
  | preload (i : Issue) (desc : BitVec 12) (ba bb : Fin 32)
  | hsave (i : Issue) (desc : BitVec 12) (ba bb : Fin 32)
  | hrestore (i : Issue) (desc : BitVec 12) (ba bb : Fin 32)
  | hdrain (i : Issue) (desc : BitVec 12) (ba bb : Fin 32)
  | hamax (i : Issue) (arr : Fin 2) (clr : Bool) (dst : BitVec 23)
  | hdparam (i : Issue) (arr : Fin 2) (sc : Fin 32)
  -- VX slot (R108)
  | vmov (i : Issue) (e : VEn) (vd vs : Fin 32)
  | vbcast (i : Issue) (e : VEn) (vd sa : Fin 32)
  | viota (i : Issue) (e : VEn) (vd : Fin 32)
  | vand (i : Issue) (e : VEn) (vd va : Fin 32) (b : VB)
  | vor (i : Issue) (e : VEn) (vd va : Fin 32) (b : VB)
  | vxor (i : Issue) (e : VEn) (vd va : Fin 32) (b : VB)
  | vnot (i : Issue) (e : VEn) (vd va : Fin 32)
  | vshl (i : Issue) (e : VEn) (vd va : Fin 32) (b : VB)
  | vshr (i : Issue) (e : VEn) (vd va : Fin 32) (b : VB)
  | vsra (i : Issue) (e : VEn) (vd va : Fin 32) (b : VB)
  | vsmv (i : Issue) (e : VEn) (vd sa : Fin 32) (eidx : Fin 512)
  | vmvs (i : Issue) (w : VW) (sd vs : Fin 32) (eidx : Fin 512)
  | vsetlen (i : Issue) (imm : Bool) (sa : Fin 32) (n : BitVec 10)
  | viadd (i : Issue) (e : VEn) (vd va : Fin 32) (b : VB) (ovf : Bool)
  | visub (i : Issue) (e : VEn) (vd va : Fin 32) (b : VB) (ovf : Bool)
  | vimin (i : Issue) (e : VEn) (vd va : Fin 32) (b : VB)
  | vimax (i : Issue) (e : VEn) (vd va : Fin 32) (b : VB)
  | vimul (i : Issue) (e : VEn) (vd va : Fin 32) (b : VB) (ovf : Bool)
  | vcmp (i : Issue) (e : VEn) (md : Fin 8) (va : Fin 32) (b : VB) (fmt : Fmt) (cond : VCond)
  | vmand (i : Issue) (e : VEn) (md ma mb : Fin 8)
  | vmor (i : Issue) (e : VEn) (md ma mb : Fin 8)
  | vmxor (i : Issue) (e : VEn) (md ma mb : Fin 8)
  | vmnot (i : Issue) (e : VEn) (md ma : Fin 8)
  | vpopc (i : Issue) (e : VEn) (sd : Fin 32) (ma : Fin 8)
  | vadd (i : Issue) (e : VEn) (vd va : Fin 32) (b : VB) (fmt : Fmt) (g : RG)
  | vsub (i : Issue) (e : VEn) (vd va : Fin 32) (b : VB) (fmt : Fmt) (g : RG)
  | vmul (i : Issue) (e : VEn) (vd va : Fin 32) (b : VB) (fmt : Fmt) (g : RG)
  | vfma (i : Issue) (e : VEn) (vd va vb vc : Fin 32) (fmt : Fmt) (g : RG)
  | vmin (i : Issue) (e : VEn) (vd va : Fin 32) (b : VB) (fmt : Fmt) (g : RG)
  | vmax (i : Issue) (e : VEn) (vd va : Fin 32) (b : VB) (fmt : Fmt) (g : RG)
  | vabs (i : Issue) (e : VEn) (vd va : Fin 32) (fmt : Fmt)
  | vneg (i : Issue) (e : VEn) (vd va : Fin 32) (fmt : Fmt)
  | vdiv (i : Issue) (e : VEn) (vd va : Fin 32) (b : VB) (fmt : Fmt) (g : RG)
  | vsqrt (i : Issue) (e : VEn) (vd va : Fin 32) (fmt : Fmt) (g : RG)
  | vrsqrt (i : Issue) (e : VEn) (vd va : Fin 32) (fmt : Fmt) (g : RG)
  | vrecip (i : Issue) (e : VEn) (vd va : Fin 32) (fmt : Fmt) (g : RG)
  | vexp2 (i : Issue) (e : VEn) (vd va : Fin 32) (fmt : Fmt) (g : RG)
  | vlog2 (i : Issue) (e : VEn) (vd va : Fin 32) (fmt : Fmt) (g : RG)
  | vcvt (i : Issue) (e : VEn) (o : VCvtOp)
  | vperm (i : Issue) (e : VEn) (vd vs vi : Fin 32)
  | vcompress (i : Issue) (e : VEn) (vd vs : Fin 32) (mm : Fin 8) (sc : Fin 32)
  | vexpand (i : Issue) (e : VEn) (vd vs : Fin 32) (mm : Fin 8)
  | vcidx (i : Issue) (e : VEn) (vd : Fin 32) (mm : Fin 8) (sc : Fin 32)
  | vrsum (i : Issue) (e : VEn) (sd vs : Fin 32) (fmt : Fmt) (g : RG) (ovf wide : Bool)
  | vrssq (i : Issue) (e : VEn) (sd vs : Fin 32) (fmt : Fmt) (g : RG) (ovf wide : Bool)
  | vrmax (i : Issue) (e : VEn) (sd vs : Fin 32) (fmt : Fmt)
  | vrmin (i : Issue) (e : VEn) (sd vs : Fin 32) (fmt : Fmt)
  | vrtopk (i : Issue) (e : VEn) (vd vs : Fin 32) (k : BitVec 5) (order : Bool) (sc : Fin 32) (fmt : Fmt)
  | vrand (i : Issue) (e : VEn) (vd : Fin 32) (gs : Fin 16)
  | vrand4 (i : Issue) (e : VEn) (vd : Fin 32) (gs : Fin 16)
  | vrandu (i : Issue) (e : VEn) (vd : Fin 32) (gs : Fin 16)
  | vrandm (i : Issue) (e : VEn) (md : Fin 8) (gs : Fin 16) (st : Fin 32)
  | vadamw (i : Issue) (e : VEn) (o : VAdamOp)
  | vamax (i : Issue) (rc : Fin 4) (dst : BitVec 23) (clr : Bool)
  | vgset (i : Issue) (gs : Fin 16) (field : BitVec 2) (sa sb : Fin 32)
  | vgget (i : Issue) (gs : Fin 16) (sa sb : Fin 32)
  | vgbind (i : Issue) (arr : Fin 2) (gs : Fin 16)
  -- VL and VS slots (R114)
  | vld (i : Issue) (e : VEn) (vd : Fin 32) (src : BitVec 23)
  | vldt (i : Issue) (e : VEn) (vd : Fin 32) (src : BitVec 23) (ss : Fin 32) (col0 : BitVec 9) (nreg : Fin 32)
  | vldm (i : Issue) (e : VEn) (md : Fin 8) (src : BitVec 23)
  | vst (i : Issue) (e : VEn) (vs : Fin 32) (dst : BitVec 23)
  | vstm (i : Issue) (e : VEn) (mm : Fin 8) (dst : BitVec 23)
  -- stream instructions (R192)
  | streamNop (x : Ctx)
  | setb (x : Ctx) (imm : BitVec 50)
  | addb (x : Ctx) (imm : BitVec 50)
  | seta (x : Ctx) (a : Fin 3) (imm : W32)
  | adda (x : Ctx) (a : Fin 3) (imm : W32)
  | lda (x : Ctx) (a : Fin 3) (off : W32)
  | djnz (x : Ctx) (a : Fin 3) (target : BitVec 12)
  | streamJmp (x : Ctx) (target : BitVec 12)
  | get (x : Ctx) (o : GetOp)
  | getu (x : Ctx) (o : GetOp)
  | credit (x : Ctx) (u : Bool)
  | put (x : Ctx) (o : PutOp)
  | racc (x : Ctx) (tag : BitVec 12) (cue : Fin 64) (doff toff : BitVec 15)
  | mark (x : Ctx) (a : Fin 3)
  | rearm (x : Ctx)
  | streamEnd (x : Ctx)
  | recw (x : Ctx) (clr : Bool) (doff : BitVec 15)
  | xfer (x : Ctx) (xid : BitVec 16)
  | setl (x : Ctx) (imm : BitVec 50)
  | streamRequestComplete (x : Ctx) (e : ReqEnd)
  -- memory, migration, reduction
  | memRequest (req : Nat) (line : LineOutcome)
  | frameRelease (tier : Fin 3) (frame : Nat)
  | stageMarker (box : Fin 16)
  | migTileStart (seat : Fin 16)
  | migTileComplete (seat : Fin 16) (line : LineOutcome)
  | epochWalk (box : Fin 16)
  | contributionArrive (c : ContribSrc) (line : LineOutcome)
  | contributionRetry (k : Nat)
  | tagCompletion (core : Fin 128) (m : TagMark)
  -- launches, curtain and recovery
  | launchStart (box : Fin 16) (num : W32)
  | sealProceed (box : Fin 16)
  | mirrorWingReceive (box : Fin 16) (epoch : W32) (place : MirrorPlace) (payload side : List Byte)
  | mirrorAck (box : Fin 16)
  | ready (box : Fin 16) (dev : Fin 64) (step : W64) (epoch : W32)
  | close (box : Fin 16) (step : W64) (epoch : W32)
  | curtainDiscard (box : Fin 16) (epoch : W32) (cause : Byte) (allPassed : Bool)
  | curtainTimeout (box : Fin 16) (epoch : W32)
  | heartbeat (beat : Beat)
  | heartbeatLost (dev : Fin 64)
  | importFailureReport (box : Fin 16) (dev : Fin 64) (step : W64) (epoch : W32)
  | localTake (box : Fin 16)
  | localTakeReport (box : Fin 16) (dev : Fin 64) (step : W64)
  | localCommit (box : Fin 16) (step : W64)
  | storeTake (box : Fin 16)
  | storeTakeReport (box : Fin 16) (dev : Fin 64) (step : W64)
  | baseMirrorComplete (box : Fin 16)
  | restoreComplete (box : Fin 16)
  | sceneLayerCopy (box : Fin 16)
  | sceneLayerDone (box : Fin 16) (r : LayerRead)
  | rekeyWalkTile (box : Fin 16) (line : LineOutcome)
  | xferRecordArrive (box : Fin 16) (xid : BitVec 16) (r : NetRecord)
  -- Ethernet, groups, fabric
  | roceRetryTimeout (box : Fin 16) (xid : BitVec 16)
  | roceRequestDrop (port : Fin 2)
  | hostLinkLoss (port : Fin 2)
  | assemblyTimeout (session : Fin 20)
  | opSlotExpire (session : Fin 20) (opid : W32)
  | forwardedCommand (lead : LeadId) (leadBox : Byte) (all : Bool) (opid : W32) (opcode : BitVec 16) (params : List Byte)
  | forwardedReply (box : Fin 16) (dev : Fin 64) (opid : W32) (seq : W32) (status : Byte) (params : List Byte)
  | commit (box : Fin 16) (opid : W32)
  | cancel (box : Fin 16) (opid : W32)
  | opStatusRefresh (box : Fin 16) (dev : Fin 64) (opid : W32) (r : OpRecord)
  -- power, bring-up, parts
  | sagStart (ms : Nat)
  | bringupPhaseEnd (r : PhaseReport)
  | thermalEmergencyStart (ms : Nat)
  | partFail (p : Part)
  -- host commands (R334)
  | info (h : Hdr) (p : List Byte)
  | sessionRoll (h : Hdr) (p : List Byte)
  | groupBind (h : Hdr) (p : List Byte)
  | mgtSession (h : Hdr) (p : List Byte)
  | opStatus (h : Hdr) (p : List Byte)
  | opRead (h : Hdr) (p : List Byte)
  | opAbort (h : Hdr) (p : List Byte)
  | opRelease (h : Hdr) (p : List Byte)
  | eventRead (h : Hdr) (p : List Byte)
  | boxOpen (h : Hdr) (p : List Byte)
  | boxSeated (box : Fin 16)
  | boxClose (h : Hdr) (p : List Byte)
  | boxCloseComplete (box : Fin 16)
  | groupCfg (h : Hdr) (p : List Byte)
  | ethCfg (h : Hdr) (p : List Byte)
  | linkCak (h : Hdr) (p : List Byte)
  | modelInstall (h : Hdr) (p : List Byte)
  | modelStoreErase (h : Hdr) (p : List Byte)
  | regionMap (h : Hdr) (p : List Byte)
  | regionUnmap (h : Hdr) (p : List Byte)
  | tileUnd (h : Hdr) (p : List Byte)
  | tileMove (h : Hdr) (p : List Byte)
  | xferReg (h : Hdr) (p : List Byte)
  | xferDrop (h : Hdr) (p : List Byte)
  | xferRun (h : Hdr) (p : List Byte)
  | wtLoad (h : Hdr) (p : List Byte)
  | wtChannel (h : Hdr) (p : List Byte)
  | sceneChange (h : Hdr) (p : List Byte)
  | scriptLoad (h : Hdr) (p : List Byte)
  | launch (h : Hdr) (p : List Byte)
  | curtainCfg (h : Hdr) (p : List Byte)
  | curtainStatus (h : Hdr) (p : List Byte)
  | curtainResolve (h : Hdr) (p : List Byte)
  | sceneRestore (h : Hdr) (p : List Byte)
  | ifealeImport (h : Hdr) (p : List Byte)
  | localRelease (h : Hdr) (p : List Byte)
  | attest (h : Hdr) (p : List Byte)
  | keyRelease (h : Hdr) (p : List Byte)
  | keyPut (h : Hdr) (p : List Byte)
  | keyDestroy (h : Hdr) (p : List Byte)
  | rekey (h : Hdr) (p : List Byte)
  | keyGen (h : Hdr) (p : List Byte)
  | approve (h : Hdr) (p : List Byte)
  | alarmRead (h : Hdr) (p : List Byte)
  | lcStatus (h : Hdr) (p : List Byte)
  | lcTransition (h : Hdr) (p : List Byte)
  | spareReport (h : Hdr) (p : List Byte)
  | regRead (h : Hdr) (p : List Byte)
  | regWrite (h : Hdr) (p : List Byte)
  | ethCmdPortWrite (h : Hdr) (value : W32)
  | coreScriptLoRead (h : Hdr) (core : Fin 128)
  | coreOffsetLoRead (h : Hdr) (core : Fin 128)
  | memBoxStepLoRead (h : Hdr) (box : Fin 16)
  | streamContextRead (h : Hdr) (x : Ctx) (reg : Fin 16) (count : Byte)
  | diagSelftest (h : Hdr) (p : List Byte)
  | diagBoxDebug (h : Hdr) (p : List Byte)
  -- completions
  | localTakeComplete (box : Fin 16)
  | storeCommit (box : Fin 16) (step : W64)
  | xferWriteComplete (box : Fin 16) (xid : BitVec 16)
  | streamWordArrive (x : Ctx) (req : Nat)
  | commandFragment (h : Hdr) (opcode : BitVec 16) (share : List Byte)
  | datagramDrop (cause : DropCause)
  | unlistedOpcode (h : Hdr) (opcode : BitVec 16) (p : List Byte)
  | attestComplete (session : Fin 20) (opid : W32)
  | modelRecordFetch (box : Fin 16)
  | selftestComplete (results : List (Fin 16 × Byte)) (parts : List Part)
  | hostLinkUp (port : Fin 3)
  | restoreTileWrite (box : Fin 16) (bytes : List Byte) (line : LineOutcome)
  -- ports, links, feeds, firmware and events without operands
  | neighbourEcho (port : Fin 3) (addr : List Byte)
  | macsecFrameReceive (port : Fin 3) (n : FrameNo) (ok : Bool)
  | mkaSecured (port : Fin 3) (sak : Sak)
  | sakChange (port : Fin 3)
  | osfpModuleChange (port : Fin 2) (present : Bool) (watts : Nat)
  | linkTrain (port : Fin 4) (peer : Peer)
  | linkRekey (port : Fin 4)
  | fabricFrameReceive (port : Fin 4) (ok : Bool)
  | fabricCellTransit (port : Fin 4) (seat : Fin 16) (leadPk : List Byte) (hops : Nat)
  | laneFail (l : LaneId)
  | laneSpareTrained (port : Fin 4)
  | referenceFail (ref : Fin 2)
  | fidCodeChange (feedB : Bool) (code : BitVec 4) (partnersA partnersB : List (Fin 16 × BitVec 4))
  | feedConnect (feedB : Bool) (volt : BitVec 10)
  | feedDisconnect (feedB : Bool) (volt : BitVec 10)
  | feedOvervoltage (feedB : Bool) (volt : BitVec 10)
  | feedReconnect (feedB : Bool) (volt : BitVec 10)
  | probeChange (low : Bool)
  | lcUnlock (token : List Byte)
  | roceCnpReceive (port : Fin 2) (box : Fin 16) (xid : BitVec 16)
  | fwUpdateBegin (h : Hdr) (p : List Byte)
  | fwUpdateData (h : Hdr) (p : List Byte)
  | fwUpdateEnd (h : Hdr) (p : List Byte)
  | fwUpdateCommitSvn (h : Hdr) (p : List Byte)
  | diagDeviceDebug (h : Hdr) (p : List Byte)
  | diagDebugOff (h : Hdr) (p : List Byte)
  | sagEnd
  | lossStart
  | lossRecover
  | lossTimeout
  | powerGood
  | lcWipeDone
  | thermalEmergencyEnd
  | thermalTrip
  | modelInstallResume
  | modelInstallComplete
  deriving DecidableEq, Repr

end Sys2Proof
end

