-- ==== Sys2Proof/Machine/Number.lean ====
section
/-! DEFINITION. The floating formats of R36 to R39, exact values, and rounding (R53) of exact results to a
format. Values are exact dyadic numbers; a result that is no dyadic number is held as its first bits with a
sticky flag. -/
namespace Sys2Proof

open Machine

/-- A decoded code: NaN, an infinity, or a finite value ±n·2^e that keeps a zero's sign. -/
inductive Val where
  | nan
  | inf (neg : Bool)
  | fin (neg : Bool) (n : Nat) (e : Int)
  deriving DecidableEq, Repr

/-- A magnitude between n·2^e and (n+1)·2^e, equal to n·2^e exactly when `st` is false. -/
structure Mag where
  n : Nat
  e : Int
  st : Bool
  deriving DecidableEq, Repr

/-- An exact result before rounding. -/
inductive Rslt where
  | nan
  | inf (neg : Bool)
  | fin (neg : Bool) (m : Mag)
  deriving DecidableEq, Repr

/-- Exponent bits, fraction bits and bias of a float format (R36); 0 fraction bits with 0 exponent bits otherwise. -/
def Fmt.params : Fmt → Nat × Nat × Int
  | .fp32 => (8, 23, 127)
  | .bf16 => (8, 7, 127)
  | .fp16 => (5, 10, 15)
  | .e4m3 => (4, 3, 7)
  | .e5m2 => (5, 2, 15)
  | .e3m2 => (3, 2, 3)
  | .e2m3 => (2, 3, 1)
  | .e2m1 => (2, 1, 1)
  | _ => (0, 0, 0)

/-- Element width in bits (R34). -/
def Fmt.width : Fmt → Nat
  | .fp32 | .bi32 | .int32 => 32
  | .bf16 | .fp16 | .int16 => 16
  | .e4m3 | .e5m2 | .int8 => 8
  | .e3m2 | .e2m3 => 6
  | .e2m1 | .int4 => 4
  | .int2 => 2
  | .acc64 => 64

/-- The 4-bit code of R34. -/
def Fmt.code : Fmt → Nat
  | .fp32 => 0 | .bf16 => 1 | .fp16 => 2 | .e4m3 => 3 | .e5m2 => 4 | .e3m2 => 5 | .e2m3 => 6 | .e2m1 => 7
  | .int8 => 8 | .int4 => 9 | .int2 => 10 | .bi32 => 11 | .int16 => 12 | .int32 => 13 | .acc64 => 14

/-- The format of a code; 0xF is reserved (R34). -/
def Fmt.ofCode : Nat → Option Fmt
  | 0 => some .fp32 | 1 => some .bf16 | 2 => some .fp16 | 3 => some .e4m3 | 4 => some .e5m2 | 5 => some .e3m2
  | 6 => some .e2m3 | 7 => some .e2m1 | 8 => some .int8 | 9 => some .int4 | 10 => some .int2 | 11 => some .bi32
  | 12 => some .int16 | 13 => some .int32 | 14 => some .acc64 | _ => none

/-- Float formats. -/
def Fmt.isFloat : Fmt → Bool
  | .fp32 | .bf16 | .fp16 | .e4m3 | .e5m2 | .e3m2 | .e2m3 | .e2m1 => true
  | _ => false

/-- The formats whose NaN is a block NaN (R37). -/
def Fmt.isBlockOnly : Fmt → Bool
  | .e3m2 | .e2m3 | .e2m1 => true
  | _ => false

/-- The formats that can carry block scales (02:R44). -/
def Fmt.mayScale : Fmt → Bool
  | .e4m3 | .e5m2 | .e3m2 | .e2m3 | .e2m1 => true
  | _ => false

/-- Elements per row of a range tile (07:R164). -/
def Fmt.perRow (f : Fmt) : Nat := if f.width = 6 then 128 else 1024 / f.width

/-- Formats with infinities (R36). -/
def Fmt.hasInf : Fmt → Bool
  | .fp32 | .bf16 | .fp16 | .e5m2 => true
  | _ => false

/-- +largest of R37. -/
def Fmt.maxCode : Fmt → Nat
  | .fp32 => 0x7F7FFFFF | .bf16 => 0x7F7F | .fp16 => 0x7BFF | .e4m3 => 0x7E | .e5m2 => 0x7B
  | .e3m2 => 0x1F | .e2m3 => 0x1F | .e2m1 => 0x7
  | _ => 0

/-- The canonical NaN of R37 (formats without one: 0). -/
def Fmt.nanCode : Fmt → Nat
  | .fp32 => 0x7FC00000 | .bf16 => 0x7FC0 | .fp16 => 0x7E00 | .e4m3 => 0x7F | .e5m2 => 0x7F
  | _ => 0

/-- The exponent of the largest normal (R45). -/
def Fmt.emax : Fmt → Int
  | .fp32 | .bf16 => 127 | .fp16 => 15 | .e4m3 => 8 | .e5m2 => 15 | .e3m2 => 4 | .e2m3 => 2 | .e2m1 => 2
  | _ => 0

/-- The sign bit of a code. -/
def Fmt.signOf (f : Fmt) (c : Nat) : Bool := c.testBit (f.width - 1)

/-- The value of a float code (R36, R37). -/
def Fmt.decode (f : Fmt) (c : Nat) : Val :=
  let (x, y, b) := f.params
  let neg := f.signOf c
  let ex := bitsOf c (x + y - 1) y
  let fr := c % 2 ^ y
  if f.hasInf && ex == 2 ^ x - 1 then (if fr = 0 then .inf neg else .nan)
  else if f == .e4m3 && c % 128 == 127 then .nan
  else if ex = 0 then .fin neg fr (1 - b - y)
  else .fin neg (2 ^ y + fr) ((ex : Int) - b - y)

/-- The value of an integer code (R41). -/
def Fmt.decodeInt (f : Fmt) (c : Nat) : Val :=
  let i := signedOf f.width c
  .fin (i < 0) i.natAbs 0

/-- Left shift by an integer, floor on the right. -/
def shiftNat (n : Nat) (k : Int) : Nat := if 0 ≤ k then n <<< k.toNat else n >>> (-k).toNat

/-- Floor of an integer times 2^k. -/
def shiftInt (i : Int) (k : Int) : Int := if 0 ≤ k then i * (2 ^ k.toNat : Nat) else i / (2 ^ (-k).toNat : Nat)

/-- floor(log2) of a non-zero magnitude n·2^e. -/
def log2Of (n : Nat) (e : Int) : Int := (Nat.log2 n : Int) + e

/-- The signed numerator of a finite value at exponent `g ≤ e`. -/
def signedAt (neg : Bool) (n : Nat) (e g : Int) : Int :=
  let m : Int := (n <<< (e - g).toNat : Nat)
  if neg then -m else m

/-- A signed dyadic as a sign, a magnitude and an exponent; zero is positive. -/
def finOfInt (i : Int) (e : Int) : Val := .fin (i < 0) i.natAbs e

/-- A magnitude rounded to a multiple of 2^g under RND, with the 16 random bits r (R53). -/
def roundUnits (g : Int) (m : Mag) (rnd : Rnd) (r : Nat) : Nat :=
  if g ≤ m.e then m.n <<< (m.e - g).toNat
  else
    let d := (g - m.e).toNat
    let lower := m.n >>> d
    let rem := m.n % 2 ^ d
    match rnd with
    | .zero => lower
    | .near =>
      if 2 * rem > 2 ^ d || (2 * rem == 2 ^ d && (m.st || lower % 2 == 1)) then lower + 1 else lower
    | .stoch =>
      let d16 := rem * 65536 / 2 ^ d
      if d16 + r % 65536 ≥ 65536 then lower + 1 else lower

/-- The exponent of a float target's least significant bit at a magnitude (R53). -/
def Fmt.lsbAt (f : Fmt) (m : Mag) : Int :=
  let (_, y, b) := f.params
  max (if m.n = 0 then 1 - b else log2Of m.n m.e) (1 - b) - y

/-- The rounded magnitude of a float target as k·2^g; it may lie beyond the largest value. -/
def Fmt.roundFloat (f : Fmt) (m : Mag) (rnd : Rnd) (r : Nat) : Nat × Int :=
  let g := f.lsbAt m
  (roundUnits g m rnd r, g)

/-- Whether k·2^g exceeds the largest finite value of the format. -/
def Fmt.beyond (f : Fmt) (k : Nat) (g : Int) : Bool :=
  match f.decode f.maxCode with
  | .fin _ n e => let lo := min g e; decide (n <<< (e - lo).toNat < k <<< (g - lo).toNat)
  | _ => false

/-- The code of ±k·2^g, k the rounded significand at lsb exponent g. -/
def Fmt.encodeUnits (f : Fmt) (neg : Bool) (k : Nat) (g : Int) : Nat :=
  let (_, y, b) := f.params
  let mag := ((g + y + b) * (2 ^ y : Nat) + k - (2 ^ y : Nat)).toNat
  mag + (if neg then 2 ^ (f.width - 1) else 0)

/-- The code of a signed zero. -/
def Fmt.zeroCode (f : Fmt) (neg : Bool) : Nat := if neg then 2 ^ (f.width - 1) else 0
/-- The code of an infinity. -/
def Fmt.infCode (f : Fmt) (neg : Bool) : Nat :=
  let (x, y, _) := f.params
  (2 ^ x - 1) * 2 ^ y + (if neg then 2 ^ (f.width - 1) else 0)
/-- ±largest. -/
def Fmt.largestCode (f : Fmt) (neg : Bool) : Nat := f.maxCode + (if neg then 2 ^ (f.width - 1) else 0)

/-- An arithmetic result rounded once to a format with infinities (R109). A rounded magnitude above the largest
value is an infinity under RND 0b00 and 0b10 and ±largest under 0b01 (R111 and R118 say it of their results,
IEEE 754 of round to nearest and toward zero; DEDUCED for the others under 0b10, log 21). -/
def Fmt.finish (f : Fmt) (x : Rslt) (rnd : Rnd) (r : Nat) : Nat :=
  match x with
  | .nan => f.nanCode
  | .inf neg => f.infCode neg
  | .fin neg m =>
    let (k, g) := f.roundFloat m rnd r
    if f.beyond k g then (if rnd = .zero then f.largestCode neg else f.infCode neg)
    else f.encodeUnits neg k g

/-- An exact value as a result. -/
def Val.exact : Val → Rslt
  | .nan => .nan
  | .inf neg => .inf neg
  | .fin neg n e => .fin neg ⟨n, e, false⟩

/-- Sign flip. -/
def Val.neg : Val → Val
  | .nan => .nan
  | .inf s => .inf (!s)
  | .fin s n e => .fin (!s) n e

/-- Whether the value is a zero. -/
def Val.isZero : Val → Bool
  | .fin _ n _ => n == 0
  | _ => false

/-- Whether the value is finite. -/
def Val.isFin : Val → Bool
  | .fin .. => true
  | _ => false

/-- Exact addition with the IEEE special cases; an exact zero of opposite signs is +0 (R109). -/
def Val.add : Val → Val → Val
  | .nan, _ => .nan
  | _, .nan => .nan
  | .inf s, .inf t => if s = t then .inf s else .nan
  | .inf s, _ => .inf s
  | _, .inf s => .inf s
  | .fin s n e, .fin t m f =>
    if n = 0 && m = 0 then .fin (s && t) 0 0
    else
      let g := min e f
      finOfInt (signedAt s n e g + signedAt t m f g) g

/-- Exact multiplication with the IEEE special cases. -/
def Val.mul : Val → Val → Val
  | .nan, _ => .nan
  | _, .nan => .nan
  | .inf s, .inf t => .inf (xor s t)
  | .inf s, .fin t n _ => if n = 0 then .nan else .inf (xor s t)
  | .fin s n _, .inf t => if n = 0 then .nan else .inf (xor s t)
  | .fin s n e, .fin t m f => .fin (xor s t) (n * m) (e + f)

/-- The quotient of two positive magnitudes to at least 80 bits. -/
def divMag (n : Nat) (e : Int) (m : Nat) (f : Int) : Mag :=
  let k := 80 + Nat.log2 m
  ⟨(n <<< k) / m, e - f - k, (n <<< k) % m ≠ 0⟩

/-- Division (R111: IEEE 754 division). -/
def Val.div : Val → Val → Rslt
  | .nan, _ => .nan
  | _, .nan => .nan
  | .inf _, .inf _ => .nan
  | .inf s, .fin t _ _ => .inf (xor s t)
  | .fin s _ _, .inf t => .fin (xor s t) ⟨0, 0, false⟩
  | .fin s n e, .fin t m f =>
    if m = 0 then (if n = 0 then .nan else .inf (xor s t))
    else if n = 0 then .fin (xor s t) ⟨0, 0, false⟩
    else .fin (xor s t) (divMag n e m f)

/-- Integer square root by bits, from bit `i - 1` down. -/
def isqrtFrom (n : Nat) : Nat → Nat → Nat
  | 0, acc => acc
  | i + 1, acc =>
    let t := acc + 2 ^ i
    if t * t ≤ n then isqrtFrom n i t else isqrtFrom n i acc

/-- floor(sqrt n). -/
def isqrt (n : Nat) : Nat := isqrtFrom n (Nat.log2 n / 2 + 1) 0

/-- The square root of a positive magnitude to at least 80 bits. -/
def sqrtMag (n : Nat) (e : Int) : Mag :=
  let k := 160 + (if (e - 160) % 2 = 0 then 0 else 1)
  let nn := n <<< k
  let q := isqrt nn
  ⟨q, (e - k) / 2, q * q ≠ nn⟩

/-- One over the square root of a positive magnitude to at least 80 bits. -/
def rsqrtMag (n : Nat) (e : Int) : Mag :=
  let odd := e % 2 ≠ 0
  let n' := if odd then 2 * n else n
  let e' := if odd then e - 1 else e
  let k := 80 + Nat.log2 n'
  let big := 2 ^ (2 * k)
  let q := isqrt (big / n')
  ⟨q, -(e' / 2) - k, q * q * n' ≠ big⟩

/-- VSQRT (R111). -/
def Val.sqrt : Val → Rslt
  | .nan => .nan
  | .inf s => if s then .nan else .inf false
  | .fin s n e => if n = 0 then .fin s ⟨0, 0, false⟩ else if s then .nan else .fin false (sqrtMag n e)

/-- VRSQRT (R111). -/
def Val.rsqrt : Val → Rslt
  | .nan => .nan
  | .inf s => if s then .nan else .fin false ⟨0, 0, false⟩
  | .fin s n e => if n = 0 then .inf s else if s then .nan else .fin false (rsqrtMag n e)

/-- VRECIP (R111). -/
def Val.recip : Val → Rslt
  | .nan => .nan
  | .inf s => .fin s ⟨0, 0, false⟩
  | .fin s n e => if n = 0 then .inf s else .fin s (divMag 1 0 n e)

/-- Working precision of VEXP2 and VLOG2 in bits (log 11). -/
def lnBits : Nat := 320

/-- ln 2 as the sum of 1/(k·2^k), in units of 2^-320. -/
def ln2Sum : Nat → Nat → Nat
  | 0, _ => 0
  | fuel + 1, k => 2 ^ lnBits / (k * 2 ^ k) + ln2Sum fuel (k + 1)

/-- ln 2 in units of 2^-320. -/
def ln2Fix : Nat := ln2Sum 330 1

/-- The exponential series of y in units of 2^-320, term by term. -/
def expSum (y : Nat) : Nat → Nat → Nat → Nat
  | 0, _, _ => 0
  | fuel + 1, k, term => term + expSum y fuel (k + 1) (term * y / 2 ^ lnBits / (k + 1))

/-- 2^F for F in [0, 1) given in units of 2^-320. -/
def exp2Frac (f : Nat) : Nat := expSum (f * ln2Fix / 2 ^ lnBits) 90 0 (2 ^ lnBits)

/-- 2^x of a finite non-zero x (log 11). -/
def exp2Mag (neg : Bool) (n : Nat) (e : Int) : Mag :=
  if log2Of n e ≥ 12 then ⟨1, if neg then -5000 else 5000, true⟩
  else
    let fx := signedAt neg (shiftNat n (e + lnBits)) 0 0
    let i := fx / (2 ^ lnBits : Nat)
    let f := (fx % (2 ^ lnBits : Nat)).toNat
    if f = 0 then ⟨1, i, false⟩
    else ⟨exp2Frac f >>> 60, i - (lnBits : Int) + 60, true⟩

/-- VEXP2 (R111). -/
def Val.exp2 : Val → Rslt
  | .nan => .nan
  | .inf s => if s then .fin false ⟨0, 0, false⟩ else .inf false
  | .fin s n e => if n = 0 then .fin false ⟨1, 0, false⟩ else .fin false (exp2Mag s n e)

/-- The odd powers of z over the odd numbers, z in units of 2^-320. -/
def atanhSum (z2 : Nat) : Nat → Nat → Nat → Nat
  | 0, _, _ => 0
  | fuel + 1, k, p => p / k + atanhSum z2 fuel (k + 2) (p * z2 / 2 ^ lnBits)

/-- log2 m for m in [1, 2) given in units of 2^-320. -/
def log2Frac (m : Nat) : Nat :=
  let one := 2 ^ lnBits
  let z := (m - one) * one / (m + one)
  (2 * atanhSum (z * z / one) 110 1 z) * one / ln2Fix

/-- log2 of a positive value (log 11). -/
def log2Rslt (n : Nat) (e : Int) : Rslt :=
  let l := log2Of n e
  let m := n <<< (lnBits - Nat.log2 n)
  if m = 2 ^ lnBits then .fin (l < 0) ⟨l.natAbs, 0, false⟩
  else
    let v : Int := l * (2 ^ lnBits : Nat) + log2Frac m
    .fin (v < 0) ⟨v.natAbs >>> 60, -(lnBits : Int) + 60, true⟩

/-- VLOG2 (R111). -/
def Val.log2 : Val → Rslt
  | .nan => .nan
  | .inf s => if s then .nan else .inf false
  | .fin s n e => if n = 0 then .inf true else if s then .nan else log2Rslt n e

/-- Numeric order of two values that are not NaN: −1, 0 or 1; ±0 are equal. -/
def Val.cmp (a b : Val) : Int :=
  match a, b with
  | .inf s, .inf t => if s = t then 0 else if s then -1 else 1
  | .inf s, _ => if s then -1 else 1
  | _, .inf t => if t then 1 else -1
  | .fin s n e, .fin t m f =>
    let g := min e f
    let x := signedAt s n e g
    let y := signedAt t m f g
    if x < y then -1 else if x = y then 0 else 1
  | _, _ => 0

/-- VMIN of two codes (R110). -/
def Fmt.minCode (f : Fmt) (a b : Nat) : Nat :=
  match f.decode a, f.decode b with
  | .nan, _ => f.nanCode
  | _, .nan => f.nanCode
  | x, y =>
    if x.isZero && y.isZero then (if f.signOf a then a else b)
    else if x.cmp y ≤ 0 then a else b

/-- VMAX of two codes (R110). -/
def Fmt.maxOf (f : Fmt) (a b : Nat) : Nat :=
  match f.decode a, f.decode b with
  | .nan, _ => f.nanCode
  | _, .nan => f.nanCode
  | x, y =>
    if x.isZero && y.isZero then (if f.signOf a then b else a)
    else if x.cmp y ≥ 0 then a else b

/-- Trunc48 of R69: an exact signed dyadic to 48 significant bits toward minus infinity. -/
def trunc48 (i : Int) (e : Int) : Int × Int :=
  if i = 0 then (0, 0)
  else
    let l := (Nat.log2 i.natAbs : Int)
    if l ≤ 47 then (i, e) else (shiftInt i (47 - l), e + (l - 47))

end Sys2Proof
end

