-- ==== Sys2Proof/Decode.lean ====
section
/-! DEFINITION. The encodings of script slots (06:R129 to R133, 05:R108), descriptors (06:R132) and stream
instructions (08:R192, R194), as lists of fields from bit 55 down; the loader's and the sequencer's decoders and
the encoder over them; and `decodeTableWord`, which answers none because the opcode table gives no row bits. -/
namespace Sys2Proof

open Machine

/-- Fields of the given widths taken from the top of an `n`-bit number, and the bits that remain below. -/
def splitFields : List Nat → Nat → Nat → List Nat × Nat
  | [], _, v => ([], v)
  | w :: ws, n, v =>
    let r := splitFields ws (n - w) (v % 2 ^ (n - w))
    (v / 2 ^ (n - w) :: r.1, r.2)

/-- Fields packed from the top of an `n`-bit number, zeros below. -/
def joinFields : List (Nat × Nat) → Nat → Nat
  | [], _ => 0
  | (w, x) :: t, n => x * 2 ^ (n - w) + joinFields t (n - w)

/-- Reject codes of R137 that one slot or stream instruction can show. -/
def rejEncoding : Nat := 1
def rejFormat : Nat := 2
def rejRange : Nat := 10

/-- The fields of 56 operand bits, or ENCODING when a bit below the last operand is set (R108, R129). -/
def withFields (ws : List Nat) (ops : Nat) (k : List Nat → Except Nat Instr) : Except Nat Instr :=
  let r := splitFields ws 56 ops
  if r.2 = 0 then k r.1 else .error rejEncoding

/-- An instruction under a condition, else a reject code. -/
def orElse (code : Nat) (ok : Bool) (x : Except Nat Instr) : Except Nat Instr := if ok then x else .error code

def r32 (x : Nat) : Fin 32 := Fin.ofNat 32 x
def r16 (x : Nat) : Fin 16 := Fin.ofNat 16 x
def r8 (x : Nat) : Fin 8 := Fin.ofNat 8 x
def r64 (x : Nat) : Fin 64 := Fin.ofNat 64 x
def r128 (x : Nat) : Fin 128 := Fin.ofNat 128 x
def r2 (x : Nat) : Fin 2 := Fin.ofNat 2 x
def r3 (x : Nat) : Fin 3 := Fin.ofNat 3 x
def r4 (x : Nat) : Fin 4 := Fin.ofNat 4 x
def bv (n x : Nat) : BitVec n := BitVec.ofNat n x
/-- A one-bit flag as a number. -/
def bitN (b : Bool) : Nat := if b then 1 else 0

/-- W [55:54] (R133); 0b11 names no width. -/
def VW.ofCode : Nat → Option VW
  | 0 => some .w8 | 1 => some .w16 | 2 => some .w32 | _ => none
def VW.code : VW → Nat
  | .w8 => 0 | .w16 => 1 | .w32 => 2
def VW.bits : VW → Nat
  | .w8 => 8 | .w16 => 16 | .w32 => 32
/-- Lmax(w) (R102). -/
def VW.lmax : VW → Nat
  | .w8 => 512 | .w16 => 256 | .w32 => 128

/-- RND (R53). -/
def Rnd.ofCode : Nat → Option Rnd
  | 0 => some .near | 1 => some .zero | 2 => some .stoch | _ => none
def Rnd.code : Rnd → Nat
  | .near => 0 | .zero => 1 | .stoch => 2

def SCond.ofCode : Nat → Option SCond
  | 0 => some .eq | 1 => some .ne | 2 => some .lt | 3 => some .le | 4 => some .ltu | 5 => some .leu | 6 => some .flt
  | 7 => some .fle | _ => none
def SCond.code : SCond → Nat
  | .eq => 0 | .ne => 1 | .lt => 2 | .le => 3 | .ltu => 4 | .leu => 5 | .flt => 6 | .fle => 7
def VCond.ofCode : Nat → Option VCond
  | 0 => some .eq | 1 => some .ne | 2 => some .lt | 3 => some .le | 4 => some .gt | 5 => some .ge | 6 => some .un
  | 7 => some .ord | _ => none
def VCond.code : VCond → Nat
  | .eq => 0 | .ne => 1 | .lt => 2 | .le => 3 | .gt => 4 | .ge => 5 | .un => 6 | .ord => 7

/-- The pairings of FMT and W of a float instruction (R108). -/
def floatPair (f : Fmt) (w : VW) : Bool :=
  match f, w with
  | .fp32, .w32 | .bf16, .w16 | .fp16, .w16 => true
  | _, _ => false

/-- The pairings of VCMP and the reductions, with signed integers (R108). -/
def anyPair (f : Fmt) (w : VW) : Bool :=
  match f, w with
  | .int8, .w8 | .int16, .w16 | .int32, .w32 => true
  | _, _ => floatPair f w

/-- The formats of VCVT (R115). -/
def cvtFmt : Fmt → Bool
  | .fp32 | .bf16 | .fp16 | .e4m3 | .e5m2 | .int8 | .int16 | .int32 | .bi32 => true
  | _ => false

/-- The copy formats of VADAMW (R125). -/
def copyFmt : Option Fmt → Bool
  | none | some .bf16 | some .fp16 | some .e4m3 | some .e5m2 => true
  | _ => false

/-- A format field, FORMAT when reserved. -/
def needFmt (c : Nat) (k : Fmt → Except Nat Instr) : Except Nat Instr :=
  match Fmt.ofCode c with
  | some f => k f
  | none => .error rejFormat

/-- RND and GS (R53, R108): GS is 0 unless RND is 0b10. -/
def needRG (rnd gs : Nat) (k : RG → Except Nat Instr) : Except Nat Instr :=
  match Rnd.ofCode rnd with
  | none => .error rejFormat
  | some r => orElse rejEncoding (r = .stoch || gs = 0) (k ⟨r, r16 gs⟩)

/-- A float instruction's FMT, RND and GS against W. -/
def needFRG (w : VW) (f rnd gs : Nat) (k : Fmt → RG → Except Nat Instr) : Except Nat Instr :=
  if rnd ≠ 2 ∧ gs ≠ 0 then .error rejEncoding
  else needFmt f fun f => orElse rejFormat (floatPair f w) (needRG rnd gs (k f))

/-- W, mask enable and mask register (R133); an unused mask register is 0. -/
def needVE (w me m : Nat) (k : VEn → Except Nat Instr) : Except Nat Instr :=
  match VW.ofCode w with
  | none => .error rejEncoding
  | some v => orElse rejEncoding (me = 1 || m = 0) (k ⟨v, me = 1, r8 m⟩)

/-- The second vector operand (R108). -/
def vbOf (r sx : Nat) : VB := if sx = 1 then .scal (r32 r) else .vec (r32 r)
def VB.reg : VB → Nat
  | .vec r => r.val
  | .scal r => r.val
def VB.sx : VB → Nat
  | .vec _ => 0
  | .scal _ => 1

/-- CTL slot (R130, R131). -/
def decodeCtl (i : Issue) (op ops : Nat) : Except Nat Instr :=
  match op with
  | 0x01 => withFields [] ops fun _ => .ok (.halt i)
  | 0x02 => withFields [42, 14] ops fun
    | [z, t] => orElse rejEncoding (z = 0) (.ok (.jmp i (bv 14 t)))
    | _ => .error rejEncoding
  | 0x03 => withFields [5, 37, 14] ops fun
    | [a, z, t] => orElse rejEncoding (z = 0) (.ok (.brz i (r32 a) (bv 14 t)))
    | _ => .error rejEncoding
  | 0x04 => withFields [5, 37, 14] ops fun
    | [a, z, t] => orElse rejEncoding (z = 0) (.ok (.brnz i (r32 a) (bv 14 t)))
    | _ => .error rejEncoding
  | 0x05 => withFields [8, 24, 10, 14] ops fun
    | [y, c, z, t] => orElse rejEncoding (y = 0 && z = 0) (.ok (.loop i (bv 24 c) (bv 14 t)))
    | _ => .error rejEncoding
  | 0x06 => withFields [5, 37, 14] ops fun
    | [a, z, t] => orElse rejEncoding (z = 0) (.ok (.loopr i (r32 a) (bv 14 t)))
    | _ => .error rejEncoding
  | 0x08 => withFields [6, 1, 3] ops fun
    | [c, e, s] => orElse rejEncoding (e = 1 || s = 0) (.ok (.cwait i (r64 c) (e = 1) (r8 s)))
    | _ => .error rejEncoding
  | 0x09 => withFields [3, 39, 14] ops fun
    | [s, z, t] => orElse rejEncoding (z = 0) (.ok (.sbreg i (r8 s) (bv 14 t)))
    | _ => .error rejEncoding
  | 0x0A => withFields [] ops fun _ => .ok (.sbret i)
  | 0x0B => withFields [] ops fun _ => .ok (.ppoint i)
  | _ => .error rejEncoding

/-- DSEL with DREG and DOFF (R131); the one not selected is 0. -/
def dlOf (sel reg off : Nat) : Dl := if sel = 1 then .reg (r32 reg) else .off (bv 24 off)
def dlOk (sel reg off : Nat) : Bool := if sel = 1 then off = 0 else reg = 0
def Dl.fields : Dl → List (Nat × Nat)
  | .off n => [(1, 0), (5, 0), (10, 0), (24, n.toNat)]
  | .reg r => [(1, 1), (5, r.val), (10, 0), (24, 0)]

/-- SYNC slot (R130, R131). -/
def decodeSync (i : Issue) (op ops : Nat) : Except Nat Instr :=
  match op with
  | 0x01 => withFields [7, 3, 6, 1, 5, 10, 24] ops fun
    | [s, b, c, ds, dr, z, d] =>
      orElse rejEncoding (z = 0 && dlOk ds dr d) (.ok (.cret i (r128 s) (r8 b) (r64 c) (dlOf ds dr d)))
    | _ => .error rejEncoding
  | 0x02 => withFields [6, 2, 8, 1, 5, 10, 24] ops fun
    | [c, p, y, ds, dr, z, d] =>
      orElse rejEncoding (y = 0 && z = 0 && dlOk ds dr d) (.ok (.carm i (r64 c) (bv 2 p) (dlOf ds dr d)))
    | _ => .error rejEncoding
  | 0x03 => withFields [7, 6, 5] ops fun
    | [k, c, r] => orElse rejRange (r ≤ 30) (.ok (.cpost i (r128 k) (r64 c) (r32 r)))
    | _ => .error rejEncoding
  | 0x04 => withFields [6] ops fun
    | [c] => .ok (.cdrop i (r64 c))
    | _ => .error rejEncoding
  | _ => .error rejEncoding

/-- Sd, Sa and the second operand (R133). -/
def scalarB (ops : Nat) (k : Fin 32 → Fin 32 → BOp → Except Nat Instr) : Except Nat Instr :=
  withFields [5, 5, 5, 1, 8, 32] ops fun
    | [d, a, b, im, z, v] =>
      if im = 1 then orElse rejEncoding (b = 0 && z = 0) (k (r32 d) (r32 a) (.imm (bv 32 v)))
      else orElse rejEncoding (z = 0 && v = 0) (k (r32 d) (r32 a) (.reg (r32 b)))
    | _ => .error rejEncoding

def BOp.fields : BOp → List (Nat × Nat)
  | .reg r => [(5, r.val), (1, 0), (8, 0), (32, 0)]
  | .imm v => [(5, 0), (1, 1), (8, 0), (32, v.toNat)]

/-- SC slot (R130, R133, R395). -/
def decodeSc (i : Issue) (op ops : Nat) : Except Nat Instr :=
  match op with
  | 0x01 => withFields [5, 19, 32] ops fun
    | [d, z, v] => orElse rejEncoding (z = 0) (.ok (.sli i (r32 d) (bv 32 v)))
    | _ => .error rejEncoding
  | 0x02 => withFields [5, 5] ops fun
    | [d, a] => .ok (.smov i (r32 d) (r32 a))
    | _ => .error rejEncoding
  | 0x03 => scalarB ops fun d a b => .ok (.sadd i d a b)
  | 0x04 => scalarB ops fun d a b => .ok (.ssub i d a b)
  | 0x05 => scalarB ops fun d a b => .ok (.sand i d a b)
  | 0x06 => scalarB ops fun d a b => .ok (.sor i d a b)
  | 0x07 => scalarB ops fun d a b => .ok (.sxor i d a b)
  | 0x08 => scalarB ops fun d a b => .ok (.sshl i d a b)
  | 0x09 => scalarB ops fun d a b => .ok (.sshr i d a b)
  | 0x0A => scalarB ops fun d a b => .ok (.ssra i d a b)
  | 0x0B => withFields [5, 5, 5, 1, 4, 4, 32] ops fun
    | [d, a, b, im, c, z, v] =>
      match SCond.ofCode c with
      | none => .error rejEncoding
      | some cond =>
        if im = 1 then orElse rejEncoding (b = 0 && z = 0) (.ok (.scmp i cond (r32 d) (r32 a) (.imm (bv 32 v))))
        else orElse rejEncoding (z = 0 && v = 0) (.ok (.scmp i cond (r32 d) (r32 a) (.reg (r32 b))))
    | _ => .error rejEncoding
  | 0x0C => scalarB ops fun d a b => .ok (.smul i d a b)
  | 0x10 => scalarB ops fun d a b => .ok (.sfadd i d a b)
  | 0x11 => scalarB ops fun d a b => .ok (.sfsub i d a b)
  | 0x12 => scalarB ops fun d a b => .ok (.sfmul i d a b)
  | 0x13 => scalarB ops fun d a b => .ok (.sffma i d a b)
  | 0x14 => scalarB ops fun d a b => .ok (.sfmin i d a b)
  | 0x15 => scalarB ops fun d a b => .ok (.sfmax i d a b)
  | 0x18 => withFields [5, 5, 14, 32] ops fun
    | [d, a, z, v] => orElse rejEncoding (z = 0) (.ok (.sld i (r32 d) (r32 a) (bv 32 v)))
    | _ => .error rejEncoding
  | 0x19 => withFields [5, 5, 14, 32] ops fun
    | [d, a, z, v] => orElse rejEncoding (z = 0) (.ok (.sst i (r32 d) (r32 a) (bv 32 v)))
    | _ => .error rejEncoding
  | 0x1A => withFields [5] ops fun
    | [d] => .ok (.scyc i (r32 d))
    | _ => .error rejEncoding
  | _ => .error rejEncoding

/-- DESC, BA and BB (R132). -/
def descSlot (ops : Nat) (k : BitVec 12 → Fin 32 → Fin 32 → Except Nat Instr) : Except Nat Instr :=
  withFields [12, 5, 5] ops fun
    | [d, a, b] => k (bv 12 d) (r32 a) (r32 b)
    | _ => .error rejEncoding

/-- HA slot (R130, R132). -/
def decodeHa (i : Issue) (op ops : Nat) : Except Nat Instr :=
  match op with
  | 0x01 => withFields [12, 5, 5, 1, 6] ops fun
    | [d, a, z, alt, u] =>
      orElse rejEncoding (z = 0 && (alt = 1 || u = 0)) (.ok (.hload i (bv 12 d) (r32 a) (alt = 1) (r64 u)))
    | _ => .error rejEncoding
  | 0x02 => descSlot ops fun d a b => .ok (.hmul i d a b)
  | 0x03 => descSlot ops fun d a b => .ok (.preload i d a b)
  | 0x04 => descSlot ops fun d a b => .ok (.hsave i d a b)
  | 0x05 => descSlot ops fun d a b => .ok (.hrestore i d a b)
  | _ => .error rejEncoding

/-- HD slot (R130, R132); the address of HAMAX is 32-byte aligned and inside stage memory (R81). -/
def decodeHd (i : Issue) (op ops : Nat) : Except Nat Instr :=
  match op with
  | 0x01 => descSlot ops fun d a b => .ok (.hdrain i d a b)
  | 0x02 => withFields [1, 1, 31, 23] ops fun
    | [a, c, z, d] =>
      orElse rejEncoding (z = 0) (orElse rejRange (d % 32 = 0) (.ok (.hamax i (r2 a) (c = 1) (bv 23 d))))
    | _ => .error rejEncoding
  | 0x03 => withFields [1, 5] ops fun
    | [a, s] => .ok (.hdparam i (r2 a) (r32 s))
    | _ => .error rejEncoding
  | _ => .error rejEncoding

/-- W, mask fields and operands of the given widths (R108, R133). -/
def vecFields (ws : List Nat) (ops : Nat) (k : VEn → List Nat → Except Nat Instr) : Except Nat Instr :=
  withFields (2 :: 1 :: 3 :: ws) ops fun
    | w :: me :: m :: t => needVE w me m fun e => k e t
    | _ => .error rejEncoding

/-- Operands of an instruction without elements: bits [55:50] are 0 (R108). -/
def bareFields (ws : List Nat) (ops : Nat) (k : List Nat → Except Nat Instr) : Except Nat Instr :=
  withFields (6 :: ws) ops fun
    | z :: t => orElse rejEncoding (z = 0) (k t)
    | _ => .error rejEncoding

/-- Vd, Va, Vb, SX. -/
def vec3 (ops : Nat) (k : VEn → Fin 32 → Fin 32 → VB → Except Nat Instr) : Except Nat Instr :=
  vecFields [5, 5, 5, 1] ops fun e t => match t with
    | [d, a, b, sx] => k e (r32 d) (r32 a) (vbOf b sx)
    | _ => .error rejEncoding

/-- Vd, Va, Vb, SX, OVF. -/
def vec3o (ops : Nat) (k : VEn → Fin 32 → Fin 32 → VB → Bool → Except Nat Instr) : Except Nat Instr :=
  vecFields [5, 5, 5, 1, 1] ops fun e t => match t with
    | [d, a, b, sx, o] => k e (r32 d) (r32 a) (vbOf b sx) (o = 1)
    | _ => .error rejEncoding

/-- Vd, Va, Vb, SX, FMT, RND, GS. -/
def vec3f (ops : Nat) (k : VEn → Fin 32 → Fin 32 → VB → Fmt → RG → Except Nat Instr) : Except Nat Instr :=
  vecFields [5, 5, 5, 1, 4, 2, 4] ops fun e t => match t with
    | [d, a, b, sx, f, rn, gs] => needFRG e.w f rn gs fun f g => k e (r32 d) (r32 a) (vbOf b sx) f g
    | _ => .error rejEncoding

/-- Vd, Va, FMT, RND, GS. -/
def vec2f (ops : Nat) (k : VEn → Fin 32 → Fin 32 → Fmt → RG → Except Nat Instr) : Except Nat Instr :=
  vecFields [5, 5, 4, 2, 4] ops fun e t => match t with
    | [d, a, f, rn, gs] => needFRG e.w f rn gs fun f g => k e (r32 d) (r32 a) f g
    | _ => .error rejEncoding

/-- Two or three mask registers. -/
def vec2m (ops : Nat) (k : VEn → Fin 8 → Fin 8 → Except Nat Instr) : Except Nat Instr :=
  vecFields [3, 3] ops fun e t => match t with
    | [d, a] => k e (r8 d) (r8 a)
    | _ => .error rejEncoding
def vec3m (ops : Nat) (k : VEn → Fin 8 → Fin 8 → Fin 8 → Except Nat Instr) : Except Nat Instr :=
  vecFields [3, 3, 3] ops fun e t => match t with
    | [d, a, b] => k e (r8 d) (r8 a) (r8 b)
    | _ => .error rejEncoding

/-- Sd, Vs, FMT, RND, GS, OVF, WIDE of VRSUM and VRSSQ (R118). -/
def vecSum (ops : Nat) (k : VEn → Fin 32 → Fin 32 → Fmt → RG → Bool → Bool → Except Nat Instr) :
    Except Nat Instr :=
  vecFields [5, 5, 4, 2, 4, 1, 1] ops fun e t => match t with
    | [d, s, f, rn, gs, o, wd] =>
      if rn ≠ 2 ∧ gs ≠ 0 then .error rejEncoding
      else needFmt f fun f => orElse rejFormat (anyPair f e.w) (needRG rn gs fun g =>
        orElse rejRange (wd = 0 || d ≤ 30) (k e (r32 d) (r32 s) f g (o = 1) (wd = 1)))
    | _ => .error rejEncoding

/-- Sd, Vs, FMT of VRMAX and VRMIN (R119). -/
def vecRank (ops : Nat) (k : VEn → Fin 32 → Fin 32 → Fmt → Except Nat Instr) : Except Nat Instr :=
  vecFields [5, 5, 4] ops fun e t => match t with
    | [d, s, f] => needFmt f fun f => orElse rejFormat (anyPair f e.w)
      (orElse rejRange (d ≤ 30) (k e (r32 d) (r32 s) f))
    | _ => .error rejEncoding

/-- OFF_S and OFF_D are multiples of 128 below Lmax of their widths (R115). -/
def cvtOffOk (f : Fmt) (off : Nat) : Bool := off * 128 * f.width < 4096

/-- VCVT (R115). -/
def decodeVcvt (i : Issue) (ops : Nat) : Except Nat Instr :=
  vecFields [5, 5, 4, 4, 2, 2, 2, 1, 1, 5, 5, 5, 2, 4] ops fun e t => match t with
    | [vd, vs, fs, fd, os, od, rn, sat, ovf, sp, sq, se, rc, gs] =>
      if rn ≠ 2 ∧ gs ≠ 0 then .error rejEncoding
      else needFmt fs fun fs => needFmt fd fun fd =>
        orElse rejFormat (cvtFmt fs && cvtFmt fd) (needRG rn gs fun g =>
          orElse rejRange (cvtOffOk fs os && cvtOffOk fd od)
            (.ok (.vcvt i e ⟨r32 vd, r32 vs, fs, fd, r4 os, r4 od, g.rnd, sat = 1, ovf = 1, r32 sp, r32 sq, r32 se,
              r4 rc, g.gs⟩)))
    | _ => .error rejEncoding

/-- VADAMW (R125). -/
def decodeVadamw (i : Issue) (ops : Nat) : Except Nat Instr :=
  vecFields [5, 5, 5, 5, 5, 4, 2, 1, 4, 2, 1] ops fun e t => match t with
    | [va, vb, vc, vd, sb, fc, rm, satc, gs, rc, sk] =>
      let c := Fmt.ofCode fc
      orElse rejEncoding ((rm = 2 || gs = 0) && (fc ≠ 15 || (vd = 0 && satc = 0))) (orElse rejFormat (copyFmt c && rm ≠ 3 && (fc = 15 || c.isSome))
        (orElse rejRange (sb ≤ 21 && rm ≠ 1)
          (.ok (.vadamw i e ⟨r32 va, r32 vb, r32 vc, r32 vd, r32 sb, c, (if rm = 2 then .stoch else .near), satc = 1,
            r16 gs, r4 rc, sk = 1⟩))))
    | _ => .error rejEncoding

/-- VX slot (R130, R108). A VMVS whose EIDX lies at or beyond Lmax(w) names no element, and the spec states neither an
effect nor a rejection: it is rejected with RANGE (DESIGN CHOICE, log 66). -/
def decodeVx (i : Issue) (op ops : Nat) : Except Nat Instr :=
  match op with
  | 0x01 => vecFields [5, 5] ops fun e t => match t with
    | [d, s] => .ok (.vmov i e (r32 d) (r32 s))
    | _ => .error rejEncoding
  | 0x02 => vecFields [5, 5] ops fun e t => match t with
    | [d, s] => .ok (.vbcast i e (r32 d) (r32 s))
    | _ => .error rejEncoding
  | 0x03 => vecFields [5] ops fun e t => match t with
    | [d] => .ok (.viota i e (r32 d))
    | _ => .error rejEncoding
  | 0x04 => vec3 ops fun e d a b => .ok (.vand i e d a b)
  | 0x05 => vec3 ops fun e d a b => .ok (.vor i e d a b)
  | 0x06 => vec3 ops fun e d a b => .ok (.vxor i e d a b)
  | 0x07 => vecFields [5, 5] ops fun e t => match t with
    | [d, a] => .ok (.vnot i e (r32 d) (r32 a))
    | _ => .error rejEncoding
  | 0x08 => vec3 ops fun e d a b => .ok (.vshl i e d a b)
  | 0x09 => vec3 ops fun e d a b => .ok (.vshr i e d a b)
  | 0x0A => vec3 ops fun e d a b => .ok (.vsra i e d a b)
  | 0x0B => vecFields [5, 5, 9] ops fun e t => match t with
    | [d, s, x] => .ok (.vsmv i e (r32 d) (r32 s) (Fin.ofNat 512 x))
    | _ => .error rejEncoding
  | 0x0C => vecFields [5, 5, 9] ops fun e t => match t with
    | [d, s, x] => orElse rejEncoding (!e.masked && e.m = 0)
      (orElse rejRange (x < e.w.lmax) (.ok (.vmvs i e.w (r32 d) (r32 s) (Fin.ofNat 512 x))))
    | _ => .error rejEncoding
  | 0x0D => bareFields [1, 5, 10] ops fun t => match t with
    | [im, a, n] => orElse rejEncoding (if im = 1 then a = 0 else n = 0) (.ok (.vsetlen i (im = 1) (r32 a) (bv 10 n)))
    | _ => .error rejEncoding
  | 0x10 => vec3o ops fun e d a b o => .ok (.viadd i e d a b o)
  | 0x11 => vec3o ops fun e d a b o => .ok (.visub i e d a b o)
  | 0x12 => vec3 ops fun e d a b => .ok (.vimin i e d a b)
  | 0x13 => vec3 ops fun e d a b => .ok (.vimax i e d a b)
  | 0x14 => vec3o ops fun e d a b o => .ok (.vimul i e d a b o)
  | 0x18 => vecFields [3, 5, 5, 1, 4, 4] ops fun e t => match t with
    | [d, a, b, sx, f, c] =>
      match VCond.ofCode c with
      | none => .error rejEncoding
      | some cond => needFmt f fun f => orElse rejFormat (anyPair f e.w) (.ok (.vcmp i e (r8 d) (r32 a) (vbOf b sx) f cond))
    | _ => .error rejEncoding
  | 0x19 => vec3m ops fun e d a b => .ok (.vmand i e d a b)
  | 0x1A => vec3m ops fun e d a b => .ok (.vmor i e d a b)
  | 0x1B => vec3m ops fun e d a b => .ok (.vmxor i e d a b)
  | 0x1C => vec2m ops fun e d a => .ok (.vmnot i e d a)
  | 0x1D => vecFields [5, 3] ops fun e t => match t with
    | [d, a] => .ok (.vpopc i e (r32 d) (r8 a))
    | _ => .error rejEncoding
  | 0x20 => vec3f ops fun e d a b f g => .ok (.vadd i e d a b f g)
  | 0x21 => vec3f ops fun e d a b f g => .ok (.vsub i e d a b f g)
  | 0x22 => vec3f ops fun e d a b f g => .ok (.vmul i e d a b f g)
  | 0x23 => vecFields [5, 5, 5, 5, 4, 2, 4] ops fun e t => match t with
    | [d, a, b, c, f, rn, gs] => needFRG e.w f rn gs fun f g => .ok (.vfma i e (r32 d) (r32 a) (r32 b) (r32 c) f g)
    | _ => .error rejEncoding
  | 0x24 => vec3f ops fun e d a b f g => .ok (.vmin i e d a b f g)
  | 0x25 => vec3f ops fun e d a b f g => .ok (.vmax i e d a b f g)
  | 0x26 => vecFields [5, 5, 4] ops fun e t => match t with
    | [d, a, f] => needFmt f fun f => orElse rejFormat (floatPair f e.w) (.ok (.vabs i e (r32 d) (r32 a) f))
    | _ => .error rejEncoding
  | 0x27 => vecFields [5, 5, 4] ops fun e t => match t with
    | [d, a, f] => needFmt f fun f => orElse rejFormat (floatPair f e.w) (.ok (.vneg i e (r32 d) (r32 a) f))
    | _ => .error rejEncoding
  | 0x28 => vec3f ops fun e d a b f g => .ok (.vdiv i e d a b f g)
  | 0x29 => vec2f ops fun e d a f g => .ok (.vsqrt i e d a f g)
  | 0x2A => vec2f ops fun e d a f g => .ok (.vrsqrt i e d a f g)
  | 0x2B => vec2f ops fun e d a f g => .ok (.vrecip i e d a f g)
  | 0x2C => vec2f ops fun e d a f g => .ok (.vexp2 i e d a f g)
  | 0x2D => vec2f ops fun e d a f g => .ok (.vlog2 i e d a f g)
  | 0x30 => decodeVcvt i ops
  | 0x34 => vecFields [5, 5, 5] ops fun e t => match t with
    | [d, s, x] => .ok (.vperm i e (r32 d) (r32 s) (r32 x))
    | _ => .error rejEncoding
  | 0x35 => vecFields [5, 5, 3, 5] ops fun e t => match t with
    | [d, s, m, c] => .ok (.vcompress i e (r32 d) (r32 s) (r8 m) (r32 c))
    | _ => .error rejEncoding
  | 0x36 => vecFields [5, 5, 3] ops fun e t => match t with
    | [d, s, m] => .ok (.vexpand i e (r32 d) (r32 s) (r8 m))
    | _ => .error rejEncoding
  | 0x37 => vecFields [5, 3, 5] ops fun e t => match t with
    | [d, m, c] => .ok (.vcidx i e (r32 d) (r8 m) (r32 c))
    | _ => .error rejEncoding
  | 0x38 => vecSum ops fun e d s f g o wd => .ok (.vrsum i e d s f g o wd)
  | 0x39 => vecSum ops fun e d s f g o wd => .ok (.vrssq i e d s f g o wd)
  | 0x3A => vecRank ops fun e d s f => .ok (.vrmax i e d s f)
  | 0x3B => vecRank ops fun e d s f => .ok (.vrmin i e d s f)
  | 0x3C => vecFields [5, 5, 5, 1, 5, 4] ops fun e t => match t with
    | [d, s, kk, o, c, f] => needFmt f fun f => orElse rejFormat (anyPair f e.w)
      (orElse rejRange (1 ≤ kk && kk ≤ 16) (.ok (.vrtopk i e (r32 d) (r32 s) (bv 5 kk) (o = 1) (r32 c) f)))
    | _ => .error rejEncoding
  | 0x40 => vecFields [5, 4] ops fun e t => match t with
    | [d, g] => .ok (.vrand i e (r32 d) (r16 g))
    | _ => .error rejEncoding
  | 0x41 => vecFields [5, 4] ops fun e t => match t with
    | [d, g] => orElse rejRange (d % 4 = 0) (.ok (.vrand4 i e (r32 d) (r16 g)))
    | _ => .error rejEncoding
  | 0x42 => vecFields [5, 4] ops fun e t => match t with
    | [d, g] => .ok (.vrandu i e (r32 d) (r16 g))
    | _ => .error rejEncoding
  | 0x43 => vecFields [3, 4, 5] ops fun e t => match t with
    | [d, g, s] => .ok (.vrandm i e (r8 d) (r16 g) (r32 s))
    | _ => .error rejEncoding
  | 0x48 => decodeVadamw i ops
  | 0x4C => bareFields [2, 23, 1] ops fun t => match t with
    | [rc, d, c] => orElse rejRange (d % 32 = 0) (.ok (.vamax i (r4 rc) (bv 23 d) (c = 1)))
    | _ => .error rejEncoding
  | 0x50 => bareFields [4, 2, 5, 5] ops fun t => match t with
    | [g, f, a, b] => orElse rejEncoding (f = 0 || f = 3 || b = 0) (.ok (.vgset i (r16 g) (bv 2 f) (r32 a) (r32 b)))
    | _ => .error rejEncoding
  | 0x51 => bareFields [4, 5, 5] ops fun t => match t with
    | [g, a, b] => .ok (.vgget i (r16 g) (r32 a) (r32 b))
    | _ => .error rejEncoding
  | 0x52 => bareFields [1, 4] ops fun t => match t with
    | [a, g] => .ok (.vgbind i (r2 a) (r16 g))
    | _ => .error rejEncoding
  | _ => .error rejEncoding

/-- 512 bytes from an address lie inside stage memory and it is 64-byte aligned (R114). -/
def vldOk (a : Nat) : Bool := a % 64 = 0 && a + 512 ≤ 0x800000
/-- The alignment and the end of VLDM and VSTM (R114). -/
def vldmOk (w : VW) (a : Nat) : Bool := a % (w.lmax / 8) = 0 && a + w.lmax / 8 ≤ 0x800000

/-- VL slot (R130, R114). -/
def decodeVl (i : Issue) (op ops : Nat) : Except Nat Instr :=
  match op with
  | 0x01 => vecFields [5, 23] ops fun e t => match t with
    | [d, a] => orElse rejRange (vldOk a) (.ok (.vld i e (r32 d) (bv 23 a)))
    | _ => .error rejEncoding
  | 0x02 => vecFields [5, 23, 5, 9, 5] ops fun e t => match t with
    | [d, a, s, c, n] => orElse rejRange (a % 64 = 0 && d + n + 1 ≤ 32)
      (.ok (.vldt i e (r32 d) (bv 23 a) (r32 s) (bv 9 c) (r32 n)))
    | _ => .error rejEncoding
  | 0x03 => vecFields [3, 23] ops fun e t => match t with
    | [d, a] => orElse rejRange (vldmOk e.w a) (.ok (.vldm i e (r8 d) (bv 23 a)))
    | _ => .error rejEncoding
  | _ => .error rejEncoding

/-- VS slot (R130, R114). -/
def decodeVs (i : Issue) (op ops : Nat) : Except Nat Instr :=
  match op with
  | 0x01 => vecFields [5, 23] ops fun e t => match t with
    | [s, a] => orElse rejRange (vldOk a) (.ok (.vst i e (r32 s) (bv 23 a)))
    | _ => .error rejEncoding
  | 0x02 => vecFields [3, 23] ops fun e t => match t with
    | [m, a] => orElse rejRange (vldmOk e.w a) (.ok (.vstm i e (r8 m) (bv 23 a)))
    | _ => .error rejEncoding
  | _ => .error rejEncoding

/-- The instruction of slot `k` that a 64-bit word spells, or the lowest reject code it shows (R129, R137). -/
def decodeSlot (i : Issue) (k : Nat) (word : Nat) : Except Nat Instr :=
  let op := word / 2 ^ 56 % 256
  let ops := word % 2 ^ 56
  if op = 0 then (if ops = 0 then .ok (.nop i) else .error rejEncoding)
  else match k with
    | 0 => decodeCtl i op ops
    | 1 => decodeSync i op ops
    | 2 => decodeSc i op ops
    | 3 => decodeHa i op ops
    | 4 => decodeHd i op ops
    | 5 => decodeVx i op ops
    | 6 => decodeVl i op ops
    | 7 => decodeVs i op ops
    | _ => .error rejEncoding

/-- W, mask enable and mask register as fields. -/
def VEn.fields (e : VEn) : List (Nat × Nat) := [(2, e.w.code), (1, bitN e.masked), (3, e.m.val)]
/-- Vb and SX as fields. -/
def VB.fields (b : VB) : List (Nat × Nat) := [(5, b.reg), (1, b.sx)]
/-- RND and GS as fields. -/
def RG.fields (g : RG) : List (Nat × Nat) := [(2, g.rnd.code), (4, g.gs.val)]
/-- A vector register and a flag as fields. -/
def vr (r : Fin 32) : Nat × Nat := (5, r.val)
def mr (r : Fin 8) : Nat × Nat := (3, r.val)
def fl (b : Bool) : Nat × Nat := (1, bitN b)
def fm (f : Fmt) : Nat × Nat := (4, f.code)
def gn (g : Fin 16) : Nat × Nat := (4, g.val)
/-- A zero header of an instruction without elements. -/
def bare : List (Nat × Nat) := [(6, 0)]

/-- Slot, opcode and operand fields of a script instruction (R130 to R133, R108). -/
def slotFields : Instr → Option (Nat × Nat × List (Nat × Nat))
  | .halt _ => some (0, 0x01, [])
  | .jmp _ t => some (0, 0x02, [(42, 0), (14, t.toNat)])
  | .brz _ a t => some (0, 0x03, [vr a, (37, 0), (14, t.toNat)])
  | .brnz _ a t => some (0, 0x04, [vr a, (37, 0), (14, t.toNat)])
  | .loop _ c t => some (0, 0x05, [(8, 0), (24, c.toNat), (10, 0), (14, t.toNat)])
  | .loopr _ a t => some (0, 0x06, [vr a, (37, 0), (14, t.toNat)])
  | .cwait _ c e s => some (0, 0x08, [(6, c.val), fl e, (3, s.val)])
  | .sbreg _ s t => some (0, 0x09, [(3, s.val), (39, 0), (14, t.toNat)])
  | .sbret _ => some (0, 0x0A, [])
  | .ppoint _ => some (0, 0x0B, [])
  | .cret _ s b c d => some (1, 0x01, [(7, s.val), (3, b.val), (6, c.val)] ++ d.fields)
  | .carm _ c p d => some (1, 0x02, [(6, c.val), (2, p.toNat), (8, 0)] ++ d.fields)
  | .cpost _ k c r => some (1, 0x03, [(7, k.val), (6, c.val), vr r])
  | .cdrop _ c => some (1, 0x04, [(6, c.val)])
  | .sli _ d v => some (2, 0x01, [vr d, (19, 0), (32, v.toNat)])
  | .smov _ d a => some (2, 0x02, [vr d, vr a])
  | .sadd _ d a b => some (2, 0x03, [vr d, vr a] ++ b.fields)
  | .ssub _ d a b => some (2, 0x04, [vr d, vr a] ++ b.fields)
  | .sand _ d a b => some (2, 0x05, [vr d, vr a] ++ b.fields)
  | .sor _ d a b => some (2, 0x06, [vr d, vr a] ++ b.fields)
  | .sxor _ d a b => some (2, 0x07, [vr d, vr a] ++ b.fields)
  | .sshl _ d a b => some (2, 0x08, [vr d, vr a] ++ b.fields)
  | .sshr _ d a b => some (2, 0x09, [vr d, vr a] ++ b.fields)
  | .ssra _ d a b => some (2, 0x0A, [vr d, vr a] ++ b.fields)
  | .scmp _ c d a (.reg r) => some (2, 0x0B, [vr d, vr a, vr r, (1, 0), (4, c.code), (4, 0), (32, 0)])
  | .scmp _ c d a (.imm v) => some (2, 0x0B, [vr d, vr a, (5, 0), (1, 1), (4, c.code), (4, 0), (32, v.toNat)])
  | .smul _ d a b => some (2, 0x0C, [vr d, vr a] ++ b.fields)
  | .sfadd _ d a b => some (2, 0x10, [vr d, vr a] ++ b.fields)
  | .sfsub _ d a b => some (2, 0x11, [vr d, vr a] ++ b.fields)
  | .sfmul _ d a b => some (2, 0x12, [vr d, vr a] ++ b.fields)
  | .sffma _ d a b => some (2, 0x13, [vr d, vr a] ++ b.fields)
  | .sfmin _ d a b => some (2, 0x14, [vr d, vr a] ++ b.fields)
  | .sfmax _ d a b => some (2, 0x15, [vr d, vr a] ++ b.fields)
  | .sld _ d a v => some (2, 0x18, [vr d, vr a, (14, 0), (32, v.toNat)])
  | .sst _ d a v => some (2, 0x19, [vr d, vr a, (14, 0), (32, v.toNat)])
  | .scyc _ d => some (2, 0x1A, [vr d])
  | .hload _ d a alt u => some (3, 0x01, [(12, d.toNat), vr a, (5, 0), fl alt, (6, u.val)])
  | .hmul _ d a b => some (3, 0x02, [(12, d.toNat), vr a, vr b])
  | .preload _ d a b => some (3, 0x03, [(12, d.toNat), vr a, vr b])
  | .hsave _ d a b => some (3, 0x04, [(12, d.toNat), vr a, vr b])
  | .hrestore _ d a b => some (3, 0x05, [(12, d.toNat), vr a, vr b])
  | .hdrain _ d a b => some (4, 0x01, [(12, d.toNat), vr a, vr b])
  | .hamax _ a c d => some (4, 0x02, [(1, a.val), fl c, (31, 0), (23, d.toNat)])
  | .hdparam _ a s => some (4, 0x03, [(1, a.val), vr s])
  | .vmov _ e d s => some (5, 0x01, e.fields ++ [vr d, vr s])
  | .vbcast _ e d s => some (5, 0x02, e.fields ++ [vr d, vr s])
  | .viota _ e d => some (5, 0x03, e.fields ++ [vr d])
  | .vand _ e d a b => some (5, 0x04, e.fields ++ [vr d, vr a] ++ b.fields)
  | .vor _ e d a b => some (5, 0x05, e.fields ++ [vr d, vr a] ++ b.fields)
  | .vxor _ e d a b => some (5, 0x06, e.fields ++ [vr d, vr a] ++ b.fields)
  | .vnot _ e d a => some (5, 0x07, e.fields ++ [vr d, vr a])
  | .vshl _ e d a b => some (5, 0x08, e.fields ++ [vr d, vr a] ++ b.fields)
  | .vshr _ e d a b => some (5, 0x09, e.fields ++ [vr d, vr a] ++ b.fields)
  | .vsra _ e d a b => some (5, 0x0A, e.fields ++ [vr d, vr a] ++ b.fields)
  | .vsmv _ e d s x => some (5, 0x0B, e.fields ++ [vr d, vr s, (9, x.val)])
  | .vmvs _ w d s x => some (5, 0x0C, [(2, w.code), (1, 0), (3, 0), vr d, vr s, (9, x.val)])
  | .vsetlen _ im a n => some (5, 0x0D, bare ++ [fl im, vr a, (10, n.toNat)])
  | .viadd _ e d a b o => some (5, 0x10, e.fields ++ [vr d, vr a] ++ b.fields ++ [fl o])
  | .visub _ e d a b o => some (5, 0x11, e.fields ++ [vr d, vr a] ++ b.fields ++ [fl o])
  | .vimin _ e d a b => some (5, 0x12, e.fields ++ [vr d, vr a] ++ b.fields)
  | .vimax _ e d a b => some (5, 0x13, e.fields ++ [vr d, vr a] ++ b.fields)
  | .vimul _ e d a b o => some (5, 0x14, e.fields ++ [vr d, vr a] ++ b.fields ++ [fl o])
  | .vcmp _ e d a b f c => some (5, 0x18, e.fields ++ [mr d, vr a] ++ b.fields ++ [fm f, (4, c.code)])
  | .vmand _ e d a b => some (5, 0x19, e.fields ++ [mr d, mr a, mr b])
  | .vmor _ e d a b => some (5, 0x1A, e.fields ++ [mr d, mr a, mr b])
  | .vmxor _ e d a b => some (5, 0x1B, e.fields ++ [mr d, mr a, mr b])
  | .vmnot _ e d a => some (5, 0x1C, e.fields ++ [mr d, mr a])
  | .vpopc _ e d a => some (5, 0x1D, e.fields ++ [vr d, mr a])
  | .vadd _ e d a b f g => some (5, 0x20, e.fields ++ [vr d, vr a] ++ b.fields ++ [fm f] ++ g.fields)
  | .vsub _ e d a b f g => some (5, 0x21, e.fields ++ [vr d, vr a] ++ b.fields ++ [fm f] ++ g.fields)
  | .vmul _ e d a b f g => some (5, 0x22, e.fields ++ [vr d, vr a] ++ b.fields ++ [fm f] ++ g.fields)
  | .vfma _ e d a b c f g => some (5, 0x23, e.fields ++ [vr d, vr a, vr b, vr c, fm f] ++ g.fields)
  | .vmin _ e d a b f g => some (5, 0x24, e.fields ++ [vr d, vr a] ++ b.fields ++ [fm f] ++ g.fields)
  | .vmax _ e d a b f g => some (5, 0x25, e.fields ++ [vr d, vr a] ++ b.fields ++ [fm f] ++ g.fields)
  | .vabs _ e d a f => some (5, 0x26, e.fields ++ [vr d, vr a, fm f])
  | .vneg _ e d a f => some (5, 0x27, e.fields ++ [vr d, vr a, fm f])
  | .vdiv _ e d a b f g => some (5, 0x28, e.fields ++ [vr d, vr a] ++ b.fields ++ [fm f] ++ g.fields)
  | .vsqrt _ e d a f g => some (5, 0x29, e.fields ++ [vr d, vr a, fm f] ++ g.fields)
  | .vrsqrt _ e d a f g => some (5, 0x2A, e.fields ++ [vr d, vr a, fm f] ++ g.fields)
  | .vrecip _ e d a f g => some (5, 0x2B, e.fields ++ [vr d, vr a, fm f] ++ g.fields)
  | .vexp2 _ e d a f g => some (5, 0x2C, e.fields ++ [vr d, vr a, fm f] ++ g.fields)
  | .vlog2 _ e d a f g => some (5, 0x2D, e.fields ++ [vr d, vr a, fm f] ++ g.fields)
  | .vcvt _ e o => some (5, 0x30, e.fields ++ [vr o.vd, vr o.vs, fm o.fmtS, fm o.fmtD, (2, o.offS.val),
      (2, o.offD.val), (2, o.rnd.code), fl o.sat, fl o.ovf, vr o.sp, vr o.sq, vr o.se, (2, o.rc.val), gn o.gs])
  | .vperm _ e d s x => some (5, 0x34, e.fields ++ [vr d, vr s, vr x])
  | .vcompress _ e d s m c => some (5, 0x35, e.fields ++ [vr d, vr s, mr m, vr c])
  | .vexpand _ e d s m => some (5, 0x36, e.fields ++ [vr d, vr s, mr m])
  | .vcidx _ e d m c => some (5, 0x37, e.fields ++ [vr d, mr m, vr c])
  | .vrsum _ e d s f g o wd => some (5, 0x38, e.fields ++ [vr d, vr s, fm f] ++ g.fields ++ [fl o, fl wd])
  | .vrssq _ e d s f g o wd => some (5, 0x39, e.fields ++ [vr d, vr s, fm f] ++ g.fields ++ [fl o, fl wd])
  | .vrmax _ e d s f => some (5, 0x3A, e.fields ++ [vr d, vr s, fm f])
  | .vrmin _ e d s f => some (5, 0x3B, e.fields ++ [vr d, vr s, fm f])
  | .vrtopk _ e d s k o c f => some (5, 0x3C, e.fields ++ [vr d, vr s, (5, k.toNat), fl o, vr c, fm f])
  | .vrand _ e d g => some (5, 0x40, e.fields ++ [vr d, gn g])
  | .vrand4 _ e d g => some (5, 0x41, e.fields ++ [vr d, gn g])
  | .vrandu _ e d g => some (5, 0x42, e.fields ++ [vr d, gn g])
  | .vrandm _ e d g s => some (5, 0x43, e.fields ++ [mr d, gn g, vr s])
  | .vadamw _ e o => some (5, 0x48, e.fields ++ [vr o.va, vr o.vb, vr o.vc, vr o.vd, vr o.sb,
      (4, match o.fmtC with | some f => f.code | none => 15), (2, o.rndm.code), fl o.satc, gn o.gs, (2, o.rc.val),
      fl o.skipnf])
  | .vamax _ rc d c => some (5, 0x4C, bare ++ [(2, rc.val), (23, d.toNat), fl c])
  | .vgset _ g f a b => some (5, 0x50, bare ++ [gn g, (2, f.toNat), vr a, vr b])
  | .vgget _ g a b => some (5, 0x51, bare ++ [gn g, vr a, vr b])
  | .vgbind _ a g => some (5, 0x52, bare ++ [(1, a.val), gn g])
  | .vld _ e d a => some (6, 0x01, e.fields ++ [vr d, (23, a.toNat)])
  | .vldt _ e d a s c n => some (6, 0x02, e.fields ++ [vr d, (23, a.toNat), vr s, (9, c.toNat), vr n])
  | .vldm _ e d a => some (6, 0x03, e.fields ++ [mr d, (23, a.toNat)])
  | .vst _ e s a => some (7, 0x01, e.fields ++ [vr s, (23, a.toNat)])
  | .vstm _ e m a => some (7, 0x02, e.fields ++ [mr m, (23, a.toNat)])
  | _ => none

/-- The slot and the 64-bit word of a script instruction; NOP stands in any slot as 0 and is not listed. -/
def encodeSlot (i : Instr) : Option (Nat × Nat) :=
  match slotFields i with
  | some (k, op, fs) => some (k, op * 2 ^ 56 + joinFields fs 56)
  | none => none

/-- A register field A of a stream instruction (R192): 0b11 is reserved. -/
def needA (a : Nat) (k : Fin 3 → Except Nat Instr) : Except Nat Instr :=
  orElse rejEncoding (a < 3) (k (r3 a))

/-- GET and GETU operands (R194). -/
def getFields (ops : Nat) (k : GetOp → Except Nat Instr) : Except Nat Instr :=
  withFields [15, 2, 1, 4, 2, 1, 1, 1, 1, 1, 1, 11, 15] ops fun
    | [doff, p, o, f, rn, sat, ovf, na, wg, scl, xs, so, t] =>
      match Rnd.ofCode rn with
      | none => .error rejFormat
      | some r => k ⟨bv 15 doff, bv 2 p, o = 1, Fmt.ofCode f, r, sat = 1, ovf = 1, na = 1, wg = 1, scl = 1, xs = 1,
          bv 11 so, bv 15 t⟩
    | _ => .error rejEncoding

/-- The source formats of a converting PUT (R196). -/
def putSrc : Fmt → Bool
  | .fp32 | .bf16 | .fp16 | .e4m3 | .e5m2 | .int8 | .int16 | .int32 => true
  | _ => false
/-- The conversion targets of GET and PUT (R196): every target of R34 but BI32. -/
def moveDst : Fmt → Bool
  | .bi32 | .acc64 => false
  | _ => true

/-- PUT operands (R194, R196). -/
def putFields (ops : Nat) (k : PutOp → Except Nat Instr) : Except Nat Instr :=
  withFields [15, 2, 1, 4, 4, 2, 1, 1, 1, 2, 2, 4, 2, 15] ops fun
    | [doff, p, o, f, fs, rn, sat, ovf, wg, qa, ca, cs, z, t] =>
      let fd := Fmt.ofCode f
      let blk : Bool := match fd with | some d => d.isBlockOnly | none => false
      if z ≠ 0 || (blk && ca == 3) || (!blk && (ca ≠ 0 || cs ≠ 0)) then .error rejEncoding
      else match Rnd.ofCode rn, Fmt.ofCode fs with
        | some r, some s =>
          orElse rejFormat (match fd with | some d => putSrc s && moveDst d | none => true)
            (k ⟨bv 15 doff, bv 2 p, o = 1, fd, s, r, sat = 1, ovf = 1, wg = 1, (if qa = 3 then none else some (r3 qa)),
              r3 ca, bv 4 cs, bv 15 t⟩)
        | _, _ => .error rejFormat
    | _ => .error rejEncoding

/-- The stream instruction that a 64-bit word spells for a context, or a reject code (R189, R192). -/
def decodeStream (x : Ctx) (word : Nat) : Except Nat Instr :=
  let ops := word % 2 ^ 56
  match word / 2 ^ 56 % 256 with
  | 0x00 => withFields [] ops fun _ => .ok (.streamNop x)
  | 0x01 => withFields [6, 50] ops fun
    | [z, v] => orElse rejEncoding (z = 0) (.ok (.setb x (bv 50 v)))
    | _ => .error rejEncoding
  | 0x02 => withFields [6, 50] ops fun
    | [z, v] => orElse rejEncoding (z = 0) (.ok (.addb x (bv 50 v)))
    | _ => .error rejEncoding
  | 0x03 => withFields [2, 22, 32] ops fun
    | [a, z, v] => orElse rejEncoding (z = 0) (needA a fun a => .ok (.seta x a (bv 32 v)))
    | _ => .error rejEncoding
  | 0x04 => withFields [2, 22, 32] ops fun
    | [a, z, v] => orElse rejEncoding (z = 0) (needA a fun a => .ok (.adda x a (bv 32 v)))
    | _ => .error rejEncoding
  | 0x05 => withFields [2, 22, 32] ops fun
    | [a, z, v] => orElse rejEncoding (z = 0) (needA a fun a => .ok (.lda x a (bv 32 v)))
    | _ => .error rejEncoding
  | 0x06 => withFields [2, 42, 12] ops fun
    | [a, z, t] => orElse rejEncoding (z = 0) (needA a fun a => .ok (.djnz x a (bv 12 t)))
    | _ => .error rejEncoding
  | 0x07 => withFields [44, 12] ops fun
    | [z, t] => orElse rejEncoding (z = 0) (.ok (.streamJmp x (bv 12 t)))
    | _ => .error rejEncoding
  | 0x08 => getFields ops fun o => .ok (.get x o)
  | 0x09 => getFields ops fun o => .ok (.getu x o)
  | 0x0A => withFields [1] ops fun
    | [u] => .ok (.credit x (u = 1))
    | _ => .error rejEncoding
  | 0x0B => putFields ops fun o => .ok (.put x o)
  | 0x0C => withFields [12, 6, 15, 8, 15] ops fun
    | [tag, c, d, z, t] => orElse rejEncoding (z = 0) (.ok (.racc x (bv 12 tag) (r64 c) (bv 15 d) (bv 15 t)))
    | _ => .error rejEncoding
  | 0x0D => withFields [2] ops fun
    | [a] => needA a fun a => .ok (.mark x a)
    | _ => .error rejEncoding
  | 0x0E => withFields [] ops fun _ => .ok (.rearm x)
  | 0x0F => withFields [] ops fun _ => .ok (.streamEnd x)
  | 0x10 => withFields [1, 15] ops fun
    | [c, d] => .ok (.recw x (c = 1) (bv 15 d))
    | _ => .error rejEncoding
  | 0x11 => withFields [40, 16] ops fun
    | [z, t] => orElse rejEncoding (z = 0) (.ok (.xfer x (bv 16 t)))
    | _ => .error rejEncoding
  | 0x12 => withFields [6, 50] ops fun
    | [z, v] => orElse rejEncoding (z = 0) (.ok (.setl x (bv 50 v)))
    | _ => .error rejEncoding
  | _ => .error rejEncoding

/-- FMT_D of a stream instruction as a field: 0xF is a raw copy. -/
def optFm (f : Option Fmt) : Nat × Nat := (4, match f with | some f => f.code | none => 15)

/-- GET operands as fields (R194). -/
def GetOp.fields (o : GetOp) : List (Nat × Nat) :=
  [(15, o.doff.toNat), (2, o.pitch.toNat), fl o.orient, optFm o.fmtD, (2, o.rnd.code), fl o.sat, fl o.ovf,
    fl o.noalloc, fl o.wing, fl o.scl, fl o.xs, (11, o.soff.toNat), (15, o.toff.toNat)]
/-- PUT operands as fields (R194). -/
def PutOp.fields (o : PutOp) : List (Nat × Nat) :=
  [(15, o.doff.toNat), (2, o.pitch.toNat), fl o.orient, optFm o.fmtD, fm o.fmtS, (2, o.rnd.code), fl o.sat, fl o.ovf,
    fl o.wing, (2, match o.qa with | some a => a.val | none => 3), (2, o.ca.val), (4, o.cslot.toNat), (2, 0),
    (15, o.toff.toNat)]

/-- Opcode and operand fields of a stream instruction (R192, R194). -/
def streamFields : Instr → Option (Nat × List (Nat × Nat))
  | .streamNop _ => some (0x00, [])
  | .setb _ v => some (0x01, [(6, 0), (50, v.toNat)])
  | .addb _ v => some (0x02, [(6, 0), (50, v.toNat)])
  | .seta _ a v => some (0x03, [(2, a.val), (22, 0), (32, v.toNat)])
  | .adda _ a v => some (0x04, [(2, a.val), (22, 0), (32, v.toNat)])
  | .lda _ a v => some (0x05, [(2, a.val), (22, 0), (32, v.toNat)])
  | .djnz _ a t => some (0x06, [(2, a.val), (42, 0), (12, t.toNat)])
  | .streamJmp _ t => some (0x07, [(44, 0), (12, t.toNat)])
  | .get _ o => some (0x08, o.fields)
  | .getu _ o => some (0x09, o.fields)
  | .credit _ u => some (0x0A, [fl u])
  | .put _ o => some (0x0B, o.fields)
  | .racc _ tag c d t => some (0x0C, [(12, tag.toNat), (6, c.val), (15, d.toNat), (8, 0), (15, t.toNat)])
  | .mark _ a => some (0x0D, [(2, a.val)])
  | .rearm _ => some (0x0E, [])
  | .streamEnd _ => some (0x0F, [])
  | .recw _ c d => some (0x10, [fl c, (15, d.toNat)])
  | .xfer _ t => some (0x11, [(40, 0), (16, t.toNat)])
  | .setl _ v => some (0x12, [(6, 0), (50, v.toNat)])
  | _ => none

/-- The 64-bit word of a stream instruction. -/
def encodeStream (i : Instr) : Option Nat :=
  match streamFields i with
  | some (op, fs) => some (op * 2 ^ 56 + joinFields fs 56)
  | none => none

/-- The eight slots of a bundle as commands of a core: NOP slots are left out, the last one ends the bundle, and
a bundle of NOPs is one NOP (R128, R129; log 6). A word that does not decode is a NOP; an accepted script has
none. -/
def bundleInstrs (core : Fin 128) (words : List Nat) : List Instr :=
  let live := ((List.range 8).map (fun k => (k, words.getD k 0))).filter (fun p => p.2 ≠ 0)
  let n := live.length
  if n = 0 then [.nop ⟨core, true⟩]
  else (live.zip (List.range n)).map fun p =>
    let i : Issue := ⟨core, p.2 + 1 == n⟩
    match decodeSlot i p.1.1 p.1.2 with
    | .ok c => c
    | .error _ => .nop i

/-- The command a word spells by the opcode table's bits. The table gives no row any bits (spec/98_reader.md:
n_rows_with_fields 0), so no word spells a command. -/
def decodeTableWord (_nbits _w : Nat) : Option Instr := none

/-- Byte fields packed from byte 0 without gaps, the bytes after them 0 (R132). -/
def descFields : List Nat → List Byte → Option (List Nat)
  | [], bs => if bs.all (· == 0) then some [] else none
  | n :: ns, bs =>
    match descFields ns (bs.drop n) with
    | some t => some (fieldAt bs 0 n :: t)
    | none => none

/-- HLOAD's operands (R64). -/
structure HloadD where
  arr : Nat
  plane : Nat
  src : Nat
  orient : Nat
  fmt : Nat
  sclSrc : Nat
  xmode : Nat
  group : Nat
  bscl : Nat
  deriving DecidableEq, Repr

/-- HMUL's operands (R66). -/
structure HmulD where
  arrs : Nat
  plane : Nat
  src : Nat
  stride : Nat
  fmt : Nat
  xscl : Nat
  rows : Nat
  accRow : Nat
  accMode : Nat
  bscl : Nat
  deriving DecidableEq, Repr

/-- PRELOAD's operands (R75). -/
structure PreloadD where
  arr : Nat
  accRow : Nat
  rows : Nat
  kind : Nat
  src : Nat
  stride : Nat
  fmt : Nat
  deriving DecidableEq, Repr

/-- HSAVE's and HRESTORE's operands (R85). -/
structure HsaveD where
  arrs : Nat
  firstRow : Nat
  rows : Nat
  addr : Nat
  deriving DecidableEq, Repr

/-- HDRAIN's operands (R77). -/
structure HdrainD where
  arr : Nat
  accRow : Nat
  rows : Nat
  dst : Nat
  dstStride : Nat
  fmt : Nat
  sclDst : Nat
  rnd : Nat
  sat : Nat
  ovf : Nat
  sp : Nat
  sq : Nat
  se : Nat
  ewOp : Nat
  ewSrc : Nat
  ewStride : Nat
  ewFmt : Nat
  deriv : Nat
  derivSrc : Nat
  derivStride : Nat
  topk : Nat
  topkDst : Nat
  topkOnly : Nat
  deriving DecidableEq, Repr

def hloadD (b : List Byte) : Option HloadD :=
  match descFields [1, 1, 4, 1, 1, 4, 1, 1, 1] b with
  | some [a, p, s, o, f, c, x, g, k] => some ⟨a, p, s, o, f, c, x, g, k⟩
  | _ => none

def hmulD (b : List Byte) : Option HmulD :=
  match descFields [1, 1, 4, 4, 1, 4, 2, 2, 1, 1] b with
  | some [a, p, s, t, f, x, r, ar, am, k] => some ⟨a, p, s, t, f, x, r, ar, am, k⟩
  | _ => none

def preloadD (b : List Byte) : Option PreloadD :=
  match descFields [1, 2, 2, 1, 4, 4, 1] b with
  | some [a, ar, r, k, s, t, f] => some ⟨a, ar, r, k, s, t, f⟩
  | _ => none

def hsaveD (b : List Byte) : Option HsaveD :=
  match descFields [1, 2, 2, 4] b with
  | some [a, f, r, d] => some ⟨a, f, r, d⟩
  | _ => none

def hdrainD (b : List Byte) : Option HdrainD :=
  match descFields [1, 2, 2, 4, 4, 1, 4, 1, 1, 1, 1, 1, 1, 1, 4, 4, 1, 1, 4, 4, 1, 4, 1] b with
  | some [a, ar, r, d, ds, f, sd, rn, sa, ov, sp, sq, se, eo, es, et, ef, dk, dd, dt, tk, td, tos] =>
    some ⟨a, ar, r, d, ds, f, sd, rn, sa, ov, sp, sq, se, eo, es, et, ef, dk, dd, dt, tk, td, tos⟩
  | _ => none

end Sys2Proof
end

