-- ==== Sys2Proof/Config.lean ====
section
/-! DEFINITION. What the spec leaves open (log 8) and the published algorithms that it names without giving them
(log 10): free values. Each is an opaque constant without a body, so that nothing can evaluate it and no proof can see
its values. -/
namespace Sys2Proof.Config

/-- SIGN, EXP and SIG of an accumulator word whose value lies outside the normal forms of R48 (log 66). -/
opaque accOut : (i e : Int) → BitVec 60

/-- Which of the values that its bytes gave during an HLOAD an element of the plane takes (03:R65, log 9). -/
opaque loadPick : (core fresh elem : Nat) → Nat

/-- Which of the writes that met in a tile a line of it takes (08:R206). -/
opaque lineOrder : (fresh tile line : Nat) → Nat
/-- Which target tile an engine's staging store evicts (10:R229). -/
opaque evict : (fresh : Nat) → Nat

/-- Which free frame a request for a frame is given: the search begins here (07:R175, 13:R338, log 8). -/
opaque frameHint : (fresh : Nat) → Nat
/-- Byte of the side record that a mapping command writes for a tile (07:R172, log 8). -/
opaque mapSide : (mapNo off : Nat) → Byte
/-- Byte of a tile that lies with the partner device (07:R172; log 13). -/
opaque partnerByte : (mapNo frame off : Nat) → Byte
/-- Byte of a tile that a failed restore leaves undefined (11:R282). -/
opaque undefByte : (fresh tile off : Nat) → Byte
/-- Byte of a context image whose content is described as internal (06:R153). -/
opaque imageByte : (core fresh off : Nat) → Byte
/-- The check bits of a latch-bank row (14:R357, log 20). -/
opaque rowCheck : (data : BitVec 256) → BitVec 32
/-- The key of a direction of a fabric link, of the exchange that its number names, and the ciphertext that this device
encapsulates in it (12:R312). -/
opaque linkKey : (exchange : Nat) → (out : Bool) → BitVec 256
opaque linkCipher : (exchange : Nat) → (peer : List Byte) → List Byte

/-- A measured quantity (15 registers): 0 input power, 1 its peak, 2 flow, 3 inlet temperature, 4 hottest point. -/
opaque measured : (which fresh : Nat) → Nat

/-- 256 bits of the key warden's generator (12:R301). -/
opaque randomKey : (fresh : Nat) → BitVec 256
/-- 56 bits of it, for image and record identities (13:R340, 11:R279). -/
opaque random56 : (fresh : Nat) → BitVec 56

/-- The queue pair that the device gives a transfer (13:R339). -/
opaque queuePair : (fresh : Nat) → BitVec 24

/-- SHAKE256 with `n` bytes of output. -/
opaque shake : (n : Nat) → (msg : List Byte) → List Byte
/-- AES-256-GCM: the tag over additional data alone (13:R325). -/
opaque gcmTag : (key : BitVec 256) → (nonce aad : List Byte) → BitVec 128
/-- AES-256-GCM: ciphertext and tag. -/
opaque gcmSeal : (key : BitVec 256) → (nonce aad plain : List Byte) → List Byte
/-- AES-256-GCM: the plaintext when the tag verifies. -/
opaque gcmOpen : (key : BitVec 256) → (nonce aad sealedText : List Byte) → Option (List Byte)
/-- AES key unwrap (RFC 3394), to 256 bits. -/
opaque keyUnwrap : (kek : BitVec 256) → (wrapped : List Byte) → Option (BitVec 256)
/-- The encapsulation key of an ML-KEM-1024 pair, 1,568 bytes. -/
opaque kemPublic : (pair : Nat) → List Byte
/-- Decapsulation under a pair. -/
opaque kemOpen : (pair : Nat) → (ct : List Byte) → List Byte
/-- SLH-DSA-SHAKE-256f verification. -/
opaque verifyFast : (pk msg sig : List Byte) → Bool
/-- SLH-DSA-SHAKE-256s verification under a Ngaifold root key: true for certificates, false for firmware. -/
opaque verifyRoot : (certs : Bool) → (msg sig : List Byte) → Bool
/-- The device attestation public key of an identity seed, 64 bytes. -/
opaque devicePk : (seed : BitVec 256) → List Byte
/-- A signature under the device key, 49,856 bytes. -/
opaque deviceSign : (seed : BitVec 256) → (msg : List Byte) → List Byte
/-- The security version that a firmware image declares (14:R368), and where its signature lies. -/
opaque firmwareSvn : (image : List Byte) → Nat
/-- The signature part of a firmware image. -/
opaque firmwareSig : (image : List Byte) → List Byte
/-- The model key that the installation key unseals from an image's producer (09:R215). -/
opaque modelKey : (image : List Byte) → BitVec 256

end Sys2Proof.Config
end

