-- ==== Sys2Proof/Machine/Convert.lean ====
section
/-! DEFINITION. The conversions between tensor formats (02_number_formats.md R40, R43 to R58): the amax record,
one element, a block of 32, the ACC64 reading, the expansion of INT4 and INT2 weights, and the scale ledger. -/
namespace Sys2Proof

open Machine

/-- An amax record (R57). -/
structure Amax where
  amax : Nat := 0
  nan : Nat := 0
  inf : Nat := 0
  sat : Nat := 0
  sticky : Nat := 0
  deriving DecidableEq, Repr

/-- The cleared record. -/
def Amax.zero : Amax := {}

/-- |y| rounded toward +Inf to FP32, at most 0x7F7F_FFFF (R57). -/
def amaxForm (n : Nat) (e : Int) : Nat :=
  if n = 0 then 0
  else
    let g := Fmt.fp32.lsbAt ⟨n, e, false⟩
    let k := if g ≤ e then n <<< (e - g).toNat else (n + (2 ^ (g - e).toNat - 1)) >>> (g - e).toNat
    if Fmt.fp32.beyond k g then 0x7F7FFFFF else Fmt.fp32.encodeUnits false k g

/-- The record with |y| entered. -/
def Amax.enter (a : Amax) (y : Val) : Amax :=
  match y with
  | .fin _ n e => { a with amax := max a.amax (amaxForm n e) }
  | _ => a

def Amax.addNan (a : Amax) : Amax := { a with nan := satAdd 32 a.nan 1 }
def Amax.addInf (a : Amax) : Amax := { a with inf := satAdd 32 a.inf 1 }
def Amax.addSat (a : Amax) : Amax := { a with sat := satAdd 32 a.sat 1 }
def Amax.addSticky (a : Amax) : Amax := { a with sticky := satAdd 32 a.sticky 1 }

/-- The 160 bits of a record as five little-endian words (R98, R197). -/
def Amax.bytes (a : Amax) : List Byte :=
  leBytes 4 a.amax ++ leBytes 4 a.nan ++ leBytes 4 a.inf ++ leBytes 4 a.sat ++ leBytes 4 a.sticky

/-- The record that the 20 bytes of `Amax.bytes` spell. -/
def Amax.ofBytes (b : List Byte) : Amax :=
  ⟨fieldAt b 0 4, fieldAt b 4 4, fieldAt b 8 4, fieldAt b 12 4, fieldAt b 16 4⟩

/-- A source element: its value, and RANGE_STICKY of an ACC64 word. -/
structure Src where
  v : Val
  sticky : Bool
  deriving DecidableEq, Repr

/-- The fields of a conversion (R52). Block targets have `block`; a BI32 source or target has its GRID_EXP. -/
structure Conv where
  dst : Fmt
  block : Bool
  rnd : Rnd
  sat : Bool
  ovf : Bool
  p : W32
  q : W32
  gridS : Option Int
  gridD : Option Int
  deriving DecidableEq, Repr

/-- P or Qr is neither zero, infinite nor NaN (R52). -/
def factorOk (w : W32) : Bool :=
  match Fmt.fp32.decode w.toNat with
  | .fin _ n _ => n ≠ 0
  | _ => false

/-- GRID_EXP lies in −192 … 127 (R50, R51). -/
def gridOk (g : Option Int) : Bool :=
  match g with
  | none => true
  | some e => decide (-192 ≤ e) && decide (e ≤ 127)

/-- No element of the conversion gives its NaN outcome for P, Qr or GRID_EXP (R51, R52). -/
def Conv.valid (c : Conv) : Bool := factorOk c.p && factorOk c.q && gridOk c.gridS && gridOk c.gridD

/-- The ends of an integer format's range (R41). -/
def Fmt.intRange (f : Fmt) : Int × Int := (-(2 ^ (f.width - 1) : Nat), (2 ^ (f.width - 1) : Nat) - 1)

/-- The outcome of one element; `none` is the block NaN (R45, R54). -/
def Conv.nanOut (c : Conv) : Option Nat :=
  if c.dst.isBlockOnly then none else if c.dst.isFloat then some c.dst.nanCode else some 0

/-- The saturated BI32 codes (R51). -/
def bi32Sat (neg : Bool) : Nat := if neg then 0x80000001 else 0x7FFFFFFF

/-- The end of an integer target's range (R55). -/
def Fmt.intEnd (f : Fmt) (neg : Bool) : Nat :=
  lowBits f.width (if neg then f.intRange.1 else f.intRange.2)

/-- The outcome of an infinite source (R54, R55, R51). -/
def Conv.infOut (c : Conv) (neg : Bool) : Option Nat :=
  if c.dst = .bi32 then some (bi32Sat neg)
  else if !c.dst.isFloat then some (c.dst.intEnd neg)
  else if c.dst.hasInf then some (c.dst.infCode neg)
  else if c.sat then some (c.dst.largestCode neg)
  else c.nanOut

/-- The outcome of a finite value beyond a float target's range (R54). -/
def Conv.beyondOut (c : Conv) (neg : Bool) : Option Nat :=
  if c.sat then some (c.dst.largestCode neg)
  else if c.dst.hasInf then some (c.dst.infCode neg)
  else c.nanOut

/-- A finite non-zero value v after its factors, converted under block exponent X (R52, R53, R55). -/
def Conv.finOut (c : Conv) (a : Amax) (neg : Bool) (n : Nat) (e : Int) (x : Int) (r : Nat) : Option Nat × Amax :=
  if c.dst.isFloat then
    let e := if c.block then e - x else e
    let (k, g) := c.dst.roundFloat ⟨n, e, false⟩ c.rnd r
    if c.dst.beyond k g then (c.beyondOut neg, a.addSat) else (some (c.dst.encodeUnits neg k g), a)
  else
    let e := match c.gridD with | some g => e - g | none => e
    let k := roundUnits 0 ⟨n, e, false⟩ c.rnd r
    let i : Int := if neg then -(k : Int) else k
    if c.dst = .bi32 then
      if (k : Int) ≤ 2 ^ 31 - 1 then (some (lowBits 32 i), a) else (some (bi32Sat neg), a.addSat)
    else
      let (lo, hi) := c.dst.intRange
      if lo ≤ i ∧ i ≤ hi then (some (lowBits c.dst.width i), a)
      else if c.ovf then (some (lowBits c.dst.width i), a.addSat)
      else (some (c.dst.intEnd neg), a.addSat)

/-- convert(x) of R52: the code (`none` for the block NaN) and the record. -/
def Conv.elem (c : Conv) (s : Src) (x : Int) (r : Nat) (a : Amax) : Option Nat × Amax :=
  if !c.valid then (c.nanOut, a.addNan)
  else
    let a := if s.sticky then a.addSticky else a
    match s.v with
    | .nan => (c.nanOut, a.addNan)
    | .inf neg => (c.infOut neg, a.addInf)
    | .fin neg n e =>
      if n = 0 then (some (if c.dst.isFloat then c.dst.zeroCode neg else 0), a)
      else
        let y := (Val.fin neg n e).mul (Fmt.fp32.decode c.p.toNat)
        let a := a.enter y
        match y.mul (Fmt.fp32.decode c.q.toNat) with
        | .fin neg' n' e' => c.finOut a neg' n' e' x r
        | _ => (c.nanOut, a)

/-- floor(log2 |v|) of a finite non-zero element after both factors. -/
def Conv.logOf (c : Conv) (s : Src) : Option Int :=
  match (s.v.mul (Fmt.fp32.decode c.p.toNat)).mul (Fmt.fp32.decode c.q.toNat) with
  | .fin _ n e => if n = 0 then none else some (log2Of n e)
  | _ => none

/-- X of R45. Under an invalid factor no element has a value, so X is −127 (DEDUCED, log 22). -/
def Conv.blockX (c : Conv) (xs : List Src) : Int :=
  if !c.valid then -127
  else
    let m := xs.foldl (fun (acc : Option Int) s =>
      match c.logOf s with
      | none => acc
      | some l => match acc with | none => some l | some l' => some (max l l')) none
    match m with
    | none => -127
    | some l => max (-127) (min 127 (l - c.dst.emax))

/-- Elements one after the other through one record, under one block exponent. -/
def Conv.elems (c : Conv) (x : Int) : List (Src × Nat) → Amax → List (Option Nat) × Amax
  | [], a => ([], a)
  | (s, r) :: t, a =>
    let (o, a) := c.elem s x r a
    let (os, a) := c.elems x t a
    (o :: os, a)

/-- A block of at most 32 elements with their random bits: scale code, element codes, record (R45). -/
def Conv.blockOf (c : Conv) (xs : List (Src × Nat)) (a : Amax) : Nat × List Nat × Amax :=
  let x := c.blockX (xs.map Prod.fst)
  let (os, a) := c.elems x xs a
  if os.any Option.isNone then (0xFF, os.map (fun _ => 0), a)
  else ((x + 127).toNat, os.map (fun o => o.getD 0), a)

/-- A row of elements: codes, block scale codes (one per 32, none for a target without blocks), record. -/
def Conv.rowFuel (c : Conv) : Nat → List (Src × Nat) → Amax → List Nat × List Nat × Amax
  | 0, _, a => ([], [], a)
  | fuel + 1, xs, a =>
    if xs.isEmpty then ([], [], a)
    else if c.block then
      let (sc, os, a) := c.blockOf (xs.take 32) a
      let (os', scs, a) := c.rowFuel fuel (xs.drop 32) a
      (os ++ os', sc :: scs, a)
    else
      let (os, a) := c.elems 0 xs a
      (os.map (fun o => o.getD 0), [], a)

/-- A row of elements (R45, R52). -/
def Conv.row (c : Conv) (xs : List (Src × Nat)) (a : Amax) : List Nat × List Nat × Amax :=
  c.rowFuel xs.length xs a

/-- The value of an E8M0 block scale applied to an element (R43, R44). -/
def scaled (v : Val) (sc : Nat) : Val :=
  if sc = 0xFF then .nan
  else match v with
    | .fin s n e => .fin s n (e + ((sc : Int) - 127))
    | w => w

/-- The finite value of an ACC64 word as a signed significand and an exponent (R47, R48). -/
def accFin (w : W64) : Int × Int :=
  let sig := bitsOf w.toNat 51 4
  if sig = 0 then (0, 0)
  else ((if w.getLsbD 63 then -(sig : Int) else sig), (bitsOf w.toNat 62 52 : Int) - 1023 - 47)

/-- The flags NAN_SEEN, PINF_SEEN, NINF_SEEN, RANGE_STICKY as bits [3:0] (R47). -/
def accFlags (w : W64) : Nat := w.toNat % 16

/-- An ACC64 word read as a source (R49). -/
def accSrc (w : W64) : Src :=
  let f := accFlags w
  let v : Val :=
    if f.testBit 3 || (f.testBit 2 && f.testBit 1) then .nan
    else if f.testBit 2 then .inf false
    else if f.testBit 1 then .inf true
    else finOfInt (accFin w).1 (accFin w).2
  ⟨v, f.testBit 0⟩

/-- The ACC64 word of i·2^e, i of at most 48 significant bits, with flags (R47, R48). A value below 2^−1023 or beyond
the range of EXP has no normal form, and the spec states no word for it: SIGN, EXP and SIG are free (DESIGN CHOICE,
log 66). -/
def accWord (i e : Int) (flags : Nat) : W64 :=
  if i = 0 then BitVec.ofNat 64 (flags % 16)
  else
    let l := (Nat.log2 i.natAbs : Int)
    let sig := (shiftInt (i.natAbs : Int) (47 - l)).toNat
    let ex := e + l + 1023
    if 0 ≤ ex ∧ ex < 2048 then
      BitVec.ofNat 64 ((if i < 0 then 2 ^ 63 else 0) + ex.toNat * 2 ^ 52 + (sig % 2 ^ 48) * 16 + flags % 16)
    else BitVec.ofNat 64 ((Config.accOut i e).toNat * 16 + flags % 16)

/-- A code of any format but BI32 and ACC64 as a source value; a BI32 code takes its grid, an ACC64 word its
flags (R52). -/
def srcOf (f : Fmt) (grid : Int) (c : Nat) : Src :=
  match f with
  | .acc64 => accSrc (BitVec.ofNat 64 c)
  | .bi32 => ⟨finOfInt (signedOf 32 c) grid, false⟩
  | .int8 | .int4 | .int2 | .int16 | .int32 => ⟨f.decodeInt c, false⟩
  | _ => ⟨f.decode c, false⟩

/-- The affine expansion of a weight to BF16 (R46). -/
def expandAffine (q : Int) (s : Nat) (z : Int) : Nat :=
  let d := q - z
  match Fmt.bf16.decode s with
  | .nan => 0x7FC0
  | .inf neg => if d = 0 then 0x7FC0 else Fmt.bf16.infCode (xor neg (d < 0))
  | .fin neg n e => Fmt.bf16.finish (Val.exact ((Val.fin neg n e).mul (.fin (d < 0) d.natAbs 0))) .near 0

/-- An entry of a code table as expansion gives it: a NaN entry becomes the canonical NaN (R46). -/
def expandTable (t : Nat) : Nat :=
  match Fmt.bf16.decode t with
  | .nan => 0x7FC0
  | _ => t

/-- A scale ledger entry (R59). The device's scripts hold these in the box's tiles; the update is R60's. -/
structure Ledger where
  scale : Nat
  recip : Nat
  fmt : Nat
  policy : Nat
  margin : Nat
  head : Nat
  nan : Nat
  inf : Nat
  sat : Nat
  step : Nat
  sticky : Nat
  hist : List Nat
  deriving DecidableEq, Repr

/-- A history entry as R394 reads it: none for 0, else floor(log2) with infinity above everything. -/
def ledgerRead (w : Nat) : Option Int :=
  match Fmt.fp32.decode w with
  | .nan => none
  | .inf _ => some 1000
  | .fin _ n e => if n = 0 then none else some (log2Of n e)

/-- The largest of some history readings (R394). -/
def ledgerMax (ws : List Nat) : Option Int :=
  ws.foldl (fun acc w => match ledgerRead w, acc with
    | none, a => a
    | some l, none => some l
    | some l, some a => some (max l a)) none

/-- Mexp of R60. -/
def Fmt.mexp : Fmt → Int
  | .fp32 | .bf16 => 127 | .fp16 => 15 | .e4m3 => 8 | .e5m2 => 15 | .e3m2 => 4 | .e2m3 => 2 | .e2m1 => 2
  | .int8 => 6 | .int16 => 14 | .int32 => 30 | _ => 0

/-- The FP32 code of 2^k (R60; k from −127 to 127). -/
def pow2Code (k : Int) : Nat := Fmt.fp32.finish (.fin false ⟨1, k, false⟩) .near 0

/-- update(entry, a, counts, step) of R60. -/
def Ledger.update (l : Ledger) (a : Nat) (counts : Nat × Nat × Nat × Nat) (step : Nat) : Ledger :=
  let head := (l.head + 1) % 16
  let l := { l with head := head, hist := listUpd l.hist head (fun _ => a), step := step,
                    nan := counts.1, inf := counts.2.1, sat := counts.2.2.1, sticky := counts.2.2.2 }
  if l.policy = 0 ∨ l.policy = 4 then l
  else
    match (if l.policy = 1 then ledgerMax l.hist else ledgerRead a), Fmt.ofCode l.fmt with
    | some lg, some f =>
      let k := max (-126) (min 127 (f.mexp - lg - 1 - l.margin))
      { l with recip := pow2Code k, scale := pow2Code (-k) }
    | _, _ => l

end Sys2Proof
end

