-- ==== Sys2Proof/Machine/HingeArith.lean ====
section
/-! DEFINITION. The arithmetic of the hinge array (03_hinge_array.md R67 to R72, R79, R80) and of the derivative
stage (04_backward_pass.md R92 to R95), over exact dyadic numbers i·2^e. -/
namespace Sys2Proof

open Machine

/-- A dyadic number i·2^e; zero is (0, 0). -/
abbrev Dy := Int × Int

/-- floor(log2 |y|) of a non-zero dyadic. -/
def dyLog (y : Dy) : Int := log2Of y.1.natAbs y.2

/-- |y| ≥ 2^128 (R47 RANGE_STICKY). -/
def dyBig (y : Dy) : Bool := y.1 ≠ 0 && decide (128 ≤ dyLog y)

/-- Exact sum of two dyadics. -/
def dyAdd (x y : Dy) : Dy :=
  if x.1 = 0 then y else if y.1 = 0 then x
  else
    let g := min x.2 y.2
    (shiftInt x.1 (x.2 - g) + shiftInt y.1 (y.2 - g), g)

/-- trunc48 of a dyadic (R69). -/
def dyTrunc (y : Dy) : Dy := trunc48 y.1 y.2

/-- The sum of some dyadics, each truncated toward minus infinity on the grid 40 bits below the largest (R69, the
group and combine stages). Zeros take no part. -/
def gridSum (ys : List Dy) : Dy :=
  let f := ys.filter (fun y => y.1 ≠ 0)
  match f.map dyLog with
  | [] => (0, 0)
  | l :: ls =>
    let u := ls.foldl max l - 40
    (f.foldl (fun acc y => acc + shiftInt y.1 (y.2 - u)) 0, u)

/-- What the products of one row and one column give to the accumulate stage: the combined sums C[0], C[1], the
flags' conditions, and whether a product or sum reached 2^128 (R69, R72). -/
structure RowSum where
  cs : List Dy
  nan : Bool
  pinf : Bool
  ninf : Bool
  big : Bool
  deriving DecidableEq, Repr

/-- The finite value of a product as a dyadic; NaN and infinite products contribute nothing (R68). -/
def valDy : Val → Dy
  | .fin s n e => if n = 0 then (0, 0) else ((if s then -(n : Int) else n), e)
  | _ => (0, 0)

/-- A list cut into pieces of `n`. -/
def chunks {α : Type} (n : Nat) : Nat → List α → List (List α)
  | 0, _ => []
  | fuel + 1, xs => if xs.isEmpty then [] else xs.take n :: chunks n fuel (xs.drop n)

/-- The group and combine stages over the products of one row and column (R68, R69): groups of 32, combines of
four groups. -/
def rowSum (ps : List Val) : RowSum :=
  let ds := ps.map valDy
  let groups := (chunks 32 (ds.length + 1) ds).map gridSum
  let cs := (chunks 4 (groups.length + 1) groups).map gridSum
  { cs := cs
    nan := ps.any (fun p => p = .nan)
    pinf := ps.any (fun p => p = .inf false)
    ninf := ps.any (fun p => p = .inf true)
    big := ds.any dyBig || groups.any dyBig || cs.any dyBig }

/-- The accumulate stage: each combined sum in order; the running value and whether a result reached 2^128. -/
def accumulate : Dy → List Dy → Dy × Bool
  | a, [] => (a, false)
  | a, c :: cs =>
    let a' := dyTrunc (dyAdd a c)
    let (r, b) := accumulate a' cs
    (r, dyBig a' || b)

/-- One accumulate of a row into a word (R69, R72): ACC_MODE 0 discards the previous value and flags. -/
def accStep (w : W64) (mode : Nat) (r : RowSum) : W64 :=
  let old : Dy := if mode = 0 then (0, 0) else accFin w
  let fl := if mode = 0 then 0 else accFlags w
  let (a, big) := accumulate old r.cs
  let f := (if r.nan || fl.testBit 3 then 8 else 0) + (if r.pinf || fl.testBit 2 then 4 else 0)
    + (if r.ninf || fl.testBit 1 then 2 else 0) + (if r.big || big || fl.testBit 0 then 1 else 0)
  accWord a.1 a.2 f

/-- A PRELOAD element of a float source (R75). -/
def preloadWord (v : Val) : W64 :=
  match v with
  | .nan => 8
  | .inf s => if s then 2 else 4
  | .fin s n e => accWord (if s then -(n : Int) else n) e 0

/-- HMUL modes (R67). -/
inductive HMode where
  | single | double | paired
  deriving DecidableEq, Repr

/-- 8-bit and BF16 operands of the single-mode float pairs. -/
def Fmt.isWide8 : Fmt → Bool
  | .bf16 | .e4m3 | .e5m2 => true
  | _ => false

/-- The mode of a streaming and a plane format, none where they do not pair (R35, R67). INT4 and INT2 stand on a
plane as BF16 (R396). -/
def hmode (x w : Fmt) : Option HMode :=
  if x.isWide8 && w.isWide8 then some .single
  else if x = .int8 && w = .int8 then some .single
  else if x = .fp16 && (w = .fp16 || w.isWide8) then some .double
  else if x.isWide8 && w = .fp16 then some .double
  else if x.isBlockOnly && w.isBlockOnly then some .paired
  else none

/-- The mode the loader takes for a plane not loaded on the path (R396). -/
def hmodeAlone (x : Fmt) : Option HMode :=
  if x.isWide8 || x = .int8 then some .single
  else if x = .fp16 then some .double
  else if x.isBlockOnly then some .paired
  else none

/-- Reduction length of one row on an edge (R64, R67). -/
def Fmt.klen (f : Fmt) : Nat := if f.isBlockOnly then 256 else 128

/-- A product's factors as values: the element and its block scale (R68). -/
def operandVal (f : Fmt) (code sc : Nat) : Val :=
  match f with
  | .int8 => f.decodeInt code
  | _ => scaled (f.decode code) sc

/-- A drain value (R79). -/
structure DVal where
  v : Val
  sticky : Bool
  deriving DecidableEq, Repr

/-- A stage result brought to 48 significant bits; a finite zero is +0 and 2^128 sets the sticky bit (R79). -/
def drainVal (v : Val) (sticky : Bool) : DVal :=
  match v with
  | .fin s n e =>
    let y := dyTrunc (valDy (.fin s n e))
    ⟨finOfInt y.1 y.2, sticky || dyBig y⟩
  | w => ⟨w, sticky⟩

/-- The element-wise stage (R79). -/
def drainEw (op : Nat) (x : DVal) (o : Val) : DVal :=
  match op with
  | 1 => drainVal (x.v.add o) x.sticky
  | 2 => drainVal (x.v.mul o) x.sticky
  | _ => x

/-- The factor of a value kind (R92, R94): exact. -/
def derivFactor (kind : Nat) (a : Val) (c0 : Val) : Val :=
  let one : Val := .fin false 1 0
  match kind with
  | 5 => match a with
    | .fin .. => a.mul (one.add a.neg)
    | _ => .nan
  | 6 => match a with
    | .fin .. => one.add (a.mul a).neg
    | _ => .nan
  | 9 => a.mul c0
  | _ => a

/-- The derivative stage on one element: kept bits b0, b1 or kept value a (R92 to R95). -/
def drainDeriv (kind : Nat) (x : DVal) (b0 b1 : Bool) (a : Val) (c0 : Val) : DVal :=
  let zero : DVal := ⟨.fin false 0 0, x.sticky⟩
  let times (f : Val) : DVal := drainVal (x.v.mul f) x.sticky
  match kind with
  | 0 => x
  | 1 => if b0 then x else zero
  | 2 => if b0 then times c0 else zero
  | 3 => if b0 then x else times c0
  | 4 => if b0 && b1 then times c0 else zero
  | _ => times (derivFactor kind a c0)

/-- The rank key of an element in the order of R80 (`up` false) or of R119's second list (`up` true): lower keys
rank first. NaN is 0; other values follow their numeric order with −0 and +0 apart. -/
def rankKey (f : Fmt) (c : Nat) : Option Val :=
  match srcOf f 0 c with
  | ⟨.nan, _⟩ => none
  | ⟨v, _⟩ => some v

/-- Whether `a` ranks strictly before `b`. -/
def rankBefore (f : Fmt) (up : Bool) (a b : Nat) : Bool :=
  match rankKey f a, rankKey f b with
  | none, none => false
  | none, some _ => true
  | some _, none => false
  | some x, some y =>
    let c := x.cmp y
    if c = 0 then
      f.isFloat && x.isZero && y.isZero && (if up then f.signOf a && !f.signOf b else !f.signOf a && f.signOf b)
    else if up then decide (c < 0) else decide (c > 0)

/-- Insertion of (index, code) behind every element that does not rank after it. -/
def rankInsert (f : Fmt) (up : Bool) (x : Nat × Nat) : List (Nat × Nat) → List (Nat × Nat)
  | [] => [x]
  | y :: ys => if rankBefore f up x.2 y.2 then x :: y :: ys else y :: rankInsert f up x ys

/-- Elements (index, code) in rank order, equal ranks by position (R80, R119). -/
def ranked (f : Fmt) (up : Bool) (xs : List (Nat × Nat)) : List (Nat × Nat) :=
  xs.foldl (fun acc x => rankInsert f up x acc) []

/-- A code with NaN made canonical (R80, R119). -/
def canonCode (f : Fmt) (c : Nat) : Nat :=
  if f.isFloat then (match f.decode c with | .nan => f.nanCode | _ => c) else c

/-- The 128-byte top-k record of a row (R80). -/
def topkRecord (f : Fmt) (t : Nat) (codes : List Nat) : List Byte :=
  let top := (ranked f false ((List.range codes.length).zip codes)).take t
  let vals := (List.range 16).map (fun i => match top[i]? with | some p => canonCode f p.2 | none => 0)
  let cols := (List.range 16).map (fun i => match top[i]? with | some p => p.1 | none => 0)
  vals.flatMap (leBytes 4) ++ cols.flatMap (leBytes 2) ++ leBytes 32 0

end Sys2Proof
end

