-- ==== Sys2Proof/Machine/VectorArith.lean ====
section
/-! DEFINITION. The arithmetic of the vector engine on element codes (05_vector_engine.md R102, R109 to R125): lanes,
integer and float operations, comparisons, reductions, ranking, the generator Philox4x32-10 and VADAMW. -/
namespace Sys2Proof

open Machine

/-- A vector register (R101). -/
abbrev VReg := BitVec 4096
/-- A mask register (R101). -/
abbrev MReg := BitVec 512

/-- Element `e` at width `w` (R102). -/
def elemAt (w : Nat) (r : VReg) (e : Nat) : Nat := r.toNat / 2 ^ (w * e) % 2 ^ w

/-- Element writes (index, code) at width `w` as the bits written and their values. -/
def elemWrites (w : Nat) (ws : List (Nat × Nat)) : VReg × VReg :=
  ws.foldl (fun acc p =>
    (acc.1 ||| BitVec.ofNat 4096 ((2 ^ w - 1) * 2 ^ (w * p.1)),
      acc.2 ||| BitVec.ofNat 4096 (p.2 % 2 ^ w * 2 ^ (w * p.1)))) (0, 0)

/-- Mask writes (index, bit) as the bits written and their values. -/
def maskWrites (ws : List (Nat × Bool)) : MReg × MReg :=
  ws.foldl (fun acc p =>
    (acc.1 ||| BitVec.ofNat 512 (2 ^ p.1), acc.2 ||| BitVec.ofNat 512 (if p.2 then 2 ^ p.1 else 0))) (0, 0)

/-- Some bits of a register replaced. -/
def mergeBits {n : Nat} (old mask val : BitVec n) : BitVec n := (old &&& ~~~mask) ||| (val &&& mask)

/-- The active elements of an instruction of width `w` (R103, R104). -/
def activeElems (w : VW) (vlen : Nat) (masked : Bool) (m : MReg) : List Nat :=
  (List.range (min vlen w.lmax)).filter (fun e => !masked || m.getLsbD e)

/-- Saturation or wrapping of an exact integer to `w` bits (R112, R55). -/
def intOut (w : Nat) (ovf : Bool) (x : Int) : Nat :=
  if ovf then lowBits w x
  else lowBits w (max (-(2 ^ (w - 1) : Nat)) (min ((2 ^ (w - 1) : Nat) - 1) x))

/-- A shift of a `w`-bit element by an unsigned count (R112). -/
def shlN (w a n : Nat) : Nat := if n ≥ w then 0 else a * 2 ^ n % 2 ^ w
def shrN (w a n : Nat) : Nat := if n ≥ w then 0 else a / 2 ^ n
def sraN (w a n : Nat) : Nat := lowBits w (signedOf w a / (2 ^ (min n w) : Nat))

/-- VABS and VNEG (R108, R109). -/
def Fmt.absCode (f : Fmt) (c : Nat) : Nat :=
  match f.decode c with
  | .nan => f.nanCode
  | _ => c % 2 ^ (f.width - 1)
def Fmt.negCode (f : Fmt) (c : Nat) : Nat :=
  match f.decode c with
  | .nan => f.nanCode
  | _ => (c + 2 ^ (f.width - 1)) % 2 ^ f.width

/-- Float addition, subtraction, multiplication, multiply-add and division of codes (R109, R111). -/
def Fmt.addC (f : Fmt) (rnd : Rnd) (r a b : Nat) : Nat := f.finish ((f.decode a).add (f.decode b)).exact rnd r
def Fmt.subC (f : Fmt) (rnd : Rnd) (r a b : Nat) : Nat := f.finish ((f.decode a).add (f.decode b).neg).exact rnd r
def Fmt.mulC (f : Fmt) (rnd : Rnd) (r a b : Nat) : Nat := f.finish ((f.decode a).mul (f.decode b)).exact rnd r
def Fmt.fmaC (f : Fmt) (rnd : Rnd) (r a b c : Nat) : Nat :=
  f.finish (((f.decode a).mul (f.decode b)).add (f.decode c)).exact rnd r
def Fmt.divC (f : Fmt) (rnd : Rnd) (r a b : Nat) : Nat := f.finish ((f.decode a).div (f.decode b)) rnd r

/-- Whether a VCMP condition holds (R113); integers compare signed. -/
def cmpHolds (f : Fmt) (c : VCond) (a b : Nat) : Bool :=
  let x := (srcOf f 0 a).v
  let y := (srcOf f 0 b).v
  if x = .nan || y = .nan then (match c with | .ne | .un => true | _ => false)
  else
    let o := x.cmp y
    match c with
    | .eq => o = 0 | .ne => o ≠ 0 | .lt => o < 0 | .le => o ≤ 0 | .gt => o > 0 | .ge => o ≥ 0
    | .un => false | .ord => true

/-- SCMP (R133, R395). -/
def scmpHolds (c : SCond) (a b : W32) : Bool :=
  match c with
  | .eq => a = b
  | .ne => a ≠ b
  | .lt => a.toInt < b.toInt
  | .le => a.toInt ≤ b.toInt
  | .ltu => a.toNat < b.toNat
  | .leu => a.toNat ≤ b.toNat
  | .flt => cmpHolds .fp32 .lt a.toNat b.toNat
  | .fle => cmpHolds .fp32 .le a.toNat b.toNat

/-- A generator (R101, R121). -/
structure Gen where
  key : Nat := 0
  sid : Nat := 0
  step : Nat := 0
  draw : Nat := 0
  deriving DecidableEq, Repr

/-- One round of Philox4x32 (R121). -/
def philoxRound (c : Nat × Nat × Nat × Nat) (k0 k1 : Nat) : Nat × Nat × Nat × Nat :=
  let p0 := 0xD2511F53 * c.1
  let p1 := 0xCD9E8D57 * c.2.2.1
  (((p1 / 2 ^ 32) ^^^ c.2.1) ^^^ k0, p1 % 2 ^ 32, ((p0 / 2 ^ 32) ^^^ c.2.2.2) ^^^ k1, p0 % 2 ^ 32)

/-- `n` rounds with the key steps between them (R121). -/
def philoxRounds : Nat → Nat × Nat × Nat × Nat → Nat → Nat → Nat × Nat × Nat × Nat
  | 0, c, _, _ => c
  | n + 1, c, k0, k1 => philoxRounds n (philoxRound c k0 k1) ((k0 + 0x9E3779B9) % 2 ^ 32) ((k1 + 0xBB67AE85) % 2 ^ 32)

/-- The four words of lane `l` at the generator's DRAW (R121). -/
def Gen.words (g : Gen) (l : Nat) : Nat × Nat × Nat × Nat :=
  philoxRounds 10 (g.draw % 2 ^ 32, g.draw / 2 ^ 32 % 2 ^ 16 + l % 128 * 2 ^ 16, g.step, g.sid)
    (g.key % 2 ^ 32) (g.key / 2 ^ 32)

/-- Word `j` of lane `l`. -/
def Gen.word (g : Gen) (l j : Nat) : Nat :=
  let w := g.words l
  match j with | 0 => w.1 | 1 => w.2.1 | 2 => w.2.2.1 | _ => w.2.2.2

/-- Half `h` of word `j` of lane `l`. -/
def Gen.half (g : Gen) (l j h : Nat) : Nat := g.word l j / 2 ^ (16 * h) % 2 ^ 16

/-- DRAW after one draw (R122). -/
def Gen.next (g : Gen) : Gen := { g with draw := (g.draw + 1) % 2 ^ 48 }

/-- The 16 random bits of element `e` at element width `w` (R122). -/
def Gen.elemBits (g : Gen) (w e : Nat) : Nat :=
  if w = 32 then g.half e 0 0
  else if w = 16 then g.half (e / 2) 0 (e % 2)
  else g.half (e / 4) (e % 4 / 2) (e % 2)

/-- The 32 random bits of element `e` for VRANDM (R122). -/
def Gen.elemWord (g : Gen) (w e : Nat) : Nat :=
  if w = 32 then g.word e 0
  else if w = 16 then g.word (e / 2) (e % 2)
  else g.word (e / 4) (e % 4)

/-- A generator after the draws of `n` elements of a tile: one for every 1,024 (R196). -/
def Gen.after (g : Gen) (n : Nat) : Gen := { g with draw := (g.draw + n / 1024) % 2 ^ 48 }

/-- Random bits of element `e` of a draw of 1,024 elements of a tile (R196). -/
def Gen.tileBits (g : Gen) (e : Nat) : Nat := g.half (e % 128) (e / 128 / 2) (e / 128 % 2)

/-- The exact sum of some values, +0 for an exact zero (R118). -/
def exactSum (vs : List Val) : Val :=
  match vs.foldl Val.add (.fin false 0 0) with
  | .fin _ 0 _ => .fin false 0 0
  | v => v

/-- VRSUM and VRSSQ of float elements (R118): FP32 code. -/
def floatSum (sq : Bool) (f : Fmt) (rnd : Rnd) (r : Nat) (codes : List Nat) : Nat :=
  let vs := codes.map (fun c => let v := f.decode c; if sq then v.mul v else v)
  let s := if vs.any (fun v => v = .nan) || (vs.any (fun v => v = .inf true) && vs.any (fun v => v = .inf false))
    then .nan else exactSum vs
  Fmt.fp32.finish s.exact rnd r

/-- VRSUM and VRSSQ of integer elements (R118): the exact sum. -/
def intSum (sq : Bool) (f : Fmt) (codes : List Nat) : Int :=
  codes.foldl (fun acc c => let x := signedOf f.width c; acc + (if sq then x * x else x)) 0

/-- VRMAX (`up` false) and VRMIN of (index, code) pairs: value and index written to Sd and Sd + 1 (R119). -/
def rankFirst (f : Fmt) (up : Bool) (xs : List (Nat × Nat)) : Nat × Nat :=
  match ranked f up xs with
  | p :: _ => (canonCode f p.2, p.1)
  | [] =>
    (if f.isFloat then f.infCode (!up) else f.intEnd (!up), 0xFFFFFFFF)

/-- FP32 rounding of a value to nearest, as a value (R125 rn). -/
def rn (v : Val) : Val := Fmt.fp32.decode (Fmt.fp32.finish v.exact .near 0)
/-- FP32 rounding of a result that is no dyadic number. -/
def rnR (v : Rslt) : Val := Fmt.fp32.decode (Fmt.fp32.finish v .near 0)

/-- The FP32 conversion of VADAMW: to the moments' BF16 and to the compute copy (R125). -/
def adamConv (dst : Fmt) (rnd : Rnd) (sat : Bool) (q : W32) : Conv :=
  { dst := dst, block := false, rnd := rnd, sat := sat, ovf := false, p := 0x3F800000, q := q, gridS := none,
    gridD := none }

/-- One element's result of VADAMW: θ, the moments lane, the copy if any, the record. -/
structure AdamOut where
  theta : Nat
  moments : Nat
  copy : Option Nat
  ra : Amax
  deriving DecidableEq, Repr

/-- The update of one parameter (R125). `sc` are the eleven scalars Sb to Sb + 10, `rm` and `rv` the random bits. -/
def adamElem (o : VAdamOp) (sc : List W32) (theta g lane rm rv : Nat) (ra : Amax) : AdamOut :=
  let s (i : Nat) : Val := Fmt.fp32.decode (sc.getD i 0).toNat
  let d := Fmt.fp32.decode
  let copyOf (t : Nat) (a : Amax) : Option Nat × Amax :=
    match o.fmtC with
    | none => (none, a)
    | some f =>
      let (c, a) := (adamConv f .near o.satc (sc.getD 10 0)).elem ⟨d t, false⟩ 0 0 a
      (some (c.getD 0), a)
  let gs := (d g).mul (s 9)
  if o.skipnf && !gs.isFin then
    let ra := if gs = .nan then ra.addNan else ra.addInf
    let (c, ra) := copyOf theta ra
    ⟨theta, lane, c, ra⟩
  else
    let m := Fmt.bf16.decode (lane % 2 ^ 16)
    let v := Fmt.bf16.decode (lane / 2 ^ 16)
    let m1 := rn (((s 2).mul m).add ((s 3).mul gs))
    let v1 := rn (((s 4).mul v).add (((s 5).mul gs).mul gs))
    let sq := rnR (rn (v1.mul (s 7))).sqrt
    let den := rn (sq.add (s 8))
    let upd := rnR ((rn (m1.mul (s 6))).div den)
    let th := Fmt.fp32.finish (((s 1).mul (d theta)).add ((s 0).mul upd).neg).exact .near 0
    let mom (x : Val) (r : Nat) : Nat := ((adamConv .bf16 o.rndm true 0x3F800000).elem ⟨x, false⟩ 0 r Amax.zero).1.getD 0
    let (c, ra) := copyOf th ra
    ⟨th, mom m1 rm + 2 ^ 16 * mom v1 rv, c, ra⟩

end Sys2Proof
end

