-- ==== Sys2Proof/Machine/CoreState.lean ====
section
/-! DEFINITION. The state of one core (01:R20, R21; 03:R61 to R63, R396; 05:R101; 06:R127; 08:R187, R188), the
instructions in flight as dated micro-operations (log 7), the bundle being assembled or held (log 6) and the tokens
in the core's synchroniser (06:R139). -/
namespace Sys2Proof.Machine

/-- CORE_STATUS.STATE (06 registers). -/
inductive CoreSt where
  | idle | running | held | standby | preempted | faulted | halted
  deriving DecidableEq, Repr

def CoreSt.code : CoreSt → Nat
  | .idle => 0 | .running => 1 | .held => 2 | .standby => 3 | .preempted => 4 | .faulted => 5 | .halted => 6

/-- An active loop: first and last bundle of its body and the remaining count (R127, R397). -/
structure LoopEntry where
  first : Nat
  last : Nat
  remaining : Nat
  deriving DecidableEq, Repr

/-- A cue (R127). `buf` is the stream buffer (context, buffer) whose CRET armed it, none for CARM. -/
structure Cue where
  armed : Bool := false
  ddl : Nat := 0
  pol : Nat := 0
  vis : Bool := false
  aband : Bool := false
  buf : Option (Nat × Nat) := none
  deriving DecidableEq, Repr

/-- A stand-by slot (R127). -/
structure SbSlot where
  armed : Bool := false
  entry : Nat := 0
  deriving DecidableEq, Repr

/-- A stationary plane (R63, R64, R396): its format, and its element codes and their block codes by k × 128 + n. -/
structure Plane where
  fmt : Fmt := .bf16
  cells : Tab Nat := []
  scales : Tab Nat := []
  deriving DecidableEq, Repr

/-- The kinds of token (R139, R140): a fill credit, a CPOST, a die-controller or tag-completion cue. -/
inductive TokKind where
  | fill | post | other
  deriving DecidableEq, Repr

def TokKind.rank : TokKind → Nat
  | .fill => 0 | .post => 1 | .other => 2

/-- A token (R139). A fill credit names its context and buffer and whether the fill was abandoned (R200), and carries the
count of buffers that it credits (01:R29). -/
structure Token where
  kind : TokKind
  cue : Nat
  ddl : Nat
  ctx : Nat
  buf : Nat
  stale : Bool
  count : Nat := 1
  deriving DecidableEq, Repr

/-- STATE of a stream context (R188). -/
inductive CtxSt where
  | idle | run | waitBuf | waitArm | waitExt | done | fault
  deriving DecidableEq, Repr

def CtxSt.code : CtxSt → Nat
  | .idle => 0 | .run => 1 | .waitBuf => 2 | .waitArm => 3 | .waitExt => 4 | .done => 5 | .fault => 6

/-- What an outstanding stream request does (R193): it fills, reads or accumulates from a buffer, or fetches a word. -/
inductive OutKind where
  | get | getu | put | racc | word | xfer
  deriving DecidableEq, Repr

/-- A request that a context has outstanding (R193): its identity, kind, buffer, and whether it converts. -/
structure OutReq where
  id : Nat
  kind : OutKind
  buf : Nat
  conv : Bool
  deriving DecidableEq, Repr

/-- A stream context (R188): ST0 to ST15 as fields, and the requests it has outstanding (R193). -/
structure SCtx where
  st : CtxSt := .idle
  pol : Nat := 0
  gs : Nat := 0
  wtier : Nat := 0
  fkind : Nat := 0
  pc : Nat := 0
  held : Nat := 0
  abnd : Nat := 0
  nbuf : Nat := 0
  cur : Nat := 0
  nbank : Nat := 0
  bank0 : Nat := 0
  /-- Cues recorded for buffers 0 to 7, six bits each. -/
  cues : Tab Nat := []
  armed : Nat := 0
  base : Nat := 0
  list : Nat := 0
  a : Tab W32 := []
  cvr : Amax := {}
  outs : List OutReq := []
  /-- The A register that an LDA waits to load (R192). -/
  ldaTo : Nat := 0
  deriving DecidableEq, Repr

/-- A dated micro-operation of an instruction in flight (log 7). -/
inductive Micro where
  /-- A scalar result lands (R134). -/
  | sreg (r : Fin 32) (v : W32)
  /-- Bits of a vector register land (R105). -/
  | vreg (r : Fin 32) (mask val : VReg)
  | mreg (r : Fin 8) (mask val : MReg)
  | vlen (n : Nat)
  | genSet (g : Fin 16) (field : Nat) (v : Nat)
  | bind (arr : Nat) (g : Fin 16)
  | c0 (arr : Nat) (v : W32)
  /-- Bytes reach stage memory. -/
  | store (runs : List (Nat × List Byte))
  /-- The end of an HLOAD's reading, with what its bytes gave at issue and after each store to them (R65, log 9). -/
  | loadEnd (d : HloadD) (seen : List Plane)
  | plane (k : Nat) (p : Plane)
  /-- An input row of an HMUL is read (R73). -/
  | mulRow (d : HmulD) (j : Nat) (row : Nat) (late : Nat)
  /-- Its sums are accumulated. -/
  | accAdd (arr row mode : Nat) (sums : List RowSum)
  /-- A source row of a PRELOAD is read, for `n` rows from `row` (R75). -/
  | preRow (d : PreloadD) (i row : Nat)
  | accSet (arr row first : Nat) (ws : List W64)
  | saveRow (d : HsaveD) (m arr i row : Nat)
  | restWords (d : HsaveD) (m arr i row q : Nat)
  /-- A drain row: accumulator read, element-wise, derivative, conversion (R78). -/
  | drainRead (d : HdrainD) (p q : W32) (grid : Int) (c0 : W32) (g : Fin 16) (i row : Nat)
  | drainEw (d : HdrainD) (p q : W32) (grid : Int) (c0 : W32) (g : Fin 16) (i : Nat) (xs : List DVal)
  | drainDer (d : HdrainD) (p q : W32) (grid : Int) (c0 : W32) (g : Fin 16) (i : Nat) (xs : List DVal)
  | drainCvt (d : HdrainD) (p q : W32) (grid : Int) (g : Fin 16) (i : Nat) (xs : List DVal)
  /-- A conversion enters a record: drain ports 0 and 1, then VX0 to VX3 as 2 to 5 (R57). -/
  | recAdd (k : Nat) (a : Amax)
  | recRead (k : Nat) (clr : Bool) (dst : Nat)
  /-- The banks of a buffer pass to the stream at the end of a CRET's cycle (R191). -/
  | passBank (ctx buf : Nat)
  deriving DecidableEq, Repr

/-- A micro-operation with its key (core cycle × 8 + phase), its instruction's issue number and bundle. -/
structure Pend where
  key : Nat
  seq : Nat
  bundle : Nat
  op : Micro
  deriving DecidableEq, Repr

/-- An array instruction's accesses, for the interlock (R82, R83). -/
inductive ArrAcc where
  | load (arr plane h : Nat)
  | mul (arr plane c first rows : Nat) (dbl : Bool)
  | pre (arr p first rows : Nat)
  | rest (arr a first rows : Nat)
  | drain (arr d first rows : Nat)
  | save (arr a first rows : Nat)
  deriving DecidableEq, Repr

/-- A bundle held at a CWAIT (R141, R143): its slots and index, the cycle of its failed issue, the slip kind so far,
and whether nothing was in flight at the failed issue (R152). -/
structure Held where
  slots : List Instr
  ptr : Nat
  miss : Nat
  kind : Nat
  clear : Bool
  deriving DecidableEq, Repr

/-- What a core tells the rest of the device: events that leave the core's own state. -/
inductive CMsg where
  | post (dest cue ddl : Nat)
  | fault
  | halted
  | preempted
  | under (scyc cue ctx : Nat)
  deriving DecidableEq, Repr

/-- What the launch a core runs tells the core (06:R143, R144, R150, R152, R156). -/
structure CEnv where
  core : Nat
  und : Bool
  full : Bool
  replay : Bool
  /-- The CWAITs (cue, script cycle) at which a replayed launch takes the understudy. -/
  marks : List (Nat × Nat)
  stall : Nat
  preempt : Bool
  stop : Bool
  deriving DecidableEq, Repr

/-- One logical core. -/
structure Core where
  st : CoreSt := .idle
  s : Tab W32 := []
  bptr : Nat := 0
  loops : List LoopEntry := []
  scyc : Nat := 0
  offset : Nat := 0
  cues : Tab Cue := []
  sby : Tab SbSlot := []
  use : BitVec 64 := 0
  /-- Script store: bundles, descriptors, and their counts (R127). -/
  script : Mem := []
  descs : Mem := []
  nBundles : Nat := 0
  nDescs : Nat := 0
  /-- Stream store and its count (R187). -/
  stream : Mem := []
  nStream : Nat := 0
  stage : Mem := []
  /-- Planes by array × 2 + plane. -/
  planes : Tab Plane := []
  /-- Accumulator words by array × 65536 + row × 128 + column (R61). -/
  acc : Tab W64 := []
  /-- Amax records: drain ports 0 and 1, VX0 to VX3 (R63, R101). -/
  recs : Tab Amax := []
  /-- C0 of each array; an unlisted one reads 1.0 (R96). -/
  c0 : Tab W32 := []
  v : Tab VReg := []
  m : Tab MReg := []
  vlen : Nat := 0
  gs : Tab Gen := []
  bind0 : Fin 16 := 14
  bind1 : Fin 16 := 15
  faultKind : Nat := 0
  faultBundle : Nat := 0
  slipEvents : Nat := 0
  slipCycles : Nat := 0
  slipKind : Nat := 0
  slipArr : Nat := 0
  slipHold : Nat := 0
  misses : Nat := 0
  standbyRuns : Nat := 0
  understudyUses : Nat := 0
  stale : Nat := 0
  sfKind : Nat := 0
  sfCtx : Nat := 0
  sfPc : Nat := 0
  remap0 : W32 := 0x80818081
  remap1 : W32 := 0x80818081
  ctxs : Tab SCtx := []
  /-- The context last served by the stream engine (R193). -/
  served : Nat := 127
  /-- The model's own: core cycle since launch, issue number, free-value counter (log 7, log 8). -/
  now : Nat := 0
  seq : Nat := 0
  fresh : Nat := 0
  flight : List Pend := []
  accs : List ArrAcc := []
  /-- The script cycle by which what the main script has issued completes when nothing is held (R152). -/
  busy : Nat := 0
  /-- Planes (array × 2 + plane) that an HLOAD of this launch has loaded (R396). -/
  loaded : List Nat := []
  /-- The bundle being assembled from its slots (log 6). -/
  bundle : List Instr := []
  heldAt : Option Held := none
  /-- Running stand-by segment: its slot, and whether the 24 switch cycles have still to run out (R145). -/
  seg : Option (Nat × Bool) := none
  /-- Core cycles counted under STALL in the launch (R144). -/
  stalled : Nat := 0
  toks : List Token := []
  msgs : List CMsg := []
  deriving DecidableEq, Repr

/-- A core as a power-up leaves it (log 4). -/
def Core.init : Core := {}

/-- An FP32 1.0. -/
def one32 : W32 := 0x3F800000

def Core.sget (c : Core) (r : Nat) : W32 := Tab.get 0 c.s r
def Core.sset (c : Core) (r : Nat) (v : W32) : Core := { c with s := Tab.set 0 c.s r v }
def Core.vget (c : Core) (r : Nat) : VReg := Tab.get 0 c.v r
def Core.mget (c : Core) (r : Nat) : MReg := Tab.get 0 c.m r
def Core.cue (c : Core) (k : Nat) : Cue := Tab.get {} c.cues k
def Core.setCue (c : Core) (k : Nat) (x : Cue) : Core := { c with cues := Tab.set {} c.cues k x }
def Core.slot (c : Core) (k : Nat) : SbSlot := Tab.get {} c.sby k
def Core.setSlot (c : Core) (k : Nat) (x : SbSlot) : Core := { c with sby := Tab.set {} c.sby k x }
def Core.plane (c : Core) (arr pl : Nat) : Plane := Tab.get {} c.planes (arr * 2 + pl)
def Core.record (c : Core) (k : Nat) : Amax := Tab.get {} c.recs k
def Core.setRecord (c : Core) (k : Nat) (a : Amax) : Core := { c with recs := Tab.set {} c.recs k a }
def Core.c0Of (c : Core) (arr : Nat) : W32 := Tab.get one32 c.c0 arr
def Core.gen (c : Core) (g : Nat) : Gen := Tab.get {} c.gs g
def Core.setGen (c : Core) (g : Nat) (x : Gen) : Core := { c with gs := Tab.set {} c.gs g x }
def Core.ctx (c : Core) (x : Nat) : SCtx := Tab.get {} c.ctxs x
def Core.setCtx (c : Core) (x : Nat) (y : SCtx) : Core := { c with ctxs := Tab.set {} c.ctxs x y }
def Core.updCtx (c : Core) (x : Nat) (f : SCtx → SCtx) : Core := c.setCtx x (f (c.ctx x))
/-- An accumulator word. -/
def Core.accWordAt (c : Core) (arr row n : Nat) : W64 := Tab.get 0 c.acc (arr * 65536 + row * 128 + n)
/-- The generator bound to a drain port (R123). -/
def Core.bound (c : Core) (arr : Nat) : Fin 16 := if arr = 0 then c.bind0 else c.bind1
/-- A message of the core to the device. -/
def Core.tell (c : Core) (m : CMsg) : Core := { c with msgs := c.msgs ++ [m] }

/-- First and last bank of buffer `b` of a context (R190). -/
def SCtx.firstBank (x : SCtx) (b : Nat) : Nat := x.bank0 + b * (x.nbank + 1)
def SCtx.hasBank (x : SCtx) (b bank : Nat) : Bool :=
  decide (x.firstBank b ≤ bank) && decide (bank < x.firstBank b + (x.nbank + 1))
/-- Whether the context holds a bank (R191). -/
def SCtx.holdsBank (x : SCtx) (bank : Nat) : Bool :=
  (List.range (x.nbuf + 1)).any (fun b => x.held.testBit b && x.hasBank b bank)
def SCtx.cueOf (x : SCtx) (b : Nat) : Nat := Tab.get 0 x.cues b
/-- A bit of a number set or cleared. -/
def setBitN (v i : Nat) (b : Bool) : Nat :=
  if v.testBit i = b then v else if b then v + 2 ^ i else v - 2 ^ i

/-- Whether some stream holds the bank of an address (R21, R142). -/
def Core.streamHolds (c : Core) (addr : Nat) : Bool :=
  c.ctxs.any (fun p => p.2.holdsBank (addr / 0x20000))

/-- The size of stage memory (R20). -/
def stageSize : Nat := 0x800000

end Sys2Proof.Machine
end

