-- ==== Sys2Proof/Machine/State.lean ====
section
/-! DEFINITION. The state of the block: the waiting commands, the 128 cores, the 16 seats, the 16 boxes, the frames of the
memory tiers, the keyring, the requests and contributions in flight, the sessions, and what the house die holds. Plain
data. Each structure cites the rules that give it. -/
namespace Sys2Proof.Machine

/-- A model step never stops by a fault (every fault of the spec is an effect on `State`); no constructor is raised. -/
inductive Fault where
  /-- Raised by no meaning; safe. -/
  | none
  deriving DecidableEq, Repr

/-- Why a command has no meaning. -/
inductive Refusal where
  /-- Raised by the arm of a command that the model does not give a meaning; safe. -/
  | notModelled (mnemonic : String)
  deriving DecidableEq, Repr

/-- A tile map entry (07:R171, R172). `home` is the reserved home of a partner-resident tile (R177); `mapNo` names the
side record that its mapping wrote (log 8); `wlost` a wing whose frame a capacity event took (14:R377); `bare` a mirror tile
that has had no live frame yet (11:R274, log 38). -/
structure Tile where
  st : Nat := 0
  tier : Nat := 0
  wtier : Nat := 0
  wing : Bool := false
  und : Bool := false
  pin : Bool := false
  we : Nat := 0
  utile : Nat := 0
  wframe : Nat := 0
  frame : Nat := 0
  home : Option (Nat × Nat) := none
  mapNo : Nat := 0
  wlost : Bool := false
  bare : Bool := false
  deriving DecidableEq, Repr

/-- A directory entry (07:R162) with the region's rotation mark and CURSOR (12:R307). -/
structure Region where
  tumbler : Nat
  mseat : Nat
  block : Nat
  rot : Bool
  cursor : Nat
  mapNo : Nat
  deriving DecidableEq, Repr

/-- A frame's content (07:R164, R165): payload bytes, side record bytes, and the identity of the subkey set under which
its lines are sealed (12:R302, log 10). `upset` is what a read meets in its lines (12:R304, log 14). -/
structure Frame where
  kid : Nat := 0
  data : Mem := []
  side : Mem := []
  upset : LineOutcome := .good
  deriving DecidableEq, Repr

/-- A tile's bytes on their way: payload and side record. -/
structure TileData where
  data : Mem := []
  side : Mem := []
  deriving DecidableEq, Repr

/-- A keyring slot (12:R299, KW_SLOT). `kid` and `prev` identify its MEMORY subkey sets; `key` is any other kind's key;
`writes` counts WRITE runs (13:R340) and `seals` sealed scene records (11:R279). -/
structure KeySlot where
  st : Nat := 0
  kind : Nat := 0
  gen : Nat := 0
  owner : Nat := 0
  member : Nat := 0
  derived : Bool := false
  key : BitVec 256 := 0
  kid : Nat := 0
  prev : Option Nat := none
  writes : Nat := 0
  seals : Nat := 0
  deriving DecidableEq, Repr

/-- A queued move of the migration engines (07:R180): its tiles not yet taken, and what it serves. -/
structure Move where
  box : Nat
  first : Nat
  count : Nat
  dtier : Nat
  dseat : Nat
  pinAfter : Bool
  unpin : Bool
  /-- The TILE_MOVE operation (session box), if one queued it. -/
  op : Option Nat
  /-- The requeued move of one tile after a write conflict (R182). -/
  again : Bool
  /-- A move home that a lazy restore queued (R177, 11:R282). -/
  homing : Bool
  deriving DecidableEq, Repr

/-- The tile that a seat's queue is moving (07:R181): its move, the tile, and its destination frame. -/
structure Moving where
  move : Move
  tile : Nat
  dtier : Nat
  dframe : Nat
  deriving DecidableEq, Repr

/-- A contribution held before its turn (10:R241): the box, the contribution, and its request if it is this device's. -/
structure HeldContrib where
  c : Contrib
  deriving DecidableEq, Repr

/-- A target tile in an engine's staging store (10:R229): its box, tag and tile number, and what it holds so far. -/
structure Staged where
  box : Nat
  tag : Nat
  tile : Nat
  data : TileData
  deriving DecidableEq, Repr

/-- A seat (01:R14): service, owner and cap (15:R386), counters (07, 10 and 12 registers), migration queue (07:R180),
tile-cache ways (07:R178, most recently used first), and the two halves of its reduction engine's staging store: hold places
and target tiles (10:R229, R241). -/
structure Seat where
  inService : Bool := false
  owner : Option Nat := none
  capW : Nat := 0
  rehearsal : Bool := false
  migDone : Nat := 0
  migSkip : Nat := 0
  migDropLast : Nat := 0
  migDrop : Nat := 0
  hits : Nat := 0
  missCount : Nat := 0
  eccCorr : Nat := 0
  eccUnc : Nat := 0
  redApplied : Nat := 0
  redRefLast : Nat := 0
  redRefused : Nat := 0
  redRetryLast : Nat := 0
  redRetry : Nat := 0
  redClamped : Nat := 0
  moves : List Move := []
  moving : Option Moving := none
  cache : Tab (List Nat) := []
  holds : List HeldContrib := []
  staged : List Staged := []
  deriving DecidableEq, Repr

/-- The words of a script for one core, as the loader accepted them (13:R336). -/
structure CoreImg where
  bundles : Mem
  nBundles : Nat
  descs : Mem
  nDescs : Nat
  stream : Mem
  nStream : Nat
  ctxs : Mem
  nCtxs : Nat
  deriving DecidableEq, Repr

/-- An accepted script (13:R336). -/
structure ScriptImg where
  cores : List CoreImg
  digest : List Byte
  deriving DecidableEq, Repr

/-- A reduction plan entry (10:R231). -/
structure PlanEntry where
  tag : Nat
  op : Nat
  zero : Bool
  order : Bool
  ddev : Nat
  guardBits : Nat
  ncontrib : Nat
  first : Nat
  count : Nat
  wcore : Nat
  wcue : Nat
  fmt : Nat
  devmask : Nat
  ledger : Nat
  grid : Nat
  deriving DecidableEq, Repr

/-- A prefetch list entry (07:R183) and whether it has been queued. -/
structure Prefetch where
  first : Nat
  count : Nat
  stage : Nat
  dtier : Nat
  dseat : Nat
  flags : Nat
  queued : Bool
  deriving DecidableEq, Repr

/-- Where a launch stands: queued, running, ended. -/
inductive LaunchSt where
  | queued | running | sealed | ended
  deriving DecidableEq, Repr

/-- A launch (13:R337, 06:R155): parameters, lists and plan as accepted, epoch it belongs to (11:R265), its highest stage
marker (07:R183), understudy log records written, cores preempted with their images, and its outcome so far. -/
structure Launch where
  num : Nat
  opid : Nat
  slot : Nat
  prio : Nat
  sealing : Bool
  scene : Bool
  under : Bool
  replay : Bool
  lead : Nat
  core0 : Nat
  ncore : Nat
  stall : Nat
  preempt : Nat
  log : Nat
  resAddr : Nat
  rlen : Nat
  plan : List PlanEntry
  pf : List Prefetch
  epoch : Nat
  st : LaunchSt
  /-- Box-local cores of the launch that have halted. -/
  haltedCores : List Nat
  marker : Option Nat
  logged : Nat
  marks : List (Nat × Nat × Nat)
  /-- Final status pending while its cores stop: status, SKIND, SCODE (06:R156, 12:R294, 11:R269). -/
  stop : Option (Nat × Nat × Nat)
  /-- Preempted cores' internal state, by logical core (06:R153). -/
  saved : Tab Core
  deriving DecidableEq, Repr

/-- A target tile of an open tag (10:R243): contributions accepted, the devices whose ADD_ORD contribution has been
accepted or applied, elements limited, and completion. -/
structure TagTile where
  count : Nat := 0
  seen : List Nat := []
  applied : Nat := 0
  sat : Nat := 0
  complete : Bool := false
  deriving DecidableEq, Repr

/-- A tag on this device (10:R233): STATE of RED_TAG, plan entry, grid exponent, step S, launch, tiles, and the
(device, core, cue) that its RACCs named. -/
structure Tag where
  st : Nat := 0
  entry : Option PlanEntry := none
  grid : Int := 0
  s : Nat := 0
  launch : Nat := 0
  done : Nat := 0
  tiles : Tab TagTile := []
  told : List (Nat × Nat × Nat) := []
  deriving DecidableEq, Repr

/-- A registered transfer (13:R339) with the run it has in progress. -/
structure Xfer where
  dir : Nat
  port : Nat
  slot : Nat
  first : Nat
  tiles : Nat
  raddr : Nat
  rkey : Nat
  rqpn : Nat
  rgid : List Byte
  psn : Nat
  image : Nat
  lqpn : Nat
  deriving DecidableEq, Repr

/-- Who a run of a transfer serves (13:R340): an XFER_RUN operation, a stream's XFER, a load or scene change that takes
only its remote object, a shard map, a shared-store take, a restore. -/
inductive RunFor where
  | op (opid : Nat)
  | ctx (core ctx : Nat)
  | shardMap (opid : Nat)
  | load (opid : Nat)
  | scene
  | store (step : Nat)
  | restore
  deriving DecidableEq, Repr

/-- A run in progress or waiting (13:R340, R344): the image header once read, records done, retries. -/
structure Run where
  xid : Nat
  who : RunFor
  started : Bool
  hdr : List Byte
  next : Nat
  retries : Nat
  imageId : Nat
  deriving DecidableEq, Repr

/-- A granted streaming channel (09:R219). -/
structure Chan where
  granted : Bool := false
  active : Bool := false
  tier : Nat := 0
  lo : Nat := 0
  hi : Nat := 0
  rate : Nat := 0
  served : Nat := 0
  deriving DecidableEq, Repr

/-- A shard map entry (09:R217). -/
structure Shard where
  dest : Nat
  first : Nat
  count : Nat
  dev : Nat
  deriving DecidableEq, Repr

/-- A weight load in progress (09:R216 to R218): the map once read, and what is still to write. -/
structure Load where
  opid : Nat
  kind : Nat
  keyslot : Nat
  source : Nat
  xmap : Nat
  entries : Nat
  mapBytes : List Byte
  hdr : List Byte
  /-- Runs still to write: first tile, first record, count. -/
  todo : List (Nat × Nat × Nat)
  written : Nat
  /-- It has written a protected tile (11:R275). -/
  prot : Bool
  deriving DecidableEq, Repr

/-- A layer of a scene change (09:R222). -/
structure Layer where
  dest : Nat
  src : Nat
  count : Nat
  pass : Nat
  deriving DecidableEq, Repr

/-- A scene change (09:R221 to R227): STATE and DONE of MEM_BOX_SCENE, layers, the old set of launches, the snapshot
frames (tile of layer order, tier, frame), and image records written in the current layer. -/
structure Scene where
  st : Nat := 0
  done : Nat := 0
  opid : Nat := 0
  srcKind : Nat := 0
  keyslot : Nat := 0
  source : Nat := 0
  layers : List Layer := []
  old : List Nat := []
  snap : List (Nat × Nat × Nat) := []
  hdr : List Byte := []
  written : Nat := 0
  /-- It has written a protected tile (11:R275). -/
  prot : Bool := false
  deriving DecidableEq, Repr

/-- The curtain configuration (11:R263): the protected runs (first region, count) with the rest of its parameters. -/
structure CurtainCfg where
  p : Nat
  f : Nat
  s : Nat
  runs : List (Nat × Nat)
  steprec : Nat
  mbase : Nat
  mtumbler : Nat
  mtier : Nat
  restore : Bool
  batch : Nat
  timeout : Nat
  xstore : Nat
  skey : Nat
  map : List Nat
  deriving DecidableEq, Repr

/-- A step record (11:R260 to R262): data position and counter table, entry c × 16 + g (KEY, SID, STEP, DRAW). -/
structure StepRec where
  epoch : Nat := 0
  step : Nat := 0
  dstep : Nat := 0
  sample : Nat := 0
  batch : Nat := 0
  flags : Nat := 0
  gens : Tab Gen := []
  deriving DecidableEq, Repr

/-- A scene record (11:R279) as taken: header fields, the key that seals it, and its tiles in list order. -/
structure SceneRec where
  epoch : Nat
  recordId : Nat
  step : Nat
  runs : List (Nat × Nat)
  device : Nat
  groupSize : Nat
  key : BitVec 256
  tiles : List TileData
  deriving DecidableEq, Repr

/-- A local record in flash (11:R276): its frames of flash, whether its take is complete and committed across the group,
and the box that wrote it (none once retained). -/
structure LocalRec where
  rec0 : SceneRec
  complete : Bool
  committed : Bool
  box : Option Nat
  deriving DecidableEq, Repr

/-- A restore in progress (11:R281 to R283): parameters, tiles still to write, the record's header bytes. -/
structure Restore where
  opid : Nat
  src : Nat
  dpos : Bool
  lostOnly : Bool
  lazy : Bool
  step : Nat
  dstep : Nat
  sample : Nat
  xsrc : Nat
  todo : List (Nat × Nat)
  written : Nat
  hdr : List Byte
  /-- Record tags read so far, by record index, and the tiles of a scene record that wait for all of it to verify (11:R280). -/
  tags : Tab (List Byte)
  held : List (Nat × TileData) := []
  deriving DecidableEq, Repr

/-- An import awaiting its replay check (11:R285, R286). -/
structure Import where
  tol : Int
  ref : Nat
  loss : Nat
  deriving DecidableEq, Repr

/-- The rekey walker of a box (12:R307 to R309, KW_REKEY registers), and the rotations it has to complete: slot,
operation, tiles walked. -/
structure Rekey where
  active : Bool := false
  halted : Bool := false
  slot : Nat := 0
  gen : Nat := 0
  region : Nat := 0
  cursor : Nat := 0
  jobs : List (Nat × Nat × Nat) := []
  deriving DecidableEq, Repr

/-- An approval (12:R321). -/
structure Approval where
  member : Nat
  kind : Nat
  xfer : Nat
  limit : Nat
  object : List Byte
  deriving DecidableEq, Repr

/-- The alarm record (12:R306): cause, seat, tier, time, tile, line, unit of the first alarm, and the count. -/
structure Alarm where
  cause : Nat
  seat : Nat
  tier : Nat
  time : Nat
  tile : Nat
  line : Nat
  unit : Nat
  deriving DecidableEq, Repr

/-- A group binding (13:R345). -/
structure Binding where
  lead : Nat
  size : Nat
  leadBox : Nat
  leadPk : List Byte
  deriving DecidableEq, Repr

/-- What the lead holds for the open epoch (11:R268, R286): READY and failure reports, SEAL acceptance, outcome sent. -/
structure LeadSt where
  ready : List Nat := []
  failed : List Nat := []
  sealAt : Bool := false
  decided : Bool := false
  localReports : List (Nat × Nat) := []
  storeReports : List (Nat × Nat) := []
  deriving DecidableEq, Repr

/-- A box (12:R288 to R294): BOX_OPEN's parameters, keys, memory map, curtain, launches and everything in progress. -/
structure Box where
  st : Nat := 0
  frozen : Bool := false
  expert : Bool := false
  seats : BitVec 16 := 0
  /-- The seats at the opening, whose keyring slots the box keeps until it closes (12:R298). -/
  keySeats : BitVec 16 := 0
  flashq : Nat := 0
  models : BitVec 64 := 0
  channels : Nat := 0
  members : Nat := 0
  released : BitVec 8 := 0
  caps : List Nat := []
  pks : List (List Byte) := []
  /-- Identity of the box's ML-KEM key pair (12:R291). -/
  kem : Option Nat := none
  openedAt : Nat := 0
  openOp : Nat := 0
  closeOp : Option Nat := none
  debugged : Bool := false
  rehearsal : Bool := false
  alarm : Option Alarm := none
  alarms : Nat := 0
  thermCount : Nat := 0
  thermLast : Option Nat := none
  regions : Tab (Option Region) := []
  tiles : Tab Tile := []
  /-- Moves home of a lazy restore that no queue has had room for yet: tile, destination tier and seat (11:R282). -/
  homeDue : List (Nat × Nat × Nat) := []
  openE : Nat := 0
  resolvedE : Nat := 0
  closed : Bool := false
  step : Nat := 0
  curtain : Option CurtainCfg := none
  cst : Nat := 0
  last : Nat := 0
  partner : Nat := 0
  cause : Nat := 0
  mirrorStep : Option Nat := none
  localStep : Option Nat := none
  storeStep : Option Nat := none
  /-- The committed step record, and the one written as a wing at the seal (11:R262). -/
  stepRec : StepRec := {}
  wingRec : Option StepRec := none
  /-- Epochs that the device has resolved, newest first, each with whether it was closed (11:R271). -/
  history : List (Nat × Bool) := []
  /-- It was READY when it lost its lead: CURTAIN_RESOLVE alone supplies the epoch's outcome (11:R270). -/
  orphan : Bool := false
  /-- The mirror held here has had its whole base (11:R272, R275). -/
  mirrorBase : Bool := false
  /-- A tag that a launch of the open epoch opened has failed (10:R248, 11:R267). -/
  tagFailed : Bool := false
  /-- Mirror tiles that the partner has still to acknowledge (11:R267), and the base mirror's progress (R275). -/
  mirrorLeft : Nat := 0
  baseSent : Nat := 0
  baseOp : Option Nat := none
  /-- A local take that is due with the frames it reads (11:R276), and a shared-store take (11:R277). -/
  takeDue : Option (Nat × Nat × List (Nat × Nat × Nat)) := none
  storeDue : Option Nat := none
  storeHalf : Bool := false
  takeReject : Bool := false
  /-- An outcome that waits for the epoch's launches to stop: discard's cause and whether every device passed (R269). -/
  outcome : Option (Nat × Bool) := none
  imp : Option Import := none
  impPassed : Option Bool := none
  restore : Option Restore := none
  launches : List Launch := []
  launched : Nat := 0
  tags : Tab Tag := []
  scripts : Tab (Option ScriptImg) := []
  xfers : Tab (Option Xfer) := []
  runs : List Run := []
  chans : Tab Chan := []
  scene : Scene := {}
  loading : List Load := []
  loads : List (Nat × List Byte) := []
  digests : List (List Byte) := []
  approvals : List Approval := []
  rekey : Rekey := {}
  binding : Option Binding := none
  lead : LeadSt := {}
  /-- Markers sent to the migration engines and not yet taken (08:R203): launch number and stage. -/
  markers : List (Nat × Nat) := []
  /-- BOX_DEBUG images still to be written: operation, OUT, cores left (14:R367). -/
  debugJob : Option (Nat × Nat × List Nat) := none
  /-- All-device commands reserved for the lead's COMMIT (13:R346): OPID, opcode, parameters. -/
  reserved : List (Nat × Nat × List Byte) := []
  deriving DecidableEq, Repr

/-- What a stream request does when it is served (08:R193). -/
inductive ReqOp where
  | get (o : GetOp) (u : Bool) (buf : Nat) (gen : Gen)
  | put (o : PutOp) (buf : Nat) (q : W32) (comp : Nat) (gen : Gen)
  | lda (addr : Nat)
  | rearm (addr : Nat)
  | racc (k : Nat)
  deriving DecidableEq, Repr

/-- Where a request stands: waiting for translation, held at its controller (09:R224, 10:R244), served, bus error. -/
inductive ReqSt where
  | waiting | held | served | failed
  deriving DecidableEq, Repr

/-- A request at the memory controllers (07:R173): its context, tile, what it brought, and the frames it translated to.
`on` is the tile at whose controller it is held, `others` what other contexts' writes left in its tiles while it waited
(08:R206), and `chans` the streaming channels that bound it when it was issued (09:R219). -/
structure Req where
  core : Nat
  ctx : Nat
  /-- The index of its instruction in the stream store. -/
  pc : Nat
  box : Nat
  launch : Nat
  tile : Nat
  wing : Bool
  noalloc : Bool
  op : ReqOp
  st : ReqSt
  got : TileData
  /-- The companion tile's payload, for scales (07:R166). -/
  comp : Mem
  word : Nat
  uses : List (Nat × Nat)
  on : Nat := 0
  others : List (Nat × TileData) := []
  chans : List Nat := []
  deriving DecidableEq, Repr

/-- A contribution of this device that an engine has not accepted (10:R230, R233): the device of the engine (none for this
one), the request it belongs to, and whether it has been returned for retry. -/
structure Flight where
  c : Contrib
  dev : Option Nat
  req : Nat
  retry : Bool
  deriving DecidableEq, Repr

/-- An event of a session (13:R333, 14:R378). -/
structure Event where
  code : Nat
  seat : Nat
  time : Nat
  deriving DecidableEq, Repr

/-- An operation (13:R331 to R333, R335). -/
structure Op where
  opid : Nat
  opcode : Nat
  ostatus : Nat
  skind : Nat
  scode : Nat
  progress : Nat
  result : Nat
  sec0 : List Byte
  /-- The command's parameters, for an operation that needs them when it completes (ATTEST, SELFTEST). -/
  arg : List Byte
  /-- Launch number of a LAUNCH operation, whose sections lie in the box's range (13:R337). -/
  launch : Option Nat
  /-- Status records of the other devices' parts, at the lead (13:R346). -/
  parts : List (Nat × OpRecord)
  /-- Devices that a group operation concerns, itself excepted, and the devices yet to report. -/
  waitDevs : List Nat
  refused : Bool
  deriving DecidableEq, Repr

/-- A reply (13:R323, R329): header fields, status, DEV, RFLAGS, OPID, parameters in clear, and the key that seals them (none
for a public one); the port it leaves by, the address and port it goes to, and the port it comes from. -/
structure Reply where
  port : Nat
  box : Nat
  seq : Nat
  opcode : Nat
  target : Nat
  frag : Nat
  status : Nat
  dev : Nat
  rflags : Nat
  opid : Nat
  params : List Byte
  key : Option (BitVec 256)
  addr : List Byte := []
  udp : Nat := 0
  sport : Nat := 0x125C
  deriving DecidableEq, Repr

/-- A fragment assembly (13:R327): SEQ, opcode, fragments received (index, share), the last index once known. -/
structure Assembly where
  seq : Nat
  opcode : Nat
  parts : Tab (List Byte)
  lastFrag : Option Nat
  deriving DecidableEq, Repr

/-- A session (13:R326, R327, R332, R333): window, stored replies, assembly, operations, unread events, and the latched
upper halves of the register pairs (06, 11 registers). -/
structure Session where
  h : Nat := 0
  seen : List Nat := []
  replies : List Reply := []
  asm : Option Assembly := none
  ops : List Op := []
  count : Nat := 0
  events : List Event := []
  latch : Tab Nat := []
  deriving DecidableEq, Repr

/-- A command forwarded to another device (13:R346), waiting for its reply. -/
structure Forwarded where
  box : Nat
  opid : Nat
  hdr : Hdr
  opcode : Nat
  params : List Byte
  deriving DecidableEq, Repr

/-- A fabric port (13:R349 to R351, R312): STATE, lane condition, peer, discards, the exchange of its link keys, the key of each
direction, and frame counts. -/
structure FabPort where
  st : Nat := 0
  spare : Nat := 0
  lane0 : Nat := 0
  lane1 : Nat := 0
  peer : Nat := 0
  peerPk : List Byte := []
  peerTest : Bool := false
  discard : Nat := 0
  keyId : Nat := 0
  keyOut : BitVec 256 := 0
  keyIn : BitVec 256 := 0
  frames : Nat := 0
  resent : Nat := 0
  paused : Bool := false
  deriving DecidableEq, Repr

/-- A host or management port (13:R342, R343). -/
structure EthPort where
  up : Bool := false
  secured : Bool := false
  cak : Bool := false
  drop : Nat := 0
  sak : BitVec 256 := 0
  oldSak : BitVec 256 := 0
  an : Nat := 0
  pn : Nat := 0
  /-- The association before it, kept until another replaces it: its number and packet number (13:R354). -/
  oldAn : Option Nat := none
  oldPn : Nat := 0
  sakAsked : Bool := false
  plugged : Bool := true
  lowPower : Bool := false
  congested : Nat := 0
  deriving DecidableEq, Repr

/-- A feed (15:R381, R382). -/
structure Feed where
  fid : Nat := 0
  present : Bool := false
  openSw : Bool := false
  volt : Nat := 0
  deriving DecidableEq, Repr

/-- A firmware image in a slot (14:R368). -/
structure Firmware where
  digest : List Byte
  svn : Nat
  good : Bool
  deriving DecidableEq, Repr

/-- An installed model (09:R215): its image, sealed to the installation key. -/
structure Model where
  bytes : List Byte
  deriving DecidableEq, Repr

/-- A life-cycle transition whose wipe is running (14:R360, R362): k, FROM, TO, and the operation if one asked for it. -/
structure Transition where
  k : Nat
  src : Nat
  dst : Nat
  op : Option Nat
  deriving DecidableEq, Repr

/-- The house die and the module (chapters 12 to 15). -/
structure Dev where
  /-- Rails on (15:R384). -/
  on : Bool := false
  dstate : Nat := 0
  phase : Nat := 0
  msChange : Nat := 0
  refs : List Bool := [true, true]
  /-- Physical cores in use, bit c of entry d set when unused (BUP_CORE_MAP). -/
  coreMap : Tab Nat := []
  /-- Latch bank (14:R357, R358): data and check bits of its physical rows, the spare ones from 0x400 on, and each spare row in
  use with the row it replaces. -/
  rows : Tab (BitVec 256) := []
  rowChecks : List (Nat × BitVec 32) := []
  spareRows : List (Nat × Nat) := []
  /-- Cells of physical rows that read wrong, now and as B0 last read the bank (14:R358). -/
  rowFaults : Tab (BitVec 288) := []
  rowSeen : Tab (BitVec 288) := []
  resolved : Bool := false
  tapUnlock : Bool := false
  tapDebug : Bool := false
  probe : Bool := false
  badTokens : Nat := 0
  trans : Option Transition := none
  /-- B2 has ended and a resolution's wipe runs (14:R362). -/
  waitWipe : Bool := false
  /-- Settings store (14:R372): values, writes to the current cell, registers in spare cells, frozen ones, cells taken. -/
  nvs : Tab W32 := []
  nvsWrites : Tab Nat := []
  nvsMoved : List Nat := []
  nvsFrozen : List Nat := []
  nvsCells : Nat := 0
  nvsLoaded : Bool := false
  /-- CAKs, sealed, by port (13:R343). -/
  caks : Tab (BitVec 256) := []
  fw : Tab (Option Firmware) := []
  active : Nat := 0
  fallback : Bool := false
  staging : Mem := []
  stageLen : Nat := 0
  /-- Key warden: last key identity drawn, management session key, MEK pair and INFO nonce (13:R352). -/
  kids : Nat := 0
  mgtKey : Option (BitVec 256) := none
  mek : Option Nat := none
  mekNonce : List Byte := []
  keyReady : Bool := false
  eth : Tab EthPort := []
  ethDrop : Nat := 0
  authFail : Nat := 0
  fab : Tab FabPort := []
  lostPeers : List Nat := []
  forwarded : List Forwarded := []
  feedA : Feed := {}
  feedB : Feed := {}
  sag : Bool := false
  therm : Bool := false
  loss : Bool := false
  tripped : Bool := false
  sagCount : Nat := 0
  sagLast : Option Nat := none
  /-- Feed codes of each box's partner device, as the group last told them (11:R264). -/
  partnerFid : Tab (Nat × Nat) := []
  /-- Spare inventory (14:R375, R379): used and lost, by class 1 to 9. -/
  spUsed : Tab Nat := []
  spLost : Tab Nat := []
  railsGone : List Nat := []
  sensorsGone : List Nat := []
  /-- Array rows and columns that have failed since bring-up: core, array, whether a column, physical line (14:R375). -/
  linesGone : List (Nat × Nat × Bool × Nat) := []
  halfSpokes : List Nat := []
  flashRo : Bool := false
  store : Tab (Option Model) := []
  /-- A model that is being installed (09:R215): operation, number, image, and whether it is being written. -/
  installing : Option (Nat × Nat × Model × Bool) := none
  retained : List LocalRec := []
  /-- A self-test in progress: session and OPID of its operation, and the seats (14:R367). -/
  selftest : Option (Nat × Nat × BitVec 16) := none
  deriving DecidableEq, Repr

/-- What the device has sent (log 17). -/
inductive Out where
  | reply (r : Reply)
  /-- READY (11:R267) or a failure report in its place (R286). -/
  | ready (box step epoch : Nat)
  | importFailed (box step epoch : Nat)
  /-- The lead's outcome to a device: CLOSE, or a discard with its cause (11:R268). -/
  | closeTo (box dev step epoch : Nat)
  | discardTo (box dev epoch cause : Nat) (allPassed : Bool)
  | alarmReport (box : Nat)
  | mirrorTile (box epoch j : Nat) (last : Bool) (t : TileData)
  | mirrorAck (box epoch : Nat)
  /-- A mirror wing found no free frame (11:R275). -/
  | mirrorFull (box epoch : Nat)
  /-- A SCENE_RESTORE has completed (11:R275), and a box has closed (12:R293), as the management channel tells. -/
  | restored (box : Nat)
  | boxClosed (box : Nat)
  | localTaken (box step : Nat)
  | localCommitTo (box dev step : Nat)
  | storeTaken (box step : Nat)
  | storeCommitTo (box dev step : Nat)
  | heartbeat
  | launchFailed (box epoch cause : Nat)
  | contribution (dev : Nat) (c : Contrib)
  /-- A tag completion, with its bucket tag (01:R29, 10:R245). -/
  | tagToken (dev core cue tag : Nat)
  | retryBack (c : Contrib)
  | refuseBack (c : Contrib)
  | rdmaRead (box xid record : Nat)
  /-- A RoCEv2 write of a record or header of the object that begins at a remote address (11:R277; 13:R340). -/
  | rdmaWrite (box xid base record : Nat) (bytes : List Byte)
  | forward (dev box opid opcode : Nat) (params : List Byte)
  | forwardReply (dev box opid seq status : Nat) (params : List Byte)
  | commitTo (dev box opid : Nat)
  | cancelTo (dev box opid : Nat)
  | statusTo (dev box opid : Nat) (r : OpRecord)
  | echo (port : Nat)
  | sakRequest (port : Nat)
  | resend (port : Nat)
  /-- This device's part of a link's key exchange (12:R312): encapsulation key, ciphertext, certificate, signature. -/
  | linkOffer (port : Nat) (ek ct cert sig : List Byte)
  /-- A congestion notification packet of a box's transfer (13:R344). -/
  | cnp (port box xid : Nat)
  | cell (port seat : Nat)
  deriving DecidableEq, Repr

/-- The machine. `fresh` is the model's own counter for free values (log 8), `ms` the time as last told (log 12), `out`
what has been sent (log 17). -/
structure State where
  /-- Commands that wait, first in, first out (log 1). -/
  pending : List Instr := []
  cores : Tab Core := []
  seats : Tab Seat := []
  boxes : Tab Box := []
  frames : Tab Frame := []
  /-- Frames out of their free pools, by frame key: owner box + 1, or 17 for a frame that no pool gets back (14:R377). -/
  taken : Tab Nat := []
  /-- Released frames that wait for their last reader (07:R173). -/
  releasing : List Nat := []
  ring : Tab KeySlot := []
  reqs : Tab (Option Req) := []
  nextReq : Nat := 0
  flights : Tab (Option Flight) := []
  nextFlight : Nat := 0
  sess : Tab Session := []
  dev : Dev := {}
  fresh : Nat := 0
  ms : Nat := 0
  out : List Out := []
  deriving DecidableEq, Repr

/-- The device as power reaches it, before power-good: every register at its reset value (00:R7 to R9 and the register
tables; logs 4, 5, 8, 12, 17 for what the spec gives no value). -/
def State.reset : State where
  dev := { fw := [(0, some ⟨[], 0, true⟩)] }

end Sys2Proof.Machine
end

