-- ==== Sys2Proof/Machine/Access.lean ====
section
/-! DEFINITION. Reading and writing the parts of the state; boxes, seats and cores (01:R13 to R16); events and
operations (13:R331 to R333, 14:R378). -/
namespace Sys2Proof.Machine

def State.core (s : State) (k : Nat) : Core := Tab.get {} s.cores k
def State.setCore (s : State) (k : Nat) (c : Core) : State := { s with cores := Tab.set {} s.cores k c }
def State.seat (s : State) (k : Nat) : Seat := Tab.get {} s.seats k
def State.setSeat (s : State) (k : Nat) (x : Seat) : State := { s with seats := Tab.set {} s.seats k x }
def State.updSeat (s : State) (k : Nat) (f : Seat → Seat) : State := s.setSeat k (f (s.seat k))
def State.box (s : State) (b : Nat) : Box := Tab.get {} s.boxes b
def State.setBox (s : State) (b : Nat) (x : Box) : State := { s with boxes := Tab.set {} s.boxes b x }
def State.updBox (s : State) (b : Nat) (f : Box → Box) : State := s.setBox b (f (s.box b))
def State.slot (s : State) (k : Nat) : KeySlot := Tab.get {} s.ring k
def State.setSlot (s : State) (k : Nat) (x : KeySlot) : State := { s with ring := Tab.set {} s.ring k x }
def State.session (s : State) (k : Nat) : Session := Tab.get {} s.sess k
def State.setSession (s : State) (k : Nat) (x : Session) : State := { s with sess := Tab.set {} s.sess k x }
def State.updSession (s : State) (k : Nat) (f : Session → Session) : State := s.setSession k (f (s.session k))
def State.req (s : State) (k : Nat) : Option Req := Tab.get none s.reqs k
def State.setReq (s : State) (k : Nat) (r : Option Req) : State := { s with reqs := Tab.set none s.reqs k r }
def State.flight (s : State) (k : Nat) : Option Flight := Tab.get none s.flights k
def State.setFlight (s : State) (k : Nat) (f : Option Flight) : State := { s with flights := Tab.set none s.flights k f }
def State.updDev (s : State) (f : Dev → Dev) : State := { s with dev := f s.dev }
def State.send (s : State) (m : Out) : State := { s with out := s.out ++ [m] }
def State.nvs (s : State) (i : Nat) : W32 := Tab.get (if i = 0 then 0x125C else 0) s.dev.nvs i
def State.eth (s : State) (p : Nat) : EthPort := Tab.get {} s.dev.eth p
def State.updEth (s : State) (p : Nat) (f : EthPort → EthPort) : State :=
  s.updDev fun d => { d with eth := Tab.upd {} d.eth p f }
def State.fab (s : State) (p : Nat) : FabPort := Tab.get {} s.dev.fab p
def State.updFab (s : State) (p : Nat) (f : FabPort → FabPort) : State :=
  s.updDev fun d => { d with fab := Tab.upd {} d.fab p f }
/-- A free-value number that nothing has used (log 8). -/
def State.draw (s : State) : Nat × State := (s.fresh, { s with fresh := s.fresh + 1 })

def Box.tile (b : Box) (t : Nat) : Tile := Tab.get {} b.tiles t
def Box.setTile (b : Box) (t : Nat) (x : Tile) : Box := { b with tiles := Tab.set {} b.tiles t x }
def Box.region (b : Box) (r : Nat) : Option Region := Tab.get none b.regions r
def State.updTile (s : State) (b t : Nat) (f : Tile → Tile) : State :=
  s.updBox b fun x => x.setTile t (f (x.tile t))

/-- The code of a box's state, with bit 7 set when it is frozen (12:R288; 13:R330). -/
def Box.code (b : Box) : Nat := b.st + if b.frozen then 128 else 0
/-- The seats a box holds, rising (12:R289). -/
def Box.seatList (b : Box) : List Nat := (List.range 16).filter (fun k => b.seats.getLsbD k)
/-- The lowest-numbered seat (12:R298); 0 of a box without seats. -/
def Box.seat0 (b : Box) : Nat := b.seatList.headD 0
/-- The seats at the opening, rising, and the lowest of them, whose first slot holds the session key (12:R298). -/
def Box.keyList (b : Box) : List Nat := (List.range 16).filter (fun k => b.keySeats.getLsbD k)
def Box.keySeat0 (b : Box) : Nat := b.keyList.headD 0
/-- The logical cores of a box in rising order: a box-local core is an index here (01:R14, 10:R231). A seat that went
out of service keeps its places (log 42). -/
def Box.coreList (b : Box) : List Nat := b.keyList.flatMap (fun k => (List.range 8).map (fun i => 8 * k + i))
/-- The box that holds a logical core. -/
def State.boxOfCore (s : State) (core : Nat) : Option Nat := (s.seat (core / 8)).owner
/-- The box-local number of a logical core. -/
def Box.localCore (b : Box) (core : Nat) : Nat := b.coreList.findIdx (· == core)

/-- The indices of all boxes. -/
def boxNumbers : List Nat := List.range 16
/-- A fold of the boxes. -/
def State.forBoxes (s : State) (f : State → Nat → State) : State := boxNumbers.foldl f s

/-- ms since a box opened (12:R306). -/
def State.boxMs (s : State) (b : Nat) : Nat := s.ms - (s.box b).openedAt

/-- The session of the management port, and the public senders of a port (13:R332). -/
def mgmt : Nat := 16
def publicOf (port : Nat) : Nat := 17 + port

/-- An event to a session (13:R333). -/
def State.event (s : State) (k code seat : Nat) : State :=
  s.updSession k fun x => { x with events := x.events ++ [⟨code, seat, if k < 16 then s.boxMs k else s.ms⟩] }
/-- An event to the management session and to the boxes that R378 tells. -/
def State.tellEvent (s : State) (code seat : Nat) (told : Nat → Bool) : State :=
  (s.event mgmt code seat).forBoxes fun s b => if (s.box b).st ≠ 0 && told b then s.event b code seat else s

/-- The index and size of the device's group (13:R345, register 0x6F). -/
def State.groupIndex (s : State) : Nat := (s.nvs 0x6F).toNat % 256
def State.groupSize (s : State) : Nat := (s.nvs 0x6F).toNat / 256 % 256
/-- The index and size of a box's group: an unbound box is a group of one (13:R345). -/
def State.boxIndex (s : State) (b : Nat) : Nat := match (s.box b).binding with | some _ => s.groupIndex | none => 0
def State.boxGroup (s : State) (b : Nat) : Nat := match (s.box b).binding with | some g => g.size | none => 1
/-- Whether the device is the lead of a box's group. -/
def State.isLead (s : State) (b : Nat) : Bool :=
  match (s.box b).binding with | some g => g.lead == s.groupIndex | none => true

/-- A session's operation (13:R332). -/
def Session.op (x : Session) (opid : Nat) : Option Op := x.ops.find? (fun o => o.opid == opid)
def Session.updOp (x : Session) (opid : Nat) (f : Op → Op) : Session :=
  { x with ops := x.ops.map (fun o => if o.opid = opid then f o else o) }
def State.updOp (s : State) (k opid : Nat) (f : Op → Op) : State := s.updSession k (fun x => x.updOp opid f)

/-- Slots of operations that a session has (13:R332). -/
def State.opLimit (s : State) (k : Nat) : Nat :=
  if k < 16 then 128 * (s.box k).seatList.length else if k = mgmt then 64 else 16

/-- The next OPID after a count, skipping values still held (13:R332). -/
def nextOpid (ops : List Op) (hi : Nat) : Nat → Nat → Nat
  | 0, n => n
  | fuel + 1, n =>
    let n := if n = 0 then 1 else n
    if ops.any (fun o => o.opid == hi + n) then nextOpid ops hi fuel ((n + 1) % 2 ^ 26) else n

/-- The session whose count of operations names a session's new one, and the operations whose OPIDs it skips: the public
operations of all ports share one count, since an OPID alone names one (13:R332, log 46). -/
def counter (k : Nat) : Nat := min k 17
def State.countedOps (s : State) (k : Nat) : List Op :=
  if k < 17 then (s.session k).ops else [17, 18, 19].flatMap (fun q => (s.session q).ops)
/-- The session that holds a public operation (13:R328, R332). -/
def State.publicHolder (s : State) (opid : Nat) : Option Nat :=
  [17, 18, 19].find? (fun q => (s.session q).ops.any (fun o => o.opid == opid))

/-- The high bits of the OPIDs that the device assigns (13:R332). -/
def State.opidHi (s : State) : Nat := if s.groupSize = 0 then 0 else s.groupIndex

/-- A new operation of a session; none when no slot is free (BUSY). -/
def State.startOp (s : State) (k opcode : Nat) : Option (State × Nat) :=
  let x := s.session k
  if s.opLimit k ≤ x.ops.length then none
  else
    let hi := s.opidHi * 2 ^ 26
    let n := nextOpid (s.countedOps k) hi ((s.countedOps k).length + 1) (((s.session (counter k)).count + 1) % 2 ^ 26)
    let o : Op := ⟨hi + n, opcode, 1, 0, 0, 0, 0, [], [], none, [], [], false⟩
    some ((s.setSession k { x with ops := x.ops ++ [o] }).updSession (counter k) fun y => { y with count := n }, hi + n)

/-- The record that the lead keeps a copy of (13:R346). -/
def Op.record (o : Op) : OpRecord :=
  ⟨BitVec.ofNat 16 o.opcode, BitVec.ofNat 8 o.ostatus, BitVec.ofNat 8 o.skind, BitVec.ofNat 8 o.scode,
    BitVec.ofNat 64 o.progress, BitVec.ofNat 64 o.result, BitVec.ofNat 32 o.sec0.length⟩

/-- A bound device that is not the lead refreshes the lead's copy of an operation's record (13:R346). -/
def State.refresh (s : State) (k opid : Nat) : State :=
  match (s.box k).binding with
  | some g =>
    if k < 16 && g.lead ≠ s.groupIndex && opid / 2 ^ 26 = g.lead then
      match (s.session k).op opid with
      | some o =>
        let avail := match o.launch with
          | some n => ((s.box k).launches.find? (fun (l : Launch) => l.num == n)).map (fun (l : Launch) => BitVec.ofNat 32 l.rlen)
          | none => none
        s.send (.statusTo g.lead g.leadBox opid { o.record with avail := avail.getD o.record.avail })
      | none => s
    else s
  | none => s

/-- Statuses (13:R330). -/
def stOk : Nat := 0x00
def stAccepted : Nat := 0x01
def stPartial : Nat := 0x02
def stReject : Nat := 0x10
def stBadOpcode : Nat := 0x11
def stBadParam : Nat := 0x12
def stNotAuth : Nat := 0x13
def stBusy : Nat := 0x14
def stIntegrity : Nat := 0x20
def stAlarm : Nat := 0x21
def stHwFault : Nat := 0x30
def stCapacity : Nat := 0x31

/-- An operation completes with a final status (13:R333); a completed one keeps its first. A group operation at the lead
keeps running until every part has ended (13:R346). -/
def State.endOp (s : State) (k opid status : Nat) (skind : Nat := 0) (scode : Nat := 0) (detail : Option Nat := none) :
    State :=
  (s.updOp k opid fun o =>
    if o.ostatus ≠ 1 then o
    else { o with ostatus := status, skind := skind, scode := scode, result := detail.getD o.result }).refresh k opid
def State.opProgress (s : State) (k opid n : Nat) : State :=
  (s.updOp k opid fun o => { o with progress := n }).refresh k opid
def State.opResult (s : State) (k opid n : Nat) : State :=
  (s.updOp k opid fun o => { o with result := n }).refresh k opid
def State.opBytes (s : State) (k opid : Nat) (bs : List Byte) : State :=
  s.updOp k opid fun o => { o with sec0 := bs }

end Sys2Proof.Machine
end

