-- ==== Sys2Proof/Machine/Memory.lean ====
section
/-! DEFINITION. Frames, free pools, tile map entries, subkey sets, translation, whole-tile and partial accesses, and the
tile cache (07:R161 to R182; 12:R302 to R308). -/
namespace Sys2Proof.Machine

/-- Frames of an HBM3E stack, of an LPDDR5X package, and of the flash pool (07:R167). -/
def hbmFrames : Nat := 2901760
def lpFrames : Nat := 3825664
def flashFrames : Nat := 427246080

/-- The key of a frame in the frame tables. -/
def frameKey (tier frame : Nat) : Nat := tier * 2 ^ 32 + frame
/-- The seat whose memory holds a frame (07:R168); flash and partner frames have none. -/
def seatOf (tier frame : Nat) : Option Nat :=
  if tier = 0 then some (frame / hbmFrames) else if tier = 1 then some (frame / lpFrames / 2) else none
/-- First frame and number of frames of a tier in a seat (07:R167, R168). -/
def poolOf (tier seat : Nat) : Nat × Nat :=
  if tier = 0 then (seat * hbmFrames, hbmFrames)
  else if tier = 1 then (2 * seat * lpFrames, 2 * lpFrames) else (0, flashFrames)

def State.frame (s : State) (key : Nat) : Frame := Tab.get {} s.frames key
def State.setFrame (s : State) (key : Nat) (f : Frame) : State := { s with frames := Tab.set {} s.frames key f }
/-- Whether a frame is out of its free pool. -/
def State.isTaken (s : State) (key : Nat) : Bool := Tab.has s.taken key

/-- Frames of a tier that are taken, within a pool. -/
def State.takenIn (s : State) (tier lo n : Nat) : Nat :=
  (s.taken.filter (fun p => decide (frameKey tier lo ≤ p.1) && decide (p.1 < frameKey tier (lo + n)))).length
/-- MEM_FREE_HBM and MEM_FREE_LP (07 registers). -/
def State.freeIn (s : State) (tier seat : Nat) : Nat :=
  let p := poolOf tier seat
  p.2 - s.takenIn tier p.1 p.2
/-- Flash frames of a box (07:R170), its local records apart. -/
def State.flashHeld (s : State) (b : Nat) : Nat :=
  (s.taken.filter (fun p => decide (frameKey 2 0 ≤ p.1) && decide (p.1 < frameKey 3 0) && p.2 == b + 1)).length
/-- The frames of flash that a scene record takes: 16,464 bytes a tile and its header, in pages (11:R276, R279). -/
def SceneRec.frames (r : SceneRec) : Nat :=
  ((0xC0 + 16 * r.runs.length + 63) / 64 * 64 + 16464 * r.tiles.length + 16383) / 16384
/-- Frames of the local records of a box, and of the retained ones (11:R276). -/
def State.recordFrames (s : State) (b : Option Nat) : Nat :=
  ((s.dev.retained.filter (fun r => r.box == b)).map (fun r => r.rec0.frames)).foldl (· + ·) 0
/-- Flash frames that a box's quota still allows (07:R170, 11:R276). -/
def State.quotaLeft (s : State) (b : Nat) : Nat := (s.box b).flashq - (s.flashHeld b + s.recordFrames (some b))

/-- The first free frame at or after a place of a pool, cyclically, within `fuel` places. -/
def State.freeFrom (s : State) (tier lo n : Nat) : Nat → Nat → Option Nat
  | 0, _ => none
  | fuel + 1, i =>
    if s.isTaken (frameKey tier (lo + i % n)) then s.freeFrom tier lo n fuel (i + 1) else some (lo + i % n)

/-- Whether a seat's memory is in service for a box (07:R169, 14:R377). -/
def State.seatServes (s : State) (b seat : Nat) : Bool := (s.box b).seats.getLsbD seat && (s.seat seat).inService

/-- A free frame of a tier in a seat, or of the flash quota, taken for a box (07:R169, R170, R175; log 8). -/
def State.takeFrame (s : State) (b tier seat : Nat) : Option (State × Nat) :=
  let p := poolOf tier seat
  let d := s.draw
  if tier = 2 then
    if s.quotaLeft b = 0 || s.dev.flashRo || (s.box b).rehearsal then none
    else match d.2.freeFrom 2 0 flashFrames (min flashFrames (s.taken.length + 1)) (Config.frameHint d.1) with
      | some f => some ({ d.2 with taken := Tab.set 0 d.2.taken (frameKey 2 f) (b + 1) }, f)
      | none => none
  else if tier < 2 && s.seatServes b seat then
    match d.2.freeFrom tier p.1 p.2 (min p.2 (s.taken.length + 1)) (Config.frameHint d.1) with
    | some f => some ({ d.2 with taken := Tab.set 0 d.2.taken (frameKey tier f) (b + 1) }, f)
    | none => none
  else none

/-- A frame is released: it waits for its last reader (07:R173). Partner slots and frames already given up do not. -/
def State.release (s : State) (tier frame : Nat) : State :=
  let k := frameKey tier frame
  if tier < 3 && s.isTaken k && Tab.get 0 s.taken k ≠ 17 && !s.releasing.contains k then { s with releasing := s.releasing ++ [k] } else s

/-- Whether some request, snapshot or take still reads a frame (07:R173, 09:R225, 11:R276). -/
def State.inUse (s : State) (tier frame : Nat) : Bool :=
  s.reqs.any (fun (p : Nat × Option Req) => match p.2 with
    | some r => (r.st == .waiting || r.st == .held || r.st == .served) && r.uses.contains (tier, frame)
    | none => false)
  || boxNumbers.any (fun b =>
    (s.box b).scene.snap.any (fun p => p.2 == (tier, frame))
    || (match (s.box b).takeDue with | some (_, _, fs) => fs.any (fun p => p.2 == (tier, frame)) | none => false))

/-- A released frame returns to its free pool, and its cached copy is invalidated (07:R173, R179). -/
def State.returnFrame (s : State) (tier frame : Nat) : State :=
  let k := frameKey tier frame
  let s := { s with taken := Tab.erase s.taken k, releasing := s.releasing.filter (· ≠ k), frames := Tab.erase s.frames k }
  match seatOf tier frame with
  | some seat => s.updSeat seat fun x => { x with cache := Tab.upd [] x.cache (frame % 128) (fun ws => ws.filter (· ≠ k)) }
  | none => s

/-- The tile map entry as its 128 bits (07:R171). -/
def Tile.word (t : Tile) : Nat :=
  joinFields [(4, t.st), (2, t.tier), (2, t.wtier), (1, bitN t.wing), (1, bitN t.und), (1, bitN t.pin), (1, 0), (8, t.we),
    (8, 0), (36, t.utile), (32, t.wframe), (32, t.frame)] 128

/-- The directory word of a region (07:R162). -/
def Region.word (r : Region) : Nat :=
  joinFields [(1, 1), (5, 0), (10, r.tumbler), (4, r.mseat), (3, 0), (9, r.block)] 32

/-- The region of a tile (07:R162). -/
def regionOf (tile : Nat) : Nat := tile / 262144

/-- STATE codes of an entry (07:R172). -/
def tsZero : Nat := 1
def tsResident : Nat := 2
def tsMigrating : Nat := 3
def tsLost : Nat := 4
def tsRestoring : Nat := 5

/-- Whether the entry's wing belongs to the open epoch, or to the resolved one (07:R175). -/
def Box.wingOpen (b : Box) (t : Tile) : Bool := t.wing && t.we == b.openE % 256
def Box.wingDone (b : Box) (t : Tile) : Bool := t.wing && t.we == b.resolvedE % 256 && !b.wingOpen t

/-- Where a request reads: zeros, a frame, a bus error. -/
inductive Place where
  | zero
  | at (tier frame : Nat)
  | bad
  deriving DecidableEq, Repr

/-- Whether an entry names a frame that its box may use (07:R169). -/
def State.frameOk (s : State) (b tier frame : Nat) : Bool :=
  match seatOf tier frame with
  | some seat => s.seatServes b seat
  | none => decide (tier = 3) || (decide (frame < flashFrames) && Tab.get 0 s.taken (frameKey 2 frame) == b + 1)

/-- A frame of a box, refused outside its bounds (07:R169). -/
def State.placeAt (s : State) (b tier frame : Nat) : Place := if s.frameOk b tier frame then .at tier frame else .bad

/-- The place an ordinary read is served from (07:R172, R175, R177). -/
def State.readPlace (s : State) (b tile : Nat) : Place :=
  let x := s.box b
  let t := x.tile tile
  if t.st = tsZero || t.st = tsResident || t.st = tsMigrating then
    if x.wingDone t && x.closed then (if t.wlost then .bad else s.placeAt b t.wtier t.wframe)
    else if t.st = tsZero then .zero else s.placeAt b t.tier t.frame
  else .bad

/-- The entry once the walker, or a wing request, has normalised it, and the frame it releases (07:R176, R177). -/
def Tile.normal (t : Tile) (closed : Bool) : Tile × List (Nat × Nat) :=
  if closed then
    ({ t with st := if t.st = tsZero then tsResident else t.st, tier := t.wtier, frame := t.wframe, wing := false, we := 0,
              wframe := 0, wtier := 0, home := none, bare := false },
      (if t.tier < 3 && !t.bare then [(t.tier, t.frame)] else []) ++ (match t.home with | some h => [h] | none => []))
  else ({ t with wing := false, we := 0, wframe := 0, wtier := 0, wlost := false }, if t.wlost then [] else [(t.wtier, t.wframe)])

/-- An entry that carries the resolved epoch is normalised (07:R175, R176); a closed one whose wing frame a capacity
event took is LOST (07:R172, 14:R377). -/
def State.normalise (s : State) (b tile : Nat) : State :=
  let x := s.box b
  let t := x.tile tile
  if x.wingDone t && t.wlost && x.closed then
    s.updTile b tile fun t => { t with st := tsLost, wing := false, we := 0, wframe := 0, wtier := 0, wlost := false }
  else if x.wingDone t then
    let n := t.normal x.closed
    n.2.foldl (fun s f => s.release f.1 f.2) (s.updTile b tile fun _ => n.1)
  else s

/-- The place a wing read is served from, after normalisation (07:R175). -/
def State.wingPlace (s : State) (b tile : Nat) : Place :=
  let x := s.box b
  let t := x.tile tile
  if t.st = tsZero || t.st = tsResident || t.st = tsMigrating then
    if x.wingOpen t then (if t.wlost then .bad else s.placeAt b t.wtier t.wframe)
    else if t.st = tsZero then .zero else s.placeAt b t.tier t.frame
  else .bad

/-- The subkey set and generation of a tile's lines (12:R308): identity and KEYGEN; none without a key. -/
def State.subkeys (s : State) (b tile : Nat) : Option (Nat × Nat) :=
  match (s.box b).region (regionOf tile) with
  | none => none
  | some r =>
    let k := s.slot r.tumbler
    if k.st = 0 || k.kind ≠ 1 then none
    else if r.rot && decide (r.cursor ≤ tile % 262144) then
      match k.prev with
      | some p => some (p, (k.gen + 255) % 256)
      | none => none
    else some (k.kid, k.gen)

/-- The side record that the mapping wrote for a ZERO tile (07:R172, log 8), with its KEYGEN. -/
def zeroSide (mapNo gen : Nat) : Mem :=
  Tab.block 0 0 ((List.range 64).map (fun i => if i = 3 then BitVec.ofNat 8 gen else Config.mapSide mapNo i))

/-- A tile that lies with the partner, as the fabric brings it (07:R172; log 13). -/
def partnerData (mapNo frame : Nat) : TileData where
  data := Tab.block 0 0 ((List.range 16384).map (Config.partnerByte mapNo frame))
  side := Tab.block 0 0 ((List.range 64).map (fun i => Config.partnerByte mapNo frame (16384 + i)))

/-- What a place holds, when its lines are under the tile's subkeys; none when the tags do not match (12:R304). -/
def State.contents (s : State) (b tile : Nat) : Place → Option TileData
  | .zero => some ⟨[], zeroSide ((s.box b).tile tile).mapNo (match s.subkeys b tile with | some k => k.2 | none => 0)⟩
  | .at tier frame =>
    if tier = 3 then some (partnerData ((s.box b).tile tile).mapNo frame)
    else
      let f := s.frame (frameKey tier frame)
      match s.subkeys b tile with
      | some k => if f.kid = k.1 then some ⟨f.data, f.side⟩ else none
      | none => none
  | .bad => none

/-- A whole tile is written to a frame under the tile's subkeys, with KEYGEN of its side record (12:R302, R308,
07:R165). -/
def State.putFrame (s : State) (b tile tier frame : Nat) (d : TileData) : State :=
  match s.subkeys b tile with
  | some k => s.setFrame (frameKey tier frame) ⟨k.1, d.data, d.side.write 3 (BitVec.ofNat 8 k.2), .good⟩
  | none => s

/-- Whether a tile lies in a protected region of the box's curtain configuration (11:R258). -/
def Box.isProtected (x : Box) (tile : Nat) : Bool :=
  match x.curtain with
  | some c => c.runs.any (fun r => decide (r.1 ≤ regionOf tile) && decide (regionOf tile < r.1 + r.2))
  | none => false

/-- Whether a tile is a target of an open tag (10:R244), and of a failed or complete one. -/
def Tag.covers (t : Tag) (tile : Nat) : Bool :=
  match t.entry with
  | some e => decide (e.first ≤ tile) && decide (tile < e.first + e.count)
  | none => false
def Box.tagTarget (x : Box) (tile : Nat) : Bool := x.tags.any (fun (p : Nat × Tag) => p.2.st == 1 && p.2.covers tile)

/-- Whether a scene change is in progress, and whether a tile is a destination of one of its layers (09:R222, R224). -/
def Scene.active (c : Scene) : Bool := c.st == 1 || c.st == 2
def Layer.covers (l : Layer) (tile : Nat) : Bool := decide (l.dest ≤ tile) && decide (tile < l.dest + l.count)
def Scene.layerOf (c : Scene) (tile : Nat) : Option Nat :=
  let i := c.layers.findIdx (fun l => l.covers tile)
  if i < c.layers.length then some i else none

/-- Whether an ordinary write to a frame is shut out because a snapshot or a local take reads it (09:R225, 11:R276). -/
def State.frozenFrame (s : State) (tier frame : Nat) : Bool :=
  boxNumbers.any (fun b =>
    ((s.box b).scene.active && (s.box b).scene.snap.any (fun p => p.2 == (tier, frame)))
    || (match (s.box b).takeDue with | some (_, _, fs) => fs.any (fun p => p.2 == (tier, frame)) | none => false))

/-- MEM_MIG_DROP of a seat (07 registers). -/
def State.dropMove (s : State) (seat cause : Nat) : State :=
  s.updSeat seat fun x => { x with migDrop := satAdd 28 x.migDrop 1, migDropLast := cause }

/-- The destination frame of a move that ends without completing is released (07:R182); the home of a tile that lies with
the partner stays reserved (07:R177). -/
def State.dropDest (s : State) (m : Moving) : State := if m.move.homing then s else s.release m.dtier m.dframe

/-- A write meets a tile that is being moved (07:R182): the copy is abandoned, the destination frame released, STATE
returns to RESIDENT, and the tile's move is requeued once at the tail; a second conflict drops it, and so does a queue that
has filled up meanwhile (R180; log 36). -/
def State.abandonMove (s : State) (b tile : Nat) : State :=
  (List.range 16).foldl (fun s k =>
    match (s.seat k).moving with
    | some m =>
      if m.move.box = b && m.tile = tile then
        let s := (s.dropDest m).updTile b tile fun t => { t with st := tsResident }
        if m.move.again || 4096 ≤ (s.seat k).moves.length then (s.updSeat k fun x => { x with moving := none }).dropMove k 1
        else s.updSeat k fun x => { x with moving := none, moves := x.moves ++ [{ m.move with first := tile, count := 1, again := true }] }
      else s
    | none => s) s

/-- An ordinary write's frame (07:R170, R172, R175): none for a bus error, also for a mirror tile without a live frame. -/
def State.writePlace (s : State) (b tile : Nat) : Option (Nat × Nat) :=
  let x := s.box b
  let t := x.tile tile
  let at' : Place := if t.st = tsZero && !(x.wingDone t && x.closed) then (if t.bare then .bad else s.placeAt b t.tier t.frame)
    else s.readPlace b tile
  match at' with
  | .at tier frame => if tier = 3 || (tier = 2 && s.dev.flashRo) || s.frozenFrame tier frame then none else some (tier, frame)
  | _ => none

/-- Whether an ordinary write to a tile is shut out: tag target (10:R244), destination of a scene change (09:R224). -/
def State.shutOut (s : State) (b tile : Nat) : Bool :=
  let x := s.box b
  x.tagTarget tile || (x.scene.active && (x.scene.layerOf tile).isSome)

/-- A whole-tile write by the device itself, a load or a scene change, tag and layer checks apart (07:R172, 09:R218). -/
def State.writeTile (s : State) (b tile : Nat) (d : TileData) : Option State :=
  match s.writePlace b tile with
  | none => none
  | some (tier, frame) =>
    if (s.subkeys b tile).isNone then none
    else
      let s := s.putFrame b tile tier frame d
      let t := (s.box b).tile tile
      let s := if t.st = tsMigrating then s.abandonMove b tile else s
      some (if t.st = tsZero && !((s.box b).wingDone t && (s.box b).closed) then s.updTile b tile fun t => { t with st := tsResident } else s)

/-- A whole-tile ordinary write of a stream or transfer (08:R199, 11:R258): none for a bus error. -/
def State.ordWrite (s : State) (b tile : Nat) (d : TileData) : Option State :=
  if s.shutOut b tile || (s.box b).isProtected tile then none else s.writeTile b tile d

/-- The step-record tiles (11:R260). -/
def Box.isStepRec (x : Box) (tile : Nat) : Bool :=
  match x.curtain with
  | some c => decide (c.steprec ≤ tile) && decide (tile < c.steprec + 5)
  | none => false

/-- The tier and seat of a new wing frame (07:R175, R177, 08:R199): `wt` is WTIER, 3 for the tile's own tier. A live
frame in flash has no seat, and the box's lowest-numbered seat stands in (log 28). -/
def State.wingHome (s : State) (b : Nat) (t : Tile) (wt : Nat) : Nat × Nat :=
  let own : Nat × Nat := if t.tier = 3 then (match t.home with | some h => h | none => (1, 0)) else (t.tier, t.frame)
  let tier := if wt = 3 then own.1 else wt
  (tier, match seatOf own.1 own.2 with | some k => k | none => (s.box b).seat0)

/-- A whole-tile wing write into the open epoch (07:R175, R177): none for a bus error. `wt` is WTIER. -/
def State.wingWrite (s : State) (b tile wt : Nat) (d : TileData) : Option State :=
  let t0 := (s.box b).tile tile
  if !(t0.st = tsZero || t0.st = tsResident || t0.st = tsMigrating) || s.shutOut b tile || (s.subkeys b tile).isNone then none
  else
    let s := s.normalise b tile
    let x := s.box b
    let t := x.tile tile
    if x.wingOpen t then
      if t.wlost || (t.wtier = 2 && s.dev.flashRo) then none
      else
        let s := s.putFrame b tile t.wtier t.wframe d
        some (if t.st = tsMigrating then s.abandonMove b tile else s)
    else
      let h := s.wingHome b t wt
      match s.takeFrame b h.1 h.2 with
      | none => none
      | some (s, f) =>
        let s := s.updTile b tile fun t => { t with wing := true, wframe := f, wtier := h.1, we := (s.box b).openE % 256 }
        let s := s.putFrame b tile h.1 f d
        some (if t.st = tsMigrating then s.abandonMove b tile else s)

/-- Whether a read of a place meets a line that gives no data (12:R304). -/
def State.lineBad (s : State) : Place → Bool
  | .at tier frame => match (s.frame (frameKey tier frame)).upset with
    | .good | .corrected _ => false
    | _ => true
  | _ => false

/-- The bytes that an ordinary read of a tile gives to the device itself (13:R331): none for a bus error. -/
def State.readTile (s : State) (b tile : Nat) : Option TileData :=
  let p := s.readPlace b tile
  if s.lineBad p then none else s.contents b tile p

/-- Bytes of a box's range, as ordinary reads give them. -/
def State.rangeRead (s : State) (b addr n : Nat) : Option (List Byte) :=
  if n = 0 then some []
  else
    let first := addr / 16384
    let count := (addr + n - 1) / 16384 - first + 1
    (List.range count).foldl (fun acc i =>
      match acc, s.readTile b (first + i) with
      | some bs, some d =>
        let lo := if i = 0 then addr % 16384 else 0
        let hi := min 16384 (addr + n - (first + i) * 16384)
        some (bs ++ d.data.bytes lo (hi - lo))
      | _, _ => none) (some [])

/-- Bytes of a tile replaced by part of a sparse image: the image's bytes from `src` on, `n` of them, at `off`. -/
def spliceMem (m img : Mem) (off src n : Nat) : Mem :=
  m.filter (fun p => p.1 < off) ++ (img.filter (fun p => decide (src ≤ p.1) && decide (p.1 < src + n))).map (fun p => (p.1 - src + off, p.2))
    ++ m.filter (fun p => off + n ≤ p.1)

/-- `n` bytes of a sparse image are written to a box's range from an address, tile by tile: a part of a tile by a
read-modify-write (12:R305), which flash does not take (07:R170). A tile that gives a bus error keeps its bytes. -/
def State.rangeWrite (s : State) (b addr n : Nat) (img : Mem) : State :=
  if n = 0 then s
  else
    let first := addr / 16384
    let count := (addr + n - 1) / 16384 - first + 1
    (List.range count).foldl (fun s i =>
      let t := first + i
      let lo := if i = 0 then addr % 16384 else 0
      let hi := min 16384 (addr + n - t * 16384)
      let src := t * 16384 + lo - addr
      let whole := decide (lo = 0) && decide (hi = 16384)
      match s.writePlace b t with
      | none => s
      | some (tier, _) =>
        if s.shutOut b t || (!whole && tier = 2) then s
        else
          match (if whole then s.contents b t (s.readPlace b t) else s.readTile b t) with
          | some d =>
            match s.writeTile b t { d with data := spliceMem d.data img lo src (hi - lo) } with
            | some s => s
            | none => s
          | none => s) s

/-- The tile cache (07:R178, R179): whether a read by a core hits its seat's ways, and the ways after it. -/
def State.cacheRead (s : State) (core tier frame : Nat) (noalloc : Bool) : Bool × State :=
  match seatOf tier frame with
  | none => (false, s)
  | some seat =>
    if core / 16 ≠ seat / 2 then (false, s)
    else
      let k := frameKey tier frame
      let ways := Tab.get [] (s.seat seat).cache (frame % 128)
      if ways.contains k then
        (true, s.updSeat seat fun x => { x with hits := satAdd 32 x.hits 1,
                                                cache := Tab.set [] x.cache (frame % 128) (k :: ways.filter (· ≠ k)) })
      else
        (false, s.updSeat seat fun x => { x with missCount := satAdd 32 x.missCount 1,
                                                 cache := if noalloc then x.cache else Tab.set [] x.cache (frame % 128) ((k :: ways).take 8) })

/-- Whether a tile's live contents can be named by a command: STATE RESIDENT, or MIGRATING, with a frame. -/
def Box.resident (x : Box) (tile : Nat) : Bool := (x.tile tile).st == tsResident

end Sys2Proof.Machine
end

