-- ==== Sys2Proof/Machine/Image.lean ====
section
/-! DEFINITION. The registers ST0 to ST15 of a stream context (08:R188), the context image of a core (06:R153, 03:R86),
and what a launch and a box open set in a core (06:R155, R127; 03:R63, R396; 05:R126; 08:R189, R191). -/
namespace Sys2Proof.Machine

def CtxSt.ofCode : Nat → CtxSt
  | 1 => .run | 2 => .waitBuf | 3 => .waitArm | 4 => .waitExt | 5 => .done | 6 => .fault | _ => .idle

/-- ST0 to ST15 (08:R188). -/
def SCtx.words (x : SCtx) : List Nat :=
  let cue (b : Nat) : Nat := x.cueOf b
  [joinFields [(4, x.st.code), (2, x.pol), (4, x.gs), (2, x.wtier), (4, x.fkind), (4, 0), (12, x.pc % 4096)] 32,
   joinFields [(8, x.held), (8, x.abnd), (3, x.nbuf), (3, x.cur), (4, x.nbank), (6, x.bank0)] 32,
   joinFields [(2, 0), (6, cue 4), (6, cue 3), (6, cue 2), (6, cue 1), (6, cue 0)] 32,
   joinFields [(6, 0), (8, x.armed), (6, cue 7), (6, cue 6), (6, cue 5)] 32,
   x.base % 2 ^ 32, x.base / 2 ^ 32, x.list % 2 ^ 32, x.list / 2 ^ 32,
   (Tab.get 0 x.a 0).toNat, (Tab.get 0 x.a 1).toNat, (Tab.get 0 x.a 2).toNat,
   x.cvr.amax, x.cvr.nan, x.cvr.inf, x.cvr.sat, x.cvr.sticky]

/-- A context from its sixteen registers (08:R188, R189). -/
def SCtx.ofWords (w : List Nat) : SCtx :=
  let g (i : Nat) : Nat := w.getD i 0
  { st := CtxSt.ofCode (bitsOf (g 0) 31 28), pol := bitsOf (g 0) 27 26, gs := bitsOf (g 0) 25 22, wtier := bitsOf (g 0) 21 20,
    fkind := bitsOf (g 0) 19 16, pc := bitsOf (g 0) 11 0,
    held := bitsOf (g 1) 31 24, abnd := bitsOf (g 1) 23 16, nbuf := bitsOf (g 1) 15 13, cur := bitsOf (g 1) 12 10,
    nbank := bitsOf (g 1) 9 6, bank0 := bitsOf (g 1) 5 0,
    cues := Tab.block 0 0 [bitsOf (g 2) 5 0, bitsOf (g 2) 11 6, bitsOf (g 2) 17 12, bitsOf (g 2) 23 18, bitsOf (g 2) 29 24,
      bitsOf (g 3) 5 0, bitsOf (g 3) 11 6, bitsOf (g 3) 17 12],
    armed := bitsOf (g 3) 25 18, base := g 4 + bitsOf (g 5) 17 0 * 2 ^ 32, list := g 6 + bitsOf (g 7) 17 0 * 2 ^ 32,
    a := Tab.block 0 0 [BitVec.ofNat 32 (g 8), BitVec.ofNat 32 (g 9), BitVec.ofNat 32 (g 10)],
    cvr := ⟨g 11, g 12, g 13, g 14, g 15⟩ }

/-- A context record of a stream section (08:R189). -/
def ctxRecord (m : Mem) (i : Nat) : SCtx := SCtx.ofWords ((List.range 16).map (fun n => leNat (m.bytes (i * 64 + 4 * n) 4)))

/-- The bytes of numbers of `n` bytes each from a sparse table: entry k at base + k × n. -/
def wideMem (n base : Nat) (t : List (Nat × Nat)) : Mem :=
  t.flatMap (fun p => Tab.block 0 (base + p.1 * n) (leBytes n p.2))

/-- The size of a context image (06:R153). -/
def imageSize : Nat := 0x950000

/-- The context image (06:R153). Its internal parts are free values (log 8). -/
def Core.image (c : Core) (core : Nat) : Mem :=
  c.stage
  ++ wideMem 8 0x800000 (c.acc.map (fun p => (p.1, p.2.toNat)))
  ++ wideMem 512 0x900000 (c.v.map (fun p => (p.1, p.2.toNat)))
  ++ wideMem 64 0x904000 (c.m.map (fun p => (p.1, p.2.toNat)))
  ++ Tab.block 0 0x904200 ((List.range 0x41E00).map (fun i => Config.imageByte core c.fresh i))
  ++ (List.range 128).flatMap (fun x => if Tab.has c.ctxs x then wideMem 4 (0x946000 + x * 64) ((List.range 16).zip (c.ctx x).words) else [])

/-- What a restore reloads from the image: stage memory, accumulators, vector and mask registers, stream contexts
(06:R153, R154). The internal parts come back as they were saved (log 29). -/
def Core.ofImage (saved : Core) (m : Mem) : Core :=
  let part (lo n : Nat) : Mem := (m.filter (fun p => decide (lo ≤ p.1) && decide (p.1 < lo + n))).map (fun p => (p.1 - lo, p.2))
  let keys (w : Nat) (q : Mem) : List Nat := (q.map (fun p => p.1 / w)).eraseDups
  let wide (lo n w : Nat) : List (Nat × Nat) := let q := part lo n; (keys w q).map (fun k => (k, leNat (q.bytes (k * w) w)))
  let cx := part 0x946000 0x2000
  { saved with
    stage := part 0 0x800000,
    acc := (wide 0x800000 0x100000 8).map (fun p => (p.1, BitVec.ofNat 64 p.2)),
    v := (wide 0x900000 0x4000 512).map (fun p => (p.1, BitVec.ofNat 4096 p.2)),
    m := (wide 0x904000 0x200 64).map (fun p => (p.1, BitVec.ofNat 512 p.2)),
    ctxs := (keys 64 cx).foldl (fun t x => Tab.set {} t x (ctxRecord cx x)) [] }

/-- A core as a box open leaves it: stage memory 0, planes +0 codes and BF16, accumulators +0, records cleared, vector
state of R126, scalar registers 0; slip and cue counters cleared (03:R63, R396; 05:R126; 06:R127; 12:R291). -/
def Core.opened (c : Core) : Core := { ({} : Core) with remap0 := c.remap0, remap1 := c.remap1, fresh := c.fresh }

/-- A core at a launch: bundle 0, script cycle 0, offset 0, an empty loop stack and cue table, stand-by slots disarmed,
USE 0; the script and stream stores and every context written from the script (06:R155, 08:R189, R191); the fault
registers cleared (06 and 08 registers). -/
def Core.launched (c : Core) (img : CoreImg) : Core :=
  { c with
    st := .running, bptr := 0, loops := [], scyc := 0, offset := 0, cues := [], sby := [], use := 0,
    script := img.bundles, nBundles := img.nBundles, descs := img.descs, nDescs := img.nDescs,
    stream := img.stream, nStream := img.nStream,
    ctxs := (List.range img.nCtxs).foldl (fun t x => Tab.set {} t x (ctxRecord img.ctxs x)) [],
    served := 127, faultKind := 0, faultBundle := 0, sfKind := 0, sfCtx := 0, sfPc := 0,
    now := 0, flight := [], accs := [], busy := 0, loaded := [], bundle := [], heldAt := none, seg := none, stalled := 0,
    toks := [], msgs := [] }

/-- Whether a context that may go on stands at a CREDIT whose buffer has its cue: such a CREDIT executes at a preemption
point once what was issued has completed (08:R200, R209). -/
def Core.creditDue (c : Core) (n : Nat) (x : SCtx) : Bool :=
  (x.st == .run || x.st == .waitBuf || x.st == .waitArm)
  && (match decodeStream ⟨0, 0⟩ (leNat (c.stream.bytes (8 * x.pc) 8)) with
    | .ok (.credit _ u) => decide (x.pc < n) && !(u && x.pol != 2) && x.armed.testBit (if u then (x.cur + 1) % (x.nbuf + 1) else x.cur)
    | _ => false)

/-- Whether a core's streams have completed what they issued, and the CREDITs that waited only on that (06:R153,
08:R209). -/
def Core.drained (c : Core) : Bool :=
  c.ctxs.all (fun (p : Nat × SCtx) => p.2.outs.isEmpty && p.2.st != .waitExt && !c.creditDue c.nStream p.2)

/-- Whether the PUTs, RACCs and XFERs of a core have completed (08:R209). -/
def Core.writesDone (c : Core) : Bool :=
  c.ctxs.all (fun (p : Nat × SCtx) => p.2.st != .waitExt
    && p.2.outs.all (fun o => !(o.kind == .put || o.kind == .racc || o.kind == .xfer)))

end Sys2Proof.Machine
end

