-- ==== Sys2Proof/Machine/Operands.lean ====
section
/-! DEFINITION. The operand forms of the core's instructions: scalar and vector second operands (06:R133, R395;
05:R108), stage-memory addresses and rows formed at run time (06:R132), resolved descriptors (03:R64, R66, R75, R77,
R85), and the reading of stationary tiles, rows and kept data (03:R64, R66; 04:R93). -/
namespace Sys2Proof.Machine

/-- S[Sb] or the immediate (R395). -/
def Core.bop (c : Core) (b : BOp) : W32 :=
  match b with
  | .reg r => c.sget r.val
  | .imm v => v

/-- The value of the second vector operand at element `e` (R108). -/
def Core.vbElem (c : Core) (b : VB) (w e : Nat) : Nat :=
  match b with
  | .vec r => elemAt w (c.vget r.val) e
  | .scal r => (c.sget r.val).toNat % 2 ^ w

/-- The active elements of a vector instruction at issue (R103, R104). -/
def Core.active (c : Core) (e : VEn) : List Nat := activeElems e.w c.vlen e.masked (c.mget e.m.val)

/-- DOFF or S[DREG] (R131). -/
def Core.dlVal (c : Core) (d : Dl) : Nat :=
  match d with
  | .off n => n.toNat
  | .reg r => (c.sget r.val).toNat

/-- S[BA], nothing for BA = 0 (R132). -/
def Core.baseVal (c : Core) (ba : Fin 32) : Nat := if ba = 0 then 0 else (c.sget ba.val).toNat

/-- An address field with its base, modulo 8 MiB, its bits below the alignment cleared (R132). -/
def stageAddr (field base align : Nat) : Nat :=
  let a := (field + base) % stageSize
  a - a % align

/-- The address of SLD and SST (R395). -/
def sldAddr (sa imm : W32) : Nat :=
  let a := (sa + imm).toNat
  (a - a % 4) % stageSize

/-- Bytes of stage memory, addresses modulo 8 MiB (R132). -/
def Core.stageBytes (c : Core) (a n : Nat) : List Byte :=
  (List.range n).map (fun i => c.stage.read ((a + i) % stageSize))

/-- Bytes stored to stage memory, addresses modulo 8 MiB. -/
def Core.stageStore (c : Core) (a : Nat) (bs : List Byte) : Core :=
  if a + bs.length ≤ stageSize then { c with stage := c.stage.store a bs }
  else
    let n := stageSize - a
    { c with stage := (c.stage.store a (bs.take n)).store 0 (bs.drop n) }

/-- Whether no stream holds a bank of the `n` bytes at `a` (R142). No access spans more than two banks. -/
def Core.mayAccess (c : Core) (a n : Nat) : Bool :=
  n = 0 || (!c.streamHolds (a % stageSize) && !c.streamHolds ((a + n - 1) % stageSize))

/-- The bytes of a descriptor (R127, R132). -/
def Core.descBytes (c : Core) (k : Nat) : List Byte := c.descs.bytes (k * 64) 64

/-- A row field with S[BB] added modulo 512 (R132). -/
def Core.rowOf (c : Core) (row : Nat) (bb : Fin 32) : Nat := (row + c.baseVal bb) % 512

/-- HLOAD's descriptor, addresses resolved (R132, R148). -/
def Core.hloadOp (c : Core) (k : Nat) (ba : Fin 32) : Option HloadD :=
  (hloadD (c.descBytes k)).map fun d =>
    { d with src := stageAddr d.src (c.baseVal ba) 64, sclSrc := stageAddr d.sclSrc (c.baseVal ba) 64 }

/-- HMUL's descriptor, resolved. -/
def Core.hmulOp (c : Core) (k : Nat) (ba bb : Fin 32) : Option HmulD :=
  (hmulD (c.descBytes k)).map fun d =>
    { d with src := stageAddr d.src (c.baseVal ba) 64, xscl := stageAddr d.xscl (c.baseVal ba) 1,
             accRow := c.rowOf d.accRow bb }

def Core.preloadOp (c : Core) (k : Nat) (ba bb : Fin 32) : Option PreloadD :=
  (preloadD (c.descBytes k)).map fun d =>
    { d with src := stageAddr d.src (c.baseVal ba) 64, accRow := c.rowOf d.accRow bb }

def Core.hsaveOp (c : Core) (k : Nat) (ba bb : Fin 32) : Option HsaveD :=
  (hsaveD (c.descBytes k)).map fun d =>
    { d with addr := stageAddr d.addr (c.baseVal ba) 1024, firstRow := c.rowOf d.firstRow bb }

def Core.hdrainOp (c : Core) (k : Nat) (ba bb : Fin 32) : Option HdrainD :=
  (hdrainD (c.descBytes k)).map fun d =>
    let b := c.baseVal ba
    { d with dst := stageAddr d.dst b 64, sclDst := stageAddr d.sclDst b 1, ewSrc := stageAddr d.ewSrc b 64,
             derivSrc := stageAddr d.derivSrc b 64, topkDst := stageAddr d.topkDst b 128,
             accRow := c.rowOf d.accRow bb }

/-- The address of row `i` from a base and a stride (R132). -/
def rowAddr (a stride i : Nat) : Nat := (a + i * stride) % stageSize

/-- The format of a descriptor field; the loader has refused the reserved code. -/
def fmtOf (c : Nat) : Fmt := (Fmt.ofCode c).getD .fp32

/-- Values of `w` bits from packed bytes (R40). -/
def unpackBits (w n : Nat) (bs : List Byte) : List Nat :=
  let v := leNat bs
  (List.range n).map (fun i => v / 2 ^ (w * i) % 2 ^ w)

/-- The bytes of an HLOAD's tile and of its data at SCL_SRC (R64). -/
def hloadSpan (d : HloadD) : Nat × Nat :=
  let f := fmtOf d.fmt
  let tile := f.klen * 128 * f.width / 8
  let scl :=
    if f = .int4 || f = .int2 then (if d.xmode = 1 then 32 else 0x1000 + 128 / (32 * 2 ^ d.group) * 128)
    else if d.bscl = 1 then f.klen / 32 * 128 else 0
  (tile, scl)

/-- Whether an HLOAD may read its tile and scale data now (R142). -/
def Core.hloadMay (c : Core) (d : HloadD) : Bool :=
  c.mayAccess d.src (hloadSpan d).1 && c.mayAccess d.sclSrc (hloadSpan d).2

/-- The plane that an HLOAD's bytes give as stage memory stands (R64, R46, R396). -/
def Core.readPlane (c : Core) (d : HloadD) : Plane :=
  let f := fmtOf d.fmt
  let kt := f.klen
  let codes := unpackBits f.width (kt * 128) (c.stageBytes d.src (hloadSpan d).1)
  let scl := c.stageBytes d.sclSrc (hloadSpan d).2
  let raw (k n : Nat) : Nat := codes.getD (if d.orient = 1 then n * kt + k else k * 128 + n) 0
  let expand (k n : Nat) : Nat :=
    if f = .int4 || f = .int2 then
      if d.xmode = 1 then expandTable (fieldAt scl (2 * raw k n) 2)
      else
        let g := k / (32 * 2 ^ d.group)
        expandAffine (signedOf f.width (raw k n)) (fieldAt scl (2 * (g * 128 + n)) 2)
          (signedOf 8 (fieldAt scl (0x1000 + g * 128 + n) 1))
    else raw k n
  let cells := Tab.block 0 0 ((List.range (kt * 128)).map (fun i => expand (i / 128) (i % 128)))
  let scales :=
    if d.bscl = 1 && !(f = .int4 || f = .int2) then
      Tab.block 127 0 ((List.range (kt * 128)).map (fun i => fieldAt scl (i / 4096 * 128 + i % 128) 1))
    else []
  { fmt := if f = .int4 || f = .int2 then .bf16 else f, cells := cells, scales := scales }

/-- Column `n` of a plane as values, along k (R64, R68). -/
def Plane.column (p : Plane) (n : Nat) : List Val :=
  (List.range p.fmt.klen).map (fun k =>
    operandVal p.fmt (Tab.get 0 p.cells (k * 128 + n)) (Tab.get 127 p.scales (k * 128 + n)))

/-- Input row `j` of an HMUL as values (R66). -/
def Core.mulInput (c : Core) (d : HmulD) (j : Nat) : List Val :=
  let f := fmtOf d.fmt
  let codes := unpackBits f.width f.klen (c.stageBytes (rowAddr d.src d.stride j) (f.klen * f.width / 8))
  let g := f.klen / 32
  let scl := if d.bscl = 1 then c.stageBytes (rowAddr d.xscl g j) g else []
  (List.range f.klen).map (fun k => operandVal f (codes.getD k 0) (if d.bscl = 1 then fieldAt scl (k / 32) 1 else 127))

/-- Whether HMUL may read input row `j` now. -/
def Core.mulMay (c : Core) (d : HmulD) (j : Nat) : Bool :=
  let f := fmtOf d.fmt
  c.mayAccess (rowAddr d.src d.stride j) (f.klen * f.width / 8)
    && (d.bscl = 0 || c.mayAccess (rowAddr d.xscl (f.klen / 32) j) (f.klen / 32))

/-- The arrays of an ARRS field (R66, R85). -/
def arrsOf (a : Nat) : List Nat := (if a.testBit 0 then [0] else []) ++ (if a.testBit 1 then [1] else [])

/-- Words of a PRELOAD source row (R75). -/
def Core.preRow (c : Core) (d : PreloadD) (i : Nat) : List W64 :=
  let f := fmtOf d.fmt
  let codes := unpackBits f.width 128 (c.stageBytes (rowAddr d.src (if d.kind = 1 then d.stride else 0) i)
    (128 * f.width / 8))
  codes.map (fun x => if f = .acc64 then BitVec.ofNat 64 x else preloadWord (f.decode x))

/-- Rows per stride and bytes per row of kept data (R93). -/
def derivRow (kind : Nat) : Nat × Nat :=
  match kind with
  | 1 | 2 | 3 => (4, 16)
  | 4 => (2, 32)
  | 9 => (1, 128)
  | _ => (1, 256)

/-- The address of the kept data of row `i` (R93). -/
def derivAddr (d : HdrainD) (i : Nat) : Nat :=
  let (per, nb) := derivRow d.deriv
  (d.derivSrc + i / per * d.derivStride + i % per * nb) % stageSize

/-- The kept bits and value of element `n` in a row's kept bytes (R92, R93). -/
def derivElem (kind : Nat) (bs : List Byte) (n : Nat) : Bool × Bool × Val :=
  match kind with
  | 1 | 2 | 3 => ((fieldAt bs (n / 8) 1).testBit (n % 8), false, .nan)
  | 4 => ((fieldAt bs (n / 4) 1).testBit (2 * (n % 4)), (fieldAt bs (n / 4) 1).testBit (2 * (n % 4) + 1), .nan)
  | 8 => (false, false, Fmt.fp16.decode (fieldAt bs (2 * n) 2))
  | 9 => (false, false, Fmt.e4m3.decode (fieldAt bs n 1))
  | _ => (false, false, Fmt.bf16.decode (fieldAt bs (2 * n) 2))

/-- The conversion of an HDRAIN (R77, R52). -/
def drainConv (d : HdrainD) (p q : W32) (grid : Int) : Conv :=
  let f := fmtOf d.fmt
  { dst := f, block := f.isBlockOnly, rnd := (Rnd.ofCode d.rnd).getD .near, sat := d.sat = 1, ovf := d.ovf = 1,
    p := p, q := q, gridS := none, gridD := if f = .bi32 then some grid else none }

end Sys2Proof.Machine
end

