-- ==== Sys2Proof/Machine/Ops.lean ====
section
/-! DEFINITION. The core's cycles (log 7): faults (06:R156), the micro-operations of instructions in flight, in the
order landings, bank passes, generator fields, bundle, reads, draws of port 0 and port 1, record updates, record reads,
and the advance of the core's clock. -/
namespace Sys2Proof.Machine

/-- Phases within a core cycle. -/
def phLand : Nat := 0
def phPass : Nat := 1
/-- A VGSET takes effect when the next bundle issues: a stream that draws before that still draws in the earlier cycle
(05:R124). -/
def phGen : Nat := 2
def phRead : Nat := 3
def phDraw : Nat := 4
def phRecAdd : Nat := 6
def phRecRead : Nat := 7
def keyAt (cycle phase : Nat) : Nat := cycle * 8 + phase
def Pend.cycle (p : Pend) : Nat := p.key / 8

/-- Insertion by key, then by issue number; equal ones stay in order (R107, R136). -/
def pendInsert (x : Pend) : List Pend → List Pend
  | [] => [x]
  | y :: ys =>
    if x.key < y.key || (x.key == y.key && x.seq < y.seq) then x :: y :: ys else y :: pendInsert x ys

def Core.push (c : Core) (key seq bundle : Nat) (op : Micro) : Core :=
  { c with flight := pendInsert ⟨key, seq, bundle, op⟩ c.flight }

/-- A fault of R156: the kind and bundle are recorded once, the core issues nothing more and tells the device. -/
def Core.fault (c : Core) (kind bundle : Nat) : Core :=
  if c.st = .faulted then c
  else { c with st := .faulted, faultKind := kind, faultBundle := bundle, heldAt := none, seg := none, bundle := [] }.tell .fault

/-- One run of bytes stored, if no stream holds its bank; else fault kind 0x02 and no store (R142, R156). -/
def Core.storeRun (c : Core) (bundle : Nat) (r : Nat × List Byte) : Core :=
  if c.mayAccess r.1 r.2.length then c.stageStore (r.1 % stageSize) r.2 else c.fault 2 bundle

/-- Whether some bytes lie among those that an HLOAD reads. -/
def loadReads (d : HloadD) (r : Nat × Nat) : Bool :=
  let sp := hloadSpan d
  let meet (a n : Nat) : Bool := decide (r.1 < a + n) && decide (a < r.1 + r.2)
  meet d.src sp.1 || meet d.sclSrc sp.2

/-- Bytes have been stored: an HLOAD that is still reading them may see them as they now are (R65). -/
def Core.noteLoads (c : Core) (runs : List (Nat × Nat)) : Core :=
  let hit (p : Pend) : Bool := match p.op with | .loadEnd d _ => runs.any (loadReads d) | _ => false
  if c.flight.any hit then
    { c with flight := c.flight.map (fun p => match p.op with
        | .loadEnd d seen => if runs.any (loadReads d) then { p with op := .loadEnd d (seen ++ [c.readPlane d]) } else p
        | _ => p) }
  else c

/-- The plane of an HLOAD from all that its bytes gave: each element is what they gave at one time (R65). -/
def mergePlane (core fresh : Nat) : List Plane → Plane
  | [] => {}
  | p :: ps =>
    if ps.all (· == p) then p
    else
      let pick (i : Nat) : Plane := (p :: ps).getD (Config.loadPick core fresh i % (ps.length + 1)) p
      let n := p.fmt.klen * 128
      { p with cells := Tab.block 0 0 ((List.range n).map (fun i => Tab.get 0 (pick i).cells i)),
               scales := Tab.block 127 0 ((List.range n).map (fun i => Tab.get 127 (pick i).scales i)) }

/-- A run of words of an accumulator row written. -/
def Core.setWords (c : Core) (arr row first : Nat) (ws : List W64) : Core :=
  { c with acc := Tab.setRun 0 c.acc (arr * 65536 + row * 128 + first) ws }

/-- The words of an accumulator row. -/
def Core.rowWords (c : Core) (arr row : Nat) : List W64 :=
  (List.range 128).map (fun n => c.accWordAt arr row n)

/-- Writing a generator's field (R123). -/
def genSetField (g : Gen) (field v : Nat) : Gen :=
  match field with
  | 0 => { g with key := v }
  | 1 => { g with sid := v }
  | 2 => { g with step := v }
  | _ => { g with draw := v }

/-- The sums of an input row for one array (R68, R69). -/
def Core.rowSums (c : Core) (d : HmulD) (arr : Nat) (xs : List Val) : List RowSum :=
  let p := c.plane arr d.plane
  (List.range 128).map (fun n => rowSum (List.zipWith Val.mul xs (p.column n)))

/-- The rows of a drain stored in stage memory: the converted row, its block scales, its top-k record (R77, R80). -/
def drainRuns (d : HdrainD) (i : Nat) (codes scales : List Nat) : List (Nat × List Byte) :=
  let f := fmtOf d.fmt
  (if d.topkOnly = 1 then [] else [(rowAddr d.dst d.dstStride i, packBits f.width codes)])
    ++ (if scales.isEmpty || d.topkOnly = 1 then [] else [(rowAddr d.sclDst 4 i, scales.map (BitVec.ofNat 8))])
    ++ (if d.topk = 0 then [] else [(rowAddr d.topkDst 128 i, topkRecord f d.topk codes)])

/-- One micro-operation takes effect. -/
def Core.micro (e : CEnv) (p : Pend) (c : Core) : Core :=
  let push (cycles phase : Nat) (op : Micro) (c : Core) : Core := c.push (keyAt (p.cycle + cycles) phase) p.seq p.bundle op
  match p.op with
  | .sreg r v => c.sset r.val v
  | .vreg r m v => { c with v := Tab.upd 0 c.v r.val (fun old => mergeBits old m v) }
  | .mreg r m v => { c with m := Tab.upd 0 c.m r.val (fun old => mergeBits old m v) }
  | .vlen n => { c with vlen := n }
  | .genSet g f v => c.setGen g.val (genSetField (c.gen g.val) f v)
  | .bind a g => if a = 0 then { c with bind0 := g } else { c with bind1 := g }
  | .c0 a v => { c with c0 := Tab.set one32 c.c0 a v }
  | .store runs => (runs.foldl (fun c r => c.storeRun p.bundle r) c).noteLoads (runs.map (fun r => (r.1, r.2.length)))
  | .loadEnd d seen =>
    if c.hloadMay d then
      let pl := mergePlane e.core c.fresh (seen ++ [c.readPlane d])
      push 1 phLand (.plane (d.arr * 2 + d.plane) pl) { c with fresh := c.fresh + 1 }
    else c.fault 2 p.bundle
  | .plane k pl => { c with planes := Tab.set {} c.planes k pl }
  | .mulRow d j row late =>
    if c.mulMay d j then
      let xs := c.mulInput d j
      (arrsOf d.arrs).foldl (fun c a => push late phLand (.accAdd a row d.accMode (c.rowSums d a xs)) c) c
    else c.fault 2 p.bundle
  | .accAdd a row mode sums =>
    c.setWords a row 0 (List.zipWith (fun w r => accStep w mode r) (c.rowWords a row) sums)
  | .preRow d i row =>
    let f := fmtOf d.fmt
    if c.mayAccess (rowAddr d.src (if d.kind = 1 then d.stride else 0) i) (128 * f.width / 8) then
      let ws := c.preRow d i
      (List.range (if d.kind = 1 then 1 else d.rows)).foldl
        (fun c r => push (3 + r) phLand (.accSet d.arr ((row + r) % 512) 0 ws) c) c
    else c.fault 2 p.bundle
  | .accSet a row first ws => c.setWords a row first ws
  | .saveRow d m a i row =>
    push 10 phLand (.store [((d.addr + m * d.rows * 0x400 + i * 0x400) % stageSize,
      (c.rowWords a row).flatMap (fun w => leBytes 8 w.toNat))]) c
  | .restWords d m a i row q =>
    let ad := (d.addr + m * d.rows * 0x400 + i * 0x400 + q * 128) % stageSize
    if c.mayAccess ad 128 then
      let bs := c.stageBytes ad 128
      push (10 - q) phLand (.accSet a row (16 * q) ((List.range 16).map (fun k => BitVec.ofNat 64 (fieldAt bs (8 * k) 8)))) c
    else c.fault 2 p.bundle
  | .drainRead d pp q grid c0 g i row =>
    let xs := (c.rowWords d.arr row).map (fun w => let s := accSrc w; (⟨s.v, s.sticky⟩ : DVal))
    push 1 phRead (.drainEw d pp q grid c0 g i xs) c
  | .drainEw d pp q grid c0 g i xs =>
    let f := fmtOf d.ewFmt
    let a := rowAddr d.ewSrc d.ewStride i
    let n := 128 * f.width / 8
    if d.ewOp = 0 then push 2 phRead (.drainDer d pp q grid c0 g i xs) c
    else if c.mayAccess a n then
      let os := (unpackBits f.width 128 (c.stageBytes a n)).map f.decode
      push 2 phRead (.drainDer d pp q grid c0 g i (List.zipWith (fun x o => Sys2Proof.drainEw d.ewOp x o) xs os)) c
    else c.fault 2 p.bundle
  | .drainDer d pp q grid c0 g i xs =>
    let a := derivAddr d i
    let n := (derivRow d.deriv).2
    if d.deriv = 0 then push 2 (phDraw + d.arr) (.drainCvt d pp q grid g i xs) c
    else if c.mayAccess a n then
      let bs := c.stageBytes a n
      let k := Fmt.fp32.decode c0.toNat
      let ys := (List.zip (List.range 128) xs).map (fun (nx : Nat × DVal) =>
        let (b0, b1, av) := derivElem d.deriv bs nx.1
        drainDeriv d.deriv nx.2 b0 b1 av k)
      push 2 (phDraw + d.arr) (.drainCvt d pp q grid g i ys) c
    else c.fault 2 p.bundle
  | .drainCvt d pp q grid g i xs =>
    let gen := c.gen g.val
    let cv := drainConv d pp q grid
    let rs := (List.range 128).map (fun n => if cv.rnd = .stoch then gen.half n 0 0 else 0)
    let (codes, scales, a) := cv.row ((xs.map (fun x => (⟨x.v, x.sticky⟩ : Src))).zip rs) Amax.zero
    let c := if cv.rnd = .stoch then c.setGen g.val gen.next else c
    push 4 phLand (.store (drainRuns d i codes scales)) (push 1 phRecAdd (.recAdd d.arr a) c)
  | .recAdd k a => c.setRecord k
      (let r := c.record k
       ⟨max r.amax a.amax, satAdd 32 r.nan a.nan, satAdd 32 r.inf a.inf, satAdd 32 r.sat a.sat, satAdd 32 r.sticky a.sticky⟩)
  | .recRead k clr dst =>
    let r := c.record k
    push 2 phLand (.store [(dst, r.bytes ++ leBytes 12 0)]) (if clr then c.setRecord k Amax.zero else c)
  | .passBank x b => c.updCtx x (fun s => { s with held := setBitN s.held b true })

/-- The cycle by which a micro-operation and all that it gives rise to have completed (R134). -/
def Pend.ends (p : Pend) : Nat :=
  p.cycle + (match p.op with
    | .loadEnd .. => 1
    | .mulRow _ _ _ late => late
    | .preRow d _ _ => if d.kind = 1 then 3 else d.rows + 2
    | .saveRow .. => 10
    | .restWords _ _ _ _ _ q => 10 - q
    | .drainRead .. => 9
    | .drainEw .. => 8
    | .drainDer .. => 6
    | .drainCvt .. => 4
    | .recRead .. => 2
    | _ => 0)

/-- How many micro-operations one can still give rise to, itself included. -/
def Pend.weight (p : Pend) : Nat :=
  match p.op with
  | .preRow d _ _ => d.rows + 2
  | _ => 8

/-- Every micro-operation whose key lies below a limit takes effect, in order. -/
def Core.runFuel (e : CEnv) (limit : Nat) : Nat → Core → Core
  | 0, c => c
  | fuel + 1, c =>
    match c.flight with
    | [] => c
    | p :: t => if p.key < limit then Core.runFuel e limit fuel (({ c with flight := t }).micro e p) else c

def Core.fuel (c : Core) : Nat := (c.flight.map Pend.weight).sum

def Core.runTo (e : CEnv) (limit : Nat) (c : Core) : Core := Core.runFuel e limit c.fuel c

/-- The landings, bank passes and generator fields of the present cycle. -/
def Core.startCycle (e : CEnv) (c : Core) : Core := c.runTo e (keyAt c.now phRead)

/-- `n` core cycles pass, and the next one starts up to a phase. -/
def Core.passTo (e : CEnv) (n ph : Nat) (c : Core) : Core :=
  let c := c.runTo e (keyAt (c.now + n) 0)
  Core.runTo e (keyAt (c.now + n) ph) { c with now := c.now + n }

/-- `n` core cycles pass and the next one starts. -/
def Core.advance (e : CEnv) (n : Nat) (c : Core) : Core := c.passTo e n phRead

/-- The cycle of a bundle ends: what it leaves lands, but for a VGSET, which waits for the next bundle (05:R124). -/
def Core.endCycle (e : CEnv) (c : Core) : Core := c.passTo e 1 phGen

/-- Everything in flight completes (R155, R156): the clock stands at the last completion. -/
def Core.drainAll (e : CEnv) (c : Core) : Core :=
  let lastKey := 1 + (c.flight.map Pend.key).foldl max 0 + 8 * 1024
  let c := c.runTo e lastKey
  { c with now := max c.now (lastKey / 8), accs := [] }

/-- A core that has faulted lets what it issued complete (R156). -/
def Core.settle (e : CEnv) (c : Core) : Core := if c.st = .faulted then c.drainAll e else c

end Sys2Proof.Machine
end

