-- ==== Sys2Proof/Machine/Flags.lean ====
section
/-! DEFINITION. The core's flags: slips and the interlock (03:R82 to R84; 06:R151), cues and tokens (06:R138 to R142,
R148, R154; 08:R191, R200, R201), USE, and the loop stack (06:R136, R397). -/
namespace Sys2Proof.Machine

/-- The index of a row in a run of rows (rows are taken modulo 512). -/
def rowIx (first rows row : Nat) : Option Nat :=
  let i := (row + 512 - first % 512) % 512
  if i < rows then some i else none

/-- Rows of an access. -/
def ArrAcc.rowsOf : ArrAcc → Nat × Nat
  | .load .. => (0, 0)
  | .mul _ _ _ f r _ | .pre _ _ f r | .rest _ _ f r | .drain _ _ f r | .save _ _ f r => (f, r)

def ArrAcc.arr : ArrAcc → Nat
  | .load a _ _ | .mul a _ _ _ _ _ | .pre a _ _ _ | .rest a _ _ _ | .drain a _ _ _ | .save a _ _ _ => a

/-- The first cycle after the completion of an earlier access to its row `i`, for a later one (R83): the end of an
accumulate, of a write, of a read. -/
def ArrAcc.after : ArrAcc → Nat → Nat
  | .load _ _ h, _ => h + 64
  | .mul _ _ c _ _ dbl, i => if dbl then c + 2 * i + 15 else c + i + 14
  | .pre _ p _ _, i => p + i + 3
  | .rest _ a _ _, i => a + 8 * i + 10
  | .drain _ d _ _, i => d + i + 1
  | .save _ a _ _, i => a + 8 * i + 8

/-- The cycle after issue at which a later access first touches its row `i` (R83; HRESTORE log 27). -/
def ArrAcc.first : ArrAcc → Nat → Nat
  | .load .., _ => 0
  | .mul _ _ _ _ _ dbl, i => if dbl then 2 * i + 12 else i + 11
  | .pre _ _ _ _, i => i + 2
  | .rest _ _ _ _, i => 8 * i
  | .drain _ _ _ _, i => i
  | .save _ _ _ _, i => 8 * i

def ArrAcc.isRead : ArrAcc → Bool
  | .drain .. | .save .. => true
  | _ => false
def ArrAcc.isWrite : ArrAcc → Bool
  | .mul .. | .pre .. | .rest .. => true
  | _ => false
def ArrAcc.isMul : ArrAcc → Bool
  | .mul .. => true
  | _ => false
def ArrAcc.isLoad : ArrAcc → Bool
  | .load .. => true
  | _ => false

/-- The KIND of a conflict of a later access with an earlier one over rows, none where there is none (R83). -/
def rowKind (later earlier : ArrAcc) : Option Nat :=
  if later.isRead && earlier.isMul then some 1
  else if later.isRead && earlier.isWrite then some 2
  else if later.isWrite && earlier.isRead then some 3
  else if later.isWrite && !later.isMul && earlier.isMul then some 4
  else if later.isWrite && earlier.isWrite && !earlier.isMul then some 7
  else none

/-- The earliest issue cycle that a later access may have against an earlier one, with the KIND (R83). -/
def accBound (later earlier : ArrAcc) : Option (Nat × Nat) :=
  if later.arr ≠ earlier.arr then none
  else match later, earlier with
    | .mul _ q .., .load _ q' h => if q = q' then some (h + 64, 5) else none
    | .load _ q _, .mul _ q' c _ r dbl => if q = q' then some (c + (if dbl then 2 * r else r) + 1, 6) else none
    | _, _ =>
      match rowKind later earlier with
      | none => none
      | some k =>
        let (f, r) := later.rowsOf
        let (f', r') := earlier.rowsOf
        let bs := (List.range r).filterMap (fun i =>
          (rowIx f' r' ((f + i) % 512)).map (fun j => earlier.after j - later.first i))
        match bs with
        | [] => none
        | b :: t => some (t.foldl max b, k)

/-- The hold of a bundle's accesses at a cycle: cycles, KIND and array (R82, R83). Where several conflicts hold the bundle,
R84 does not say which one is recorded: the first of the longest (DESIGN CHOICE, log 66). -/
def holdOf (now : Nat) (laters earliers : List ArrAcc) : Option (Nat × Nat × Nat) :=
  let all := laters.flatMap (fun l => earliers.filterMap (fun e => (accBound l e).map (fun b => (b.1, b.2, l.arr))))
  let best := all.foldl (fun (acc : Option (Nat × Nat × Nat)) b =>
    match acc with
    | none => some b
    | some a => if a.1 < b.1 then some b else some a) none
  match best with
  | some (t, k, a) => if now < t then some (t - now, k, a) else none
  | none => none

/-- An access dated with its issue cycle. -/
def ArrAcc.at (t : Nat) : ArrAcc → ArrAcc
  | .load a q _ => .load a q t
  | .mul a q _ f r d => .mul a q t f r d
  | .pre a _ f r => .pre a t f r
  | .rest a _ f r => .rest a t f r
  | .drain a _ f r => .drain a t f r
  | .save a _ f r => .save a t f r

/-- The last cycle at which an access can still conflict. -/
def ArrAcc.ends (x : ArrAcc) : Nat :=
  match x with
  | .load _ _ h => h + 64
  | .mul _ _ c _ r _ => c + 2 * r + 16
  | x => x.after (x.rowsOf.2)

/-- A slip of `s` cycles is counted and moves the offset (R84, R151). -/
def Core.slip (c : Core) (kind arr s : Nat) : Core :=
  { c with slipEvents := satAdd 32 c.slipEvents 1, slipCycles := satAdd 32 c.slipCycles s, slipKind := kind,
           slipArr := arr, slipHold := min s 0xFFFF, offset := c.offset + s }

/-- A token is compared with the cue table: a match makes the cue visible and passes a buffer's banks to the
script; any other token is stale and counted (R139, R200). -/
def Core.applyToken (c : Core) (t : Token) : Core :=
  let q := c.cue t.cue
  if q.armed && !q.vis && q.ddl == t.ddl && !t.stale then
    let c := c.setCue t.cue { q with vis := true }
    if t.kind = .fill then c.updCtx t.ctx (fun x => { x with held := setBitN x.held t.buf false }) else c
  else { c with stale := satAdd 32 c.stale 1 }

/-- The order of tokens that become visible in one cycle (R140). -/
def tokenOrder (ts : List Token) : List Token := sortBy (fun t => t.cue * 4 + t.kind.rank) ts

/-- Tokens become visible together (R140). -/
def Core.applyTokens (c : Core) (ts : List Token) : Core := (tokenOrder ts).foldl Core.applyToken c

/-- A token enters the synchroniser. -/
def Core.receive (c : Core) (t : Token) : Core := { c with toks := c.toks ++ [t] }

/-- The elements at some positions of a list and the rest. -/
def takeAt {α : Type} (xs : List α) (ks : List Nat) : List α × List α :=
  let ix := (List.range xs.length).zip xs
  ((ix.filter (fun p => ks.contains p.1)).map Prod.snd, (ix.filter (fun p => !ks.contains p.1)).map Prod.snd)

/-- A cue is disarmed. -/
def Core.disarm (c : Core) (k : Nat) : Core := c.setCue k {}

/-- USE bit `k` set or cleared (R127). -/
def Core.setUse (c : Core) (k : Nat) (b : Bool) : Core :=
  { c with use := if b then c.use ||| BitVec.ofNat 64 (2 ^ k) else c.use &&& ~~~(BitVec.ofNat 64 (2 ^ k)) }

/-- A cue is armed with a deadline and a policy (R138). -/
def Core.arm (c : Core) (k ddl pol : Nat) (buf : Option (Nat × Nat)) : Core :=
  c.setCue k { armed := true, ddl := ddl % 2 ^ 40, pol := pol, vis := false, aband := false, buf := buf }

/-- An armed cue of a buffer is abandoned: the context's ABND bit is set while its fill is pending (R148, R188). -/
def Core.abandon (c : Core) (k : Nat) : Core :=
  match (c.cue k).buf with
  | some (x, b) =>
    c.updCtx x (fun s => if s.armed.testBit b && s.cueOf b == k then { s with abnd := setBitN s.abnd b true } else s)
  | none => c

/-- The bundle after an END issues: loops that end there are counted from the innermost (R397). -/
def endCount (q : Nat) : List LoopEntry → Nat × List LoopEntry
  | [] => (q + 1, [])
  | l :: ls =>
    if l.last = q then
      if 1 < l.remaining then (l.first, { l with remaining := l.remaining - 1 } :: ls) else endCount q ls
    else (q + 1, l :: ls)

end Sys2Proof.Machine
end

