-- ==== Sys2Proof/Machine/SlotScalar.lean ====
section
/-! DEFINITION. What a scalar instruction does to its core at its issue cycle (06:R133, R134, R395, R109, R110): one
definition per instruction; results land after the instruction's latency. -/
namespace Sys2Proof.Machine

/-- A micro-operation that takes effect `lat` cycles after the present one, in a phase. -/
def Core.later (c : Core) (lat phase : Nat) (op : Micro) : Core := c.push (keyAt (c.now + lat) phase) c.seq c.bptr op
/-- A scalar result usable by an instruction issued `lat` cycles later (R134). -/
def Core.landS (c : Core) (lat : Nat) (d : Fin 32) (v : W32) : Core := c.later lat phLand (.sreg d v)

/-- A 32-bit result of a Nat function of two registers. -/
def w32 (n : Nat) : W32 := BitVec.ofNat 32 n

def Core.doSli (c : Core) (d : Fin 32) (v : W32) : Core := c.landS 1 d v
def Core.doSmov (c : Core) (d a : Fin 32) : Core := c.landS 1 d (c.sget a.val)
def Core.doSadd (c : Core) (d a : Fin 32) (b : BOp) : Core := c.landS 1 d (c.sget a.val + c.bop b)
def Core.doSsub (c : Core) (d a : Fin 32) (b : BOp) : Core := c.landS 1 d (c.sget a.val - c.bop b)
def Core.doSand (c : Core) (d a : Fin 32) (b : BOp) : Core := c.landS 1 d (c.sget a.val &&& c.bop b)
def Core.doSor (c : Core) (d a : Fin 32) (b : BOp) : Core := c.landS 1 d (c.sget a.val ||| c.bop b)
def Core.doSxor (c : Core) (d a : Fin 32) (b : BOp) : Core := c.landS 1 d (c.sget a.val ^^^ c.bop b)
def Core.doSshl (c : Core) (d a : Fin 32) (b : BOp) : Core :=
  c.landS 1 d (w32 (shlN 32 (c.sget a.val).toNat (c.bop b).toNat))
def Core.doSshr (c : Core) (d a : Fin 32) (b : BOp) : Core :=
  c.landS 1 d (w32 (shrN 32 (c.sget a.val).toNat (c.bop b).toNat))
def Core.doSsra (c : Core) (d a : Fin 32) (b : BOp) : Core :=
  c.landS 1 d (w32 (sraN 32 (c.sget a.val).toNat (c.bop b).toNat))
def Core.doScmp (c : Core) (cond : SCond) (d a : Fin 32) (b : BOp) : Core :=
  c.landS 1 d (if scmpHolds cond (c.sget a.val) (c.bop b) then 1 else 0)
def Core.doSmul (c : Core) (d a : Fin 32) (b : BOp) : Core := c.landS 3 d (c.sget a.val * c.bop b)
def Core.doSfadd (c : Core) (d a : Fin 32) (b : BOp) : Core :=
  c.landS 4 d (w32 (Fmt.fp32.addC .near 0 (c.sget a.val).toNat (c.bop b).toNat))
def Core.doSfsub (c : Core) (d a : Fin 32) (b : BOp) : Core :=
  c.landS 4 d (w32 (Fmt.fp32.subC .near 0 (c.sget a.val).toNat (c.bop b).toNat))
def Core.doSfmul (c : Core) (d a : Fin 32) (b : BOp) : Core :=
  c.landS 4 d (w32 (Fmt.fp32.mulC .near 0 (c.sget a.val).toNat (c.bop b).toNat))
def Core.doSffma (c : Core) (d a : Fin 32) (b : BOp) : Core :=
  c.landS 4 d (w32 (Fmt.fp32.fmaC .near 0 (c.sget a.val).toNat (c.bop b).toNat (c.sget d.val).toNat))
def Core.doSfmin (c : Core) (d a : Fin 32) (b : BOp) : Core :=
  c.landS 4 d (w32 (Fmt.fp32.minCode (c.sget a.val).toNat (c.bop b).toNat))
def Core.doSfmax (c : Core) (d a : Fin 32) (b : BOp) : Core :=
  c.landS 4 d (w32 (Fmt.fp32.maxOf (c.sget a.val).toNat (c.bop b).toNat))
/-- SLD: the 4 bytes as stage memory stands in the issue cycle (R395, R99); a bank a stream holds faults (R142). -/
def Core.doSld (c : Core) (d a : Fin 32) (imm : W32) : Core :=
  let ad := sldAddr (c.sget a.val) imm
  if c.mayAccess ad 4 then c.landS 4 d (w32 (leNat (c.stageBytes ad 4))) else c.fault 2 c.bptr
/-- SST: the bytes are stored by the third cycle after issue (R134). -/
def Core.doSst (c : Core) (d a : Fin 32) (imm : W32) : Core :=
  c.later 3 phLand (.store [(sldAddr (c.sget a.val) imm, leBytes 4 (c.sget d.val).toNat)])
/-- SCYC: bits [31:0] of the script cycle at issue (R128). -/
def Core.doScyc (c : Core) (d : Fin 32) : Core := c.landS 1 d (w32 c.scyc)

end Sys2Proof.Machine
end

