-- ==== Sys2Proof/Machine/SlotHinge.lean ====
section
/-! DEFINITION. What an array instruction does at its issue cycle (03:R64 to R66, R73, R75, R77, R81, R85; 04:R96):
one definition per instruction; its row accesses are put in flight at the cycles of its pipeline. -/
namespace Sys2Proof.Machine

/-- The descriptor index of an HLOAD: DESC + 1 when ALT is 1 and USE bit UCUE is 1 at issue (R148). -/
def Core.loadDesc (c : Core) (desc : BitVec 12) (alt : Bool) (ucue : Fin 64) : Nat :=
  desc.toNat + (if alt && c.use.getLsbD ucue.val then 1 else 0)

/-- HLOAD reads from its issue cycle to 63 cycles later; the plane is usable 64 cycles later (R65, log 9). -/
def Core.doHload (c : Core) (desc : BitVec 12) (ba : Fin 32) (alt : Bool) (ucue : Fin 64) : Core :=
  match c.hloadOp (c.loadDesc desc alt ucue) ba with
  | none => c
  | some d =>
    if c.hloadMay d then
      ({ c with loaded := (d.arr * 2 + d.plane) :: c.loaded }).later 63 phRead (.loadEnd d [c.readPlane d])
    else c.fault 2 c.bptr

/-- Whether HMUL's planes pass the check of R396 at issue: each pairs with FMT_X, all set one mode, and a plane that
no HLOAD of this launch has loaded sets the mode FMT_X gives alone. -/
def Core.mulPlanesOk (c : Core) (d : HmulD) : Bool :=
  let x := fmtOf d.fmt
  let m (a : Nat) : Option HMode := hmode x (c.plane a d.plane).fmt
  let as := arrsOf d.arrs
  as.all (fun a => (m a).isSome && (c.loaded.contains (a * 2 + d.plane) || m a == hmodeAlone x)
    && m a == m (as.headD 0))

/-- The mode of an HMUL at issue. -/
def Core.mulMode (c : Core) (d : HmulD) : HMode :=
  (hmode (fmtOf d.fmt) (c.plane ((arrsOf d.arrs).headD 0) d.plane).fmt).getD .single

/-- HMUL: input row j is read at issue + j, or + 2j in double-pass mode, and its sums are accumulated 14, or 15,
cycles later (R73). A failed format check faults with kind 0x06 before any row is read (R396). -/
def Core.doHmul (c : Core) (desc : BitVec 12) (ba bb : Fin 32) : Core :=
  match c.hmulOp desc.toNat ba bb with
  | none => c
  | some d =>
    if c.mulPlanesOk d then
      let dbl := c.mulMode d = .double
      (List.range d.rows).foldl (fun c j =>
        c.later (if dbl then 2 * j else j) phRead
          (.mulRow d j ((d.accRow + j) % 512) (if dbl then 15 else 14))) c
    else c.fault 6 c.bptr

/-- PRELOAD: source row i is read at issue + i and written at the end of issue + i + 2 (R75). -/
def Core.doPreload (c : Core) (desc : BitVec 12) (ba bb : Fin 32) : Core :=
  match c.preloadOp desc.toNat ba bb with
  | none => c
  | some d =>
    (List.range (if d.kind = 1 then d.rows else 1)).foldl
      (fun c i => c.later i phRead (.preRow d i ((d.accRow + i) % 512))) c

/-- HSAVE: the words of row i move in cycles issue + 8i to + 8i + 7 (R85, R86). -/
def Core.doHsave (c : Core) (desc : BitVec 12) (ba bb : Fin 32) : Core :=
  match c.hsaveOp desc.toNat ba bb with
  | none => c
  | some d =>
    let as := arrsOf d.arrs
    (List.range d.rows).foldl (fun c i =>
      (as.zip (List.range as.length)).foldl (fun c am =>
        c.later (8 * i) phRead (.saveRow d am.2 am.1 i ((d.firstRow + i) % 512))) c) c

/-- HRESTORE: sixteen words per cycle and array, in the accumulator from issue + 8i + 10 (R85, R86). R85 does not say which
words move in which cycle: columns 16q to 16q + 15 are read at issue + 8i + q (DESIGN CHOICE, log 66). -/
def Core.doHrestore (c : Core) (desc : BitVec 12) (ba bb : Fin 32) : Core :=
  match c.hsaveOp desc.toNat ba bb with
  | none => c
  | some d =>
    let as := arrsOf d.arrs
    (List.range d.rows).foldl (fun c i =>
      (as.zip (List.range as.length)).foldl (fun c am =>
        (List.range 8).foldl (fun c q =>
          c.later (8 * i + q) phRead (.restWords d am.2 am.1 i ((d.firstRow + i) % 512) q)) c) c) c

/-- HDRAIN: row i is read at issue + i; P, Qr, GRID_EXP, C0 and the generator are those of the issue cycle
(R78, R79, R96, R123). -/
def Core.doHdrain (c : Core) (desc : BitVec 12) (ba bb : Fin 32) : Core :=
  match c.hdrainOp desc.toNat ba bb with
  | none => c
  | some d =>
    (List.range d.rows).foldl (fun k i =>
      k.later i phRead (.drainRead d (c.sget d.sp) (c.sget d.sq) (signedOf 16 (c.sget d.se).toNat) (c.c0Of d.arr)
        (c.bound d.arr) i ((d.accRow + i) % 512))) c

/-- HAMAX: the record at the end of the issue cycle, in stage memory two cycles after issue (R81, R58). -/
def Core.doHamax (c : Core) (arr : Fin 2) (clr : Bool) (dst : BitVec 23) : Core :=
  c.later 0 phRecRead (.recRead arr.val clr dst.toNat)

/-- HDPARAM: C0 for drains issued from the next cycle on (R96). -/
def Core.doHdparam (c : Core) (arr : Fin 2) (sc : Fin 32) : Core := c.later 1 phLand (.c0 arr.val (c.sget sc.val))

/-- The format that a plane has once the load in flight into it, if any, has ended (R82, R396). -/
def Core.planeNext (c : Core) (arr pl : Nat) : Fmt :=
  match c.flight.findSome? (fun p => match p.op with
    | .loadEnd d _ => if d.arr = arr ∧ d.plane = pl then some (fmtOf d.fmt) else none
    | .plane k q => if k = arr * 2 + pl then some q.fmt else none
    | _ => none) with
  | some f => if f = .int4 || f = .int2 then .bf16 else f
  | none => (c.plane arr pl).fmt

/-- Whether an HMUL that reaches issue is to run in double-pass mode (R67, R82). -/
def Core.mulDouble (c : Core) (d : HmulD) : Bool :=
  hmode (fmtOf d.fmt) (c.planeNext ((arrsOf d.arrs).headD 0) d.plane) == some .double

/-- The accesses of an array instruction to planes and accumulator rows, for the interlock (R82, R83). -/
def Core.accsOf (c : Core) (i : Instr) : List ArrAcc :=
  match i with
  | .hload _ desc ba alt u =>
    match c.hloadOp (c.loadDesc desc alt u) ba with
    | some d => [.load d.arr d.plane 0]
    | none => []
  | .hmul _ desc ba bb =>
    match c.hmulOp desc.toNat ba bb with
    | some d => (arrsOf d.arrs).map (fun a => .mul a d.plane 0 d.accRow d.rows (c.mulDouble d))
    | none => []
  | .preload _ desc ba bb =>
    match c.preloadOp desc.toNat ba bb with
    | some d => [.pre d.arr 0 d.accRow d.rows]
    | none => []
  | .hsave _ desc ba bb =>
    match c.hsaveOp desc.toNat ba bb with
    | some d => (arrsOf d.arrs).map (fun a => .save a 0 d.firstRow d.rows)
    | none => []
  | .hrestore _ desc ba bb =>
    match c.hsaveOp desc.toNat ba bb with
    | some d => (arrsOf d.arrs).map (fun a => .rest a 0 d.firstRow d.rows)
    | none => []
  | .hdrain _ desc ba bb =>
    match c.hdrainOp desc.toNat ba bb with
    | some d => [.drain d.arr 0 d.accRow d.rows]
    | none => []
  | _ => []

end Sys2Proof.Machine
end

