-- ==== Sys2Proof/Machine/SlotVector.lean ====
section
/-! DEFINITION. What a vector instruction does at its issue cycle (05:R102 to R125): one definition per instruction.
Operands, mask and VLEN are those of the issue cycle; results land in the last cycle of the latency of R105. -/
namespace Sys2Proof.Machine

/-- Element results land in a vector register. -/
def Core.landV (c : Core) (lat w : Nat) (d : Fin 32) (ws : List (Nat × Nat)) : Core :=
  let (m, v) := elemWrites w ws
  c.later lat phLand (.vreg d m v)

/-- Bit results land in a mask register. -/
def Core.landM (c : Core) (lat : Nat) (d : Fin 8) (ws : List (Nat × Bool)) : Core :=
  let (m, v) := maskWrites ws
  c.later lat phLand (.mreg d m v)

/-- One result per active element. -/
def Core.mapV (c : Core) (lat : Nat) (e : VEn) (d : Fin 32) (f : Nat → Nat) : Core :=
  c.landV lat e.w.bits d ((c.active e).map (fun i => (i, f i)))

/-- Element `i` of a register at the instruction's width. -/
def Core.el (c : Core) (e : VEn) (r : Fin 32) (i : Nat) : Nat := elemAt e.w.bits (c.vget r.val) i

/-- A draw of a generator under RND = 0b10 (R122): the generator at issue and the core after the draw. -/
def Core.draw (c : Core) (rnd : Rnd) (g : Fin 16) : Gen × Core :=
  let x := c.gen g.val
  (x, if rnd = .stoch then c.setGen g.val x.next else c)

/-- A two-operand float instruction (R109 to R111). -/
def Core.float2 (c : Core) (lat : Nat) (e : VEn) (d a : Fin 32) (b : VB) (g : RG) (f : Nat → Nat → Nat → Nat) : Core :=
  let (x, c') := c.draw g.rnd g.gs
  c'.landV lat e.w.bits d ((c.active e).map (fun i => (i, f (x.elemBits e.w.bits i) (c.el e a i) (c.vbElem b e.w.bits i))))

/-- A one-operand float instruction (R111). -/
def Core.float1 (c : Core) (lat : Nat) (e : VEn) (d a : Fin 32) (g : RG) (f : Nat → Nat → Nat) : Core :=
  let (x, c') := c.draw g.rnd g.gs
  c'.landV lat e.w.bits d ((c.active e).map (fun i => (i, f (x.elemBits e.w.bits i) (c.el e a i))))

/-- An integer instruction with saturation or wrapping (R112). -/
def Core.int2 (c : Core) (lat : Nat) (e : VEn) (d a : Fin 32) (b : VB) (ovf : Bool) (f : Int → Int → Int) : Core :=
  let w := e.w.bits
  c.mapV lat e d (fun i => intOut w ovf (f (signedOf w (c.el e a i)) (signedOf w (c.vbElem b w i))))

def Core.doVmov (c : Core) (e : VEn) (d s : Fin 32) : Core := c.mapV 2 e d (fun i => c.el e s i)
def Core.doVbcast (c : Core) (e : VEn) (d a : Fin 32) : Core :=
  c.mapV 2 e d (fun _ => (c.sget a.val).toNat % 2 ^ e.w.bits)
def Core.doViota (c : Core) (e : VEn) (d : Fin 32) : Core := c.mapV 2 e d (fun i => i % 2 ^ e.w.bits)
def Core.doVand (c : Core) (e : VEn) (d a : Fin 32) (b : VB) : Core :=
  c.mapV 2 e d (fun i => c.el e a i &&& c.vbElem b e.w.bits i)
def Core.doVor (c : Core) (e : VEn) (d a : Fin 32) (b : VB) : Core :=
  c.mapV 2 e d (fun i => c.el e a i ||| c.vbElem b e.w.bits i)
def Core.doVxor (c : Core) (e : VEn) (d a : Fin 32) (b : VB) : Core :=
  c.mapV 2 e d (fun i => c.el e a i ^^^ c.vbElem b e.w.bits i)
def Core.doVnot (c : Core) (e : VEn) (d a : Fin 32) : Core :=
  c.mapV 2 e d (fun i => 2 ^ e.w.bits - 1 - c.el e a i)
def Core.doVshl (c : Core) (e : VEn) (d a : Fin 32) (b : VB) : Core :=
  c.mapV 2 e d (fun i => shlN e.w.bits (c.el e a i) (c.vbElem b e.w.bits i))
def Core.doVshr (c : Core) (e : VEn) (d a : Fin 32) (b : VB) : Core :=
  c.mapV 2 e d (fun i => shrN e.w.bits (c.el e a i) (c.vbElem b e.w.bits i))
def Core.doVsra (c : Core) (e : VEn) (d a : Fin 32) (b : VB) : Core :=
  c.mapV 2 e d (fun i => sraN e.w.bits (c.el e a i) (c.vbElem b e.w.bits i))
/-- VSMV: element EIDX alone, if it is active (R108). -/
def Core.doVsmv (c : Core) (e : VEn) (d a : Fin 32) (x : Fin 512) : Core :=
  c.landV 2 e.w.bits d (((c.active e).filter (· == x.val)).map (fun i => (i, (c.sget a.val).toNat % 2 ^ e.w.bits)))
/-- VMVS: element EIDX, zero-extended; VLEN and the mask do not apply (R108). -/
def Core.doVmvs (c : Core) (w : VW) (d s : Fin 32) (x : Fin 512) : Core :=
  c.landS 2 d (w32 (elemAt w.bits (c.vget s.val) x.val))
/-- VSETLEN: in effect for instructions issued from the next cycle on (R103). -/
def Core.doVsetlen (c : Core) (im : Bool) (a : Fin 32) (n : BitVec 10) : Core :=
  c.later 1 phLand (.vlen (min 512 (if im then n.toNat else (c.sget a.val).toNat)))
def Core.doViadd (c : Core) (e : VEn) (d a : Fin 32) (b : VB) (o : Bool) : Core := c.int2 2 e d a b o (· + ·)
def Core.doVisub (c : Core) (e : VEn) (d a : Fin 32) (b : VB) (o : Bool) : Core := c.int2 2 e d a b o (· - ·)
def Core.doVimin (c : Core) (e : VEn) (d a : Fin 32) (b : VB) : Core := c.int2 2 e d a b true min
def Core.doVimax (c : Core) (e : VEn) (d a : Fin 32) (b : VB) : Core := c.int2 2 e d a b true max
def Core.doVimul (c : Core) (e : VEn) (d a : Fin 32) (b : VB) (o : Bool) : Core := c.int2 4 e d a b o (· * ·)
def Core.doVcmp (c : Core) (e : VEn) (d : Fin 8) (a : Fin 32) (b : VB) (f : Fmt) (k : VCond) : Core :=
  c.landM 2 d ((c.active e).map (fun i => (i, cmpHolds f k (c.el e a i) (c.vbElem b e.w.bits i))))
def Core.doVmand (c : Core) (e : VEn) (d a b : Fin 8) : Core :=
  c.landM 2 d ((c.active e).map (fun i => (i, (c.mget a.val).getLsbD i && (c.mget b.val).getLsbD i)))
def Core.doVmor (c : Core) (e : VEn) (d a b : Fin 8) : Core :=
  c.landM 2 d ((c.active e).map (fun i => (i, (c.mget a.val).getLsbD i || (c.mget b.val).getLsbD i)))
def Core.doVmxor (c : Core) (e : VEn) (d a b : Fin 8) : Core :=
  c.landM 2 d ((c.active e).map (fun i => (i, xor ((c.mget a.val).getLsbD i) ((c.mget b.val).getLsbD i))))
def Core.doVmnot (c : Core) (e : VEn) (d a : Fin 8) : Core :=
  c.landM 2 d ((c.active e).map (fun i => (i, !(c.mget a.val).getLsbD i)))
def Core.doVpopc (c : Core) (e : VEn) (d : Fin 32) (a : Fin 8) : Core :=
  c.landS 2 d (w32 ((c.active e).filter (fun i => (c.mget a.val).getLsbD i)).length)
def Core.doVadd (c : Core) (e : VEn) (d a : Fin 32) (b : VB) (f : Fmt) (g : RG) : Core :=
  c.float2 4 e d a b g (fun r x y => f.addC g.rnd r x y)
def Core.doVsub (c : Core) (e : VEn) (d a : Fin 32) (b : VB) (f : Fmt) (g : RG) : Core :=
  c.float2 4 e d a b g (fun r x y => f.subC g.rnd r x y)
def Core.doVmul (c : Core) (e : VEn) (d a : Fin 32) (b : VB) (f : Fmt) (g : RG) : Core :=
  c.float2 4 e d a b g (fun r x y => f.mulC g.rnd r x y)
def Core.doVfma (c : Core) (e : VEn) (d a b k : Fin 32) (f : Fmt) (g : RG) : Core :=
  let (x, c') := c.draw g.rnd g.gs
  c'.landV 4 e.w.bits d ((c.active e).map (fun i =>
    (i, f.fmaC g.rnd (x.elemBits e.w.bits i) (c.el e a i) (c.el e b i) (c.el e k i))))
/-- VMIN and VMAX ignore RND, so they draw nothing (R108, R110; DEDUCED, log 61). -/
def Core.doVmin (c : Core) (e : VEn) (d a : Fin 32) (b : VB) (f : Fmt) (_g : RG) : Core :=
  c.mapV 4 e d (fun i => f.minCode (c.el e a i) (c.vbElem b e.w.bits i))
def Core.doVmax (c : Core) (e : VEn) (d a : Fin 32) (b : VB) (f : Fmt) (_g : RG) : Core :=
  c.mapV 4 e d (fun i => f.maxOf (c.el e a i) (c.vbElem b e.w.bits i))
def Core.doVabs (c : Core) (e : VEn) (d a : Fin 32) (f : Fmt) : Core := c.mapV 4 e d (fun i => f.absCode (c.el e a i))
def Core.doVneg (c : Core) (e : VEn) (d a : Fin 32) (f : Fmt) : Core := c.mapV 4 e d (fun i => f.negCode (c.el e a i))
def Core.doVdiv (c : Core) (e : VEn) (d a : Fin 32) (b : VB) (f : Fmt) (g : RG) : Core :=
  c.float2 14 e d a b g (fun r x y => f.divC g.rnd r x y)
def Core.doVsqrt (c : Core) (e : VEn) (d a : Fin 32) (f : Fmt) (g : RG) : Core :=
  c.float1 14 e d a g (fun r x => f.finish (f.decode x).sqrt g.rnd r)
def Core.doVrsqrt (c : Core) (e : VEn) (d a : Fin 32) (f : Fmt) (g : RG) : Core :=
  c.float1 14 e d a g (fun r x => f.finish (f.decode x).rsqrt g.rnd r)
def Core.doVrecip (c : Core) (e : VEn) (d a : Fin 32) (f : Fmt) (g : RG) : Core :=
  c.float1 14 e d a g (fun r x => f.finish (f.decode x).recip g.rnd r)
def Core.doVexp2 (c : Core) (e : VEn) (d a : Fin 32) (f : Fmt) (g : RG) : Core :=
  c.float1 14 e d a g (fun r x => f.finish (f.decode x).exp2 g.rnd r)
def Core.doVlog2 (c : Core) (e : VEn) (d a : Fin 32) (f : Fmt) (g : RG) : Core :=
  c.float1 14 e d a g (fun r x => f.finish (f.decode x).log2 g.rnd r)

/-- The random bits of a VCVT element: by the narrower side's width (R122, log 25). -/
def cvtBits (g : Gen) (ws wd e : Nat) : Nat := g.elemBits (min ws wd) e

/-- VCVT (R115, R116): element OFF_S + e becomes element OFF_D + e; the record counts it from issue + 3. -/
def Core.doVcvt (c : Core) (e : VEn) (o : VCvtOp) : Core :=
  let ws := o.fmtS.width
  let wd := o.fmtD.width
  let l := min c.vlen (128 * (32 / max ws wd))
  let act := (List.range l).filter (fun i => !e.masked || (c.mget e.m.val).getLsbD i)
  let grid := signedOf 16 (c.sget o.se.val).toNat
  let cv : Conv :=
    { dst := o.fmtD, block := false, rnd := o.rnd, sat := o.sat, ovf := o.ovf, p := c.sget o.sp.val,
      q := c.sget o.sq.val, gridS := if o.fmtS = .bi32 then some grid else none,
      gridD := if o.fmtD = .bi32 then some grid else none }
  let (x, c') := c.draw o.rnd o.gs
  let srcs := act.map (fun i =>
    (srcOf o.fmtS grid (elemAt ws (c.vget o.vs.val) (o.offS.val * 128 + i)), cvtBits x ws wd i))
  let (codes, _, a) := cv.row srcs Amax.zero
  (c'.landV 4 wd o.vd ((act.map (fun i => o.offD.val * 128 + i)).zip codes)).later 3 phRecAdd (.recAdd (2 + o.rc.val) a)

/-- VPERM (R117): an index of Lmax(w) or more gives 0. -/
def Core.doVperm (c : Core) (e : VEn) (d s x : Fin 32) : Core :=
  c.mapV 6 e d (fun i => let j := c.el e x i; if j < e.w.lmax then c.el e s j else 0)

/-- The active elements whose bit in a mask register is 1 (R117). -/
def Core.chosen (c : Core) (e : VEn) (m : Fin 8) : List Nat :=
  (c.active e).filter (fun i => (c.mget m.val).getLsbD i)

def Core.doVcompress (c : Core) (e : VEn) (d s : Fin 32) (m : Fin 8) (sc : Fin 32) : Core :=
  let xs := c.chosen e m
  (c.landV 6 e.w.bits d ((List.range xs.length).zip (xs.map (fun i => c.el e s i)))).landS 6 sc (w32 xs.length)
def Core.doVexpand (c : Core) (e : VEn) (d s : Fin 32) (m : Fin 8) : Core :=
  let xs := c.chosen e m
  c.landV 6 e.w.bits d (xs.zip ((List.range xs.length).map (fun j => c.el e s j)))
def Core.doVcidx (c : Core) (e : VEn) (d : Fin 32) (m : Fin 8) (sc : Fin 32) : Core :=
  let xs := c.chosen e m
  (c.landV 6 e.w.bits d ((List.range xs.length).zip (xs.map (fun i => i % 2 ^ e.w.bits)))).landS 6 sc (w32 xs.length)

/-- VRSUM and VRSSQ (R118). -/
def Core.sumV (c : Core) (sq : Bool) (e : VEn) (d s : Fin 32) (f : Fmt) (g : RG) (ovf wide : Bool) : Core :=
  let codes := (c.active e).map (fun i => c.el e s i)
  let (x, c') := c.draw g.rnd g.gs
  if f.isFloat then c'.landS 10 d (w32 (floatSum sq f g.rnd (x.half 0 0 0) codes))
  else
    let t := intSum sq f codes
    if wide then
      (c'.landS 10 d (w32 (lowBits 64 t))).landS 10 (d + 1) (w32 (lowBits 64 t / 2 ^ 32))
    else c'.landS 10 d (w32 (intOut 32 ovf t))
def Core.doVrsum (c : Core) (e : VEn) (d s : Fin 32) (f : Fmt) (g : RG) (o wd : Bool) : Core := c.sumV false e d s f g o wd
def Core.doVrssq (c : Core) (e : VEn) (d s : Fin 32) (f : Fmt) (g : RG) (o wd : Bool) : Core := c.sumV true e d s f g o wd

/-- VRMAX and VRMIN (R119). -/
def Core.rankV (c : Core) (up : Bool) (e : VEn) (d s : Fin 32) (f : Fmt) : Core :=
  let r := rankFirst f up ((c.active e).map (fun i => (i, c.el e s i)))
  (c.landS 8 d (w32 r.1)).landS 8 (d + 1) (w32 r.2)
def Core.doVrmax (c : Core) (e : VEn) (d s : Fin 32) (f : Fmt) : Core := c.rankV false e d s f
def Core.doVrmin (c : Core) (e : VEn) (d s : Fin 32) (f : Fmt) : Core := c.rankV true e d s f

/-- VRTOPK (R120): values to lanes 0 on, indices to lanes 16 on, zeros to the rest of lanes 0 to 31. -/
def Core.doVrtopk (c : Core) (e : VEn) (d s : Fin 32) (k : BitVec 5) (order : Bool) (sc : Fin 32) (f : Fmt) : Core :=
  let xs := (c.active e).map (fun i => (i, c.el e s i))
  let top := (ranked f order xs).take k.toNat
  let lanes := (List.range 32).map (fun l =>
    (l, if l < 16 then (match top[l]? with | some p => canonCode f p.2 | none => 0)
        else (match top[l - 16]? with | some p => p.1 | none => 0)))
  (c.landV 12 32 d lanes).landS 12 sc (w32 top.length)

/-- The bits of the active elements of lanes of 32-bit results. -/
def Core.lanesV (c : Core) (e : VEn) (d : Fin 32) (f : Nat → Nat) : Core :=
  let w := e.w.bits
  c.landV 6 w d ((c.active e).map (fun i => (i, f (i * w / 32) / 2 ^ (i * w % 32) % 2 ^ w)))

def Core.doVrand (c : Core) (e : VEn) (d : Fin 32) (g : Fin 16) : Core :=
  let (x, c') := c.draw .stoch g
  c'.lanesV e d (fun l => x.word l 0)
def Core.doVrand4 (c : Core) (e : VEn) (d : Fin 32) (g : Fin 16) : Core :=
  let (x, c') := c.draw .stoch g
  (List.range 4).foldl (fun c j => c.lanesV e (Fin.ofNat 32 (d.val + j)) (fun l => x.word l j)) c'
/-- VRANDU: (word 0 div 2^8) × 2^−24 as FP32 (R122). -/
def Core.doVrandu (c : Core) (e : VEn) (d : Fin 32) (g : Fin 16) : Core :=
  let (x, c') := c.draw .stoch g
  c'.lanesV e d (fun l => Fmt.fp32.finish (.fin false ⟨x.word l 0 / 2 ^ 8, -24, false⟩) .near 0)
def Core.doVrandm (c : Core) (e : VEn) (d : Fin 8) (g : Fin 16) (st : Fin 32) : Core :=
  let (x, c') := c.draw .stoch g
  c'.landM 6 d ((c.active e).map (fun i => (i, decide (x.elemWord e.w.bits i < (c.sget st.val).toNat))))

/-- VADAMW (R125): at most 128 parameters; θ, the moments and the copy land after 24 cycles, and the record counts
the copy in the last of them. -/
def Core.doVadamw (c : Core) (e : VEn) (o : VAdamOp) : Core :=
  let act := (List.range (min c.vlen 128)).filter (fun i => !e.masked || (c.mget e.m.val).getLsbD i)
  let sc := (List.range 11).map (fun i => c.sget (o.sb.val + i))
  let (x, c') := c.draw o.rndm o.gs
  let el (r : Fin 32) (i : Nat) : Nat := elemAt 32 (c.vget r.val) i
  let outs : List (Nat × AdamOut) := act.map (fun i => (i, adamElem o sc (el o.va i) (el o.vb i) (el o.vc i) (x.half i 0 0) (x.half i 0 1) Amax.zero))
  let a := outs.foldl (fun (acc : Amax) (p : Nat × AdamOut) =>
    (⟨max acc.amax p.2.ra.amax, acc.nan + p.2.ra.nan, acc.inf + p.2.ra.inf, acc.sat + p.2.ra.sat,
      acc.sticky + p.2.ra.sticky⟩ : Amax)) Amax.zero
  let c' := c'.landV 24 32 o.va (outs.map (fun p => (p.1, p.2.theta)))
  let c' := c'.landV 24 32 o.vc (outs.map (fun p => (p.1, p.2.moments)))
  let c' := match o.fmtC with
    | some f => c'.landV 24 f.width o.vd (outs.map (fun (p : Nat × AdamOut) => (p.1, p.2.copy.getD 0)))
    | none => c'
  c'.later 23 phRecAdd (.recAdd (2 + o.rc.val) a)

/-- VAMAX (R116, R58). -/
def Core.doVamax (c : Core) (rc : Fin 4) (dst : BitVec 23) (clr : Bool) : Core :=
  c.later 0 phRecRead (.recRead (2 + rc.val) clr dst.toNat)

/-- VGSET (R123): from the next cycle on. -/
def Core.doVgset (c : Core) (g : Fin 16) (field : BitVec 2) (a b : Fin 32) : Core :=
  let x := (c.sget a.val).toNat
  let y := (c.sget b.val).toNat
  let v := match field.toNat with
    | 0 => x + y * 2 ^ 32
    | 3 => x + y % 2 ^ 16 * 2 ^ 32
    | _ => x
  c.later 1 phGen (.genSet g field.toNat v)
/-- VGGET (R123): DRAW in the layout of VGSET. -/
def Core.doVgget (c : Core) (g : Fin 16) (a b : Fin 32) : Core :=
  let x := (c.gen g.val).draw
  (c.landS 1 a (w32 x)).landS 1 b (w32 (x / 2 ^ 32))
def Core.doVgbind (c : Core) (arr : Fin 2) (g : Fin 16) : Core := c.later 1 phLand (.bind arr.val g)

/-- The bytes of the active elements at an address, as the span that is accessed (R104, R114, log 26). -/
def Core.spanMay (c : Core) (addr w : Nat) (act : List Nat) : Bool :=
  act.all (fun i => c.mayAccess (addr + i * w / 8) (w / 8))

/-- VLD (R114): as stage memory stands in the issue cycle. -/
def Core.doVld (c : Core) (e : VEn) (d : Fin 32) (src : BitVec 23) : Core :=
  let w := e.w.bits
  let act := c.active e
  if c.spanMay src.toNat w act then
    c.landV 4 w d (act.map (fun i => (i, leNat (c.stageBytes (src.toNat + i * w / 8) (w / 8)))))
  else c.fault 2 c.bptr

/-- VLDT (R114): the row of element e is at SRC + e × STRIDE; NREG is held as NREG − 1. VL is held for NREG cycles, and the
spec does not say which column is read in which of them: all are read in the issue cycle (DESIGN CHOICE, log 66). -/
def Core.doVldt (c : Core) (e : VEn) (d : Fin 32) (src : BitVec 23) (ss : Fin 32) (col0 : BitVec 9) (nreg : Fin 32) : Core :=
  let w := e.w.bits
  let n := nreg.val + 1
  let st := let v := (c.sget ss.val).toNat; v - v % 64
  let act := c.active e
  let ad (i r : Nat) : Nat := (rowAddr src.toNat st i + (col0.toNat + r) * w / 8) % stageSize
  if act.all (fun i => c.mayAccess (ad i 0) (n * w / 8)) then
    (List.range n).foldl (fun k r =>
      k.landV (n + 4) w (Fin.ofNat 32 (d.val + r)) (act.map (fun i => (i, leNat (c.stageBytes (ad i r) (w / 8)))))) c
  else c.fault 2 c.bptr

/-- VLDM (R114). -/
def Core.doVldm (c : Core) (e : VEn) (d : Fin 8) (src : BitVec 23) : Core :=
  let act := c.active e
  if act.all (fun i => c.mayAccess (src.toNat + i / 8) 1) then
    c.landM 4 d (act.map (fun i => (i, (leNat (c.stageBytes (src.toNat + i / 8) 1)).testBit (i % 8))))
  else c.fault 2 c.bptr

/-- VST (R114, R105): the bytes of active elements are in stage memory from issue + 3. -/
def Core.doVst (c : Core) (e : VEn) (s : Fin 32) (dst : BitVec 23) : Core :=
  let w := e.w.bits
  c.later 3 phLand (.store ((c.active e).map (fun i => (dst.toNat + i * w / 8, leBytes (w / 8) (c.el e s i)))))

/-- VSTM (R114): Lmax(w) / 8 bytes, inactive bits 0. -/
def Core.doVstm (c : Core) (e : VEn) (m : Fin 8) (dst : BitVec 23) : Core :=
  let act := c.active e
  let v := act.foldl (fun acc i => acc + if (c.mget m.val).getLsbD i then 2 ^ i else 0) 0
  c.later 3 phLand (.store [(dst.toNat, leBytes (e.w.lmax / 8) v)])

end Sys2Proof.Machine
end

