-- ==== Sys2Proof/Machine/SlotControl.lean ====
section
/-! DEFINITION. What the CTL and SYNC instructions do to their core (06:R127, R131, R136, R138, R139, R145, R397;
08:R191, R201): one definition per instruction. Control flow answers the next bundle; CWAIT, HALT, PPOINT and SBRET
act with the issue of their bundle (Machine/Issue.lean). -/
namespace Sys2Proof.Machine

def Core.doNop (c : Core) : Core := c

/-- JMP: the next bundle (R136). -/
def Core.nextJmp (_c : Core) (t : BitVec 14) : Option Nat := some t.toNat
/-- BRZ, BRNZ: the target when taken (R131). -/
def Core.nextBrz (c : Core) (a : Fin 32) (t : BitVec 14) : Option Nat := if c.sget a.val = 0 then some t.toNat else none
def Core.nextBrnz (c : Core) (a : Fin 32) (t : BitVec 14) : Option Nat := if c.sget a.val = 0 then none else some t.toNat

/-- A loop of `n` iterations over the bundles after this one to END: the bundle pointer and the loop stack (R397). -/
def Core.enterLoop (c : Core) (n last : Nat) : Nat × List LoopEntry :=
  if n = 0 then endCount last c.loops
  else (c.bptr + 1, { first := c.bptr + 1, last := last, remaining := n } :: c.loops)

def Core.nextLoop (c : Core) (n : BitVec 24) (endB : BitVec 14) : Nat × List LoopEntry := c.enterLoop n.toNat endB.toNat
/-- LOOPR takes its count from S[SA][23:0] at issue (R131, R397). -/
def Core.nextLoopr (c : Core) (a : Fin 32) (endB : BitVec 14) : Nat × List LoopEntry :=
  c.enterLoop ((c.sget a.val).toNat % 2 ^ 24) endB.toNat

/-- SBREG arms a stand-by slot (R145). -/
def Core.doSbreg (c : Core) (sb : Fin 8) (entry : BitVec 14) : Core :=
  c.setSlot sb.val { armed := true, entry := entry.toNat }

/-- CRET (R138, R191, R201): the cue, or the pair of cues under UNDERSTUDY, is armed with the context's policy and
recorded for the buffer; banks that the script holds pass at the end of the cycle. -/
def Core.doCret (c : Core) (st : Fin 128) (buf : Fin 8) (cue : Fin 64) (dl : Dl) : Core :=
  let x := c.ctx st.val
  let und := x.pol = 2
  let pairs : List (Nat × Nat) := if und then [(buf.val, cue.val), (buf.val + 1, cue.val + 1)] else [(buf.val, cue.val)]
  let bad := (und && (buf.val % 2 = 1 || cue.val % 2 = 1))
    || pairs.any (fun p => decide (x.nbuf < p.1) || x.armed.testBit p.1 || (c.cue p.2).armed)
  if bad then c.fault 3 c.bptr
  else
    let ddl := c.scyc + c.dlVal dl
    pairs.foldl (fun k p =>
      let give := !x.held.testBit p.1
      let k := (k.arm p.2 ddl x.pol (some (st.val, p.1))).updCtx st.val (fun y =>
        { y with cues := Tab.set 0 y.cues p.1 p.2, armed := setBitN y.armed p.1 true })
      if give then k.later 1 phPass (.passBank st.val p.1) else k) c

/-- CARM (R138): policies 0b10 and 0b11 act as STALL. -/
def Core.doCarm (c : Core) (cue : Fin 64) (pol : BitVec 2) (dl : Dl) : Core :=
  if (c.cue cue.val).armed then c.fault 3 c.bptr
  else c.arm cue.val (c.scyc + c.dlVal dl) (if pol.toNat = 1 then 1 else 0) none

/-- CPOST (R131, R139): the absolute deadline of S[DREG + 1][7:0] and S[DREG]. -/
def Core.doCpost (c : Core) (dest : Fin 128) (cue : Fin 64) (dreg : Fin 32) : Core :=
  c.tell (.post dest.val cue.val ((c.sget (dreg.val + 1)).toNat % 256 * 2 ^ 32 + (c.sget dreg.val).toNat))

/-- CDROP (R138, R191): the cue is disarmed, and the ARMED bit of every buffer that records it is cleared. -/
def Core.doCdrop (c : Core) (cue : Fin 64) : Core :=
  let clear (x : SCtx) : SCtx :=
    (List.range 8).foldl (fun y b =>
      if y.armed.testBit b && y.cueOf b == cue.val then { y with armed := setBitN y.armed b false } else y) x
  let c := c.disarm cue.val
  (List.range 128).foldl (fun k i => if Tab.has k.ctxs i then k.updCtx i clear else k) c

end Sys2Proof.Machine
end

