-- ==== Sys2Proof/Machine/Issue.lean ====
section
/-! DEFINITION. The issue of a bundle (06:R128, R136, R141 to R152, R155, R156; log 6): interlock hold, cue wait, the
slots in slot order, control flow, and the end of the cycle; and the events of a held core. -/
namespace Sys2Proof.Machine

/-- The core a script instruction issues on, and whether it is the last slot of its bundle. -/
def issueOf : Instr → Option Issue
  | .nop i | .halt i | .jmp i _ | .brz i _ _ | .brnz i _ _ | .loop i _ _ | .loopr i _ _ | .cwait i _ _ _ | .sbreg i _ _
  | .sbret i | .ppoint i | .cret i _ _ _ _ | .carm i _ _ _ | .cpost i _ _ _ | .cdrop i _ => some i
  | .sli i _ _ | .smov i _ _ | .sadd i _ _ _ | .ssub i _ _ _ | .sand i _ _ _ | .sor i _ _ _ | .sxor i _ _ _
  | .sshl i _ _ _ | .sshr i _ _ _ | .ssra i _ _ _ | .scmp i _ _ _ _ | .smul i _ _ _ | .sfadd i _ _ _ | .sfsub i _ _ _
  | .sfmul i _ _ _ | .sffma i _ _ _ | .sfmin i _ _ _ | .sfmax i _ _ _ | .sld i _ _ _ | .sst i _ _ _ | .scyc i _ => some i
  | .hload i _ _ _ _ | .hmul i _ _ _ | .preload i _ _ _ | .hsave i _ _ _ | .hrestore i _ _ _ | .hdrain i _ _ _
  | .hamax i _ _ _ | .hdparam i _ _ => some i
  | .vmov i _ _ _ | .vbcast i _ _ _ | .viota i _ _ | .vand i _ _ _ _ | .vor i _ _ _ _ | .vxor i _ _ _ _ | .vnot i _ _ _
  | .vshl i _ _ _ _ | .vshr i _ _ _ _ | .vsra i _ _ _ _ | .vsmv i _ _ _ _ | .vmvs i _ _ _ _ | .vsetlen i _ _ _ => some i
  | .viadd i _ _ _ _ _ | .visub i _ _ _ _ _ | .vimin i _ _ _ _ | .vimax i _ _ _ _ | .vimul i _ _ _ _ _
  | .vcmp i _ _ _ _ _ _ | .vmand i _ _ _ _ | .vmor i _ _ _ _ | .vmxor i _ _ _ _ | .vmnot i _ _ _ | .vpopc i _ _ _ => some i
  | .vadd i _ _ _ _ _ _ | .vsub i _ _ _ _ _ _ | .vmul i _ _ _ _ _ _ | .vfma i _ _ _ _ _ _ _ | .vmin i _ _ _ _ _ _
  | .vmax i _ _ _ _ _ _ | .vabs i _ _ _ _ | .vneg i _ _ _ _ | .vdiv i _ _ _ _ _ _ | .vsqrt i _ _ _ _ _
  | .vrsqrt i _ _ _ _ _ | .vrecip i _ _ _ _ _ | .vexp2 i _ _ _ _ _ | .vlog2 i _ _ _ _ _ | .vcvt i _ _ => some i
  | .vperm i _ _ _ _ | .vcompress i _ _ _ _ _ | .vexpand i _ _ _ _ | .vcidx i _ _ _ _ | .vrsum i _ _ _ _ _ _ _
  | .vrssq i _ _ _ _ _ _ _ | .vrmax i _ _ _ _ | .vrmin i _ _ _ _ | .vrtopk i _ _ _ _ _ _ _ | .vrand i _ _ _
  | .vrand4 i _ _ _ | .vrandu i _ _ _ | .vrandm i _ _ _ _ | .vadamw i _ _ | .vamax i _ _ _ | .vgset i _ _ _ _
  | .vgget i _ _ _ | .vgbind i _ _ => some i
  | .vld i _ _ _ | .vldt i _ _ _ _ _ _ | .vldm i _ _ _ | .vst i _ _ _ | .vstm i _ _ _ => some i
  | _ => none

/-- The effect of one slot at the issue cycle of its bundle; CTL instructions act with the bundle. -/
def Core.slotEffect (c : Core) : Instr → Core
  | .nop _ => c.doNop
  | .sbreg _ s e => c.doSbreg s e
  | .cret _ s b q d => c.doCret s b q d
  | .carm _ q p d => c.doCarm q p d
  | .cpost _ k q r => c.doCpost k q r
  | .cdrop _ q => c.doCdrop q
  | .sli _ d v => c.doSli d v
  | .smov _ d a => c.doSmov d a
  | .sadd _ d a b => c.doSadd d a b
  | .ssub _ d a b => c.doSsub d a b
  | .sand _ d a b => c.doSand d a b
  | .sor _ d a b => c.doSor d a b
  | .sxor _ d a b => c.doSxor d a b
  | .sshl _ d a b => c.doSshl d a b
  | .sshr _ d a b => c.doSshr d a b
  | .ssra _ d a b => c.doSsra d a b
  | .scmp _ k d a b => c.doScmp k d a b
  | .smul _ d a b => c.doSmul d a b
  | .sfadd _ d a b => c.doSfadd d a b
  | .sfsub _ d a b => c.doSfsub d a b
  | .sfmul _ d a b => c.doSfmul d a b
  | .sffma _ d a b => c.doSffma d a b
  | .sfmin _ d a b => c.doSfmin d a b
  | .sfmax _ d a b => c.doSfmax d a b
  | .sld _ d a v => c.doSld d a v
  | .sst _ d a v => c.doSst d a v
  | .scyc _ d => c.doScyc d
  | .hload _ k a alt u => c.doHload k a alt u
  | .hmul _ k a b => c.doHmul k a b
  | .preload _ k a b => c.doPreload k a b
  | .hsave _ k a b => c.doHsave k a b
  | .hrestore _ k a b => c.doHrestore k a b
  | .hdrain _ k a b => c.doHdrain k a b
  | .hamax _ a k d => c.doHamax a k d
  | .hdparam _ a s => c.doHdparam a s
  | .vmov _ e d s => c.doVmov e d s
  | .vbcast _ e d a => c.doVbcast e d a
  | .viota _ e d => c.doViota e d
  | .vand _ e d a b => c.doVand e d a b
  | .vor _ e d a b => c.doVor e d a b
  | .vxor _ e d a b => c.doVxor e d a b
  | .vnot _ e d a => c.doVnot e d a
  | .vshl _ e d a b => c.doVshl e d a b
  | .vshr _ e d a b => c.doVshr e d a b
  | .vsra _ e d a b => c.doVsra e d a b
  | .vsmv _ e d a x => c.doVsmv e d a x
  | .vmvs _ w d s x => c.doVmvs w d s x
  | .vsetlen _ im a n => c.doVsetlen im a n
  | .viadd _ e d a b o => c.doViadd e d a b o
  | .visub _ e d a b o => c.doVisub e d a b o
  | .vimin _ e d a b => c.doVimin e d a b
  | .vimax _ e d a b => c.doVimax e d a b
  | .vimul _ e d a b o => c.doVimul e d a b o
  | .vcmp _ e d a b f k => c.doVcmp e d a b f k
  | .vmand _ e d a b => c.doVmand e d a b
  | .vmor _ e d a b => c.doVmor e d a b
  | .vmxor _ e d a b => c.doVmxor e d a b
  | .vmnot _ e d a => c.doVmnot e d a
  | .vpopc _ e d a => c.doVpopc e d a
  | .vadd _ e d a b f g => c.doVadd e d a b f g
  | .vsub _ e d a b f g => c.doVsub e d a b f g
  | .vmul _ e d a b f g => c.doVmul e d a b f g
  | .vfma _ e d a b k f g => c.doVfma e d a b k f g
  | .vmin _ e d a b f g => c.doVmin e d a b f g
  | .vmax _ e d a b f g => c.doVmax e d a b f g
  | .vabs _ e d a f => c.doVabs e d a f
  | .vneg _ e d a f => c.doVneg e d a f
  | .vdiv _ e d a b f g => c.doVdiv e d a b f g
  | .vsqrt _ e d a f g => c.doVsqrt e d a f g
  | .vrsqrt _ e d a f g => c.doVrsqrt e d a f g
  | .vrecip _ e d a f g => c.doVrecip e d a f g
  | .vexp2 _ e d a f g => c.doVexp2 e d a f g
  | .vlog2 _ e d a f g => c.doVlog2 e d a f g
  | .vcvt _ e o => c.doVcvt e o
  | .vperm _ e d s x => c.doVperm e d s x
  | .vcompress _ e d s m k => c.doVcompress e d s m k
  | .vexpand _ e d s m => c.doVexpand e d s m
  | .vcidx _ e d m k => c.doVcidx e d m k
  | .vrsum _ e d s f g o w => c.doVrsum e d s f g o w
  | .vrssq _ e d s f g o w => c.doVrssq e d s f g o w
  | .vrmax _ e d s f => c.doVrmax e d s f
  | .vrmin _ e d s f => c.doVrmin e d s f
  | .vrtopk _ e d s k o q f => c.doVrtopk e d s k o q f
  | .vrand _ e d g => c.doVrand e d g
  | .vrand4 _ e d g => c.doVrand4 e d g
  | .vrandu _ e d g => c.doVrandu e d g
  | .vrandm _ e d g s => c.doVrandm e d g s
  | .vadamw _ e o => c.doVadamw e o
  | .vamax _ r d k => c.doVamax r d k
  | .vgset _ g f a b => c.doVgset g f a b
  | .vgget _ g a b => c.doVgget g a b
  | .vgbind _ a g => c.doVgbind a g
  | .vld _ e d a => c.doVld e d a
  | .vldt _ e d a s k n => c.doVldt e d a s k n
  | .vldm _ e d a => c.doVldm e d a
  | .vst _ e s a => c.doVst e s a
  | .vstm _ e m a => c.doVstm e m a
  | _ => c

/-- One slot issues under an issue number of its own; a bundle's later slots issue whatever an earlier one faults on
(R128, R156). -/
def Core.issueSlot (c : Core) (i : Instr) : Core :=
  let c := c.slotEffect i
  { c with seq := c.seq + 1 }

/-- The bundle pointer and loop stack after a bundle: its control flow, else the loops that end there (R136, R397). -/
def Core.nextOf (c : Core) (slots : List Instr) : Nat × List LoopEntry :=
  let along : Nat × List LoopEntry := endCount c.bptr c.loops
  let dest (t : Option Nat) : Nat × List LoopEntry := match t with | some t => (t, c.loops) | none => along
  match slots.find? (fun i => match i with | .jmp .. | .brz .. | .brnz .. | .loop .. | .loopr .. => true | _ => false) with
  | some (.jmp _ t) => dest (c.nextJmp t)
  | some (.brz _ a t) => dest (c.nextBrz a t)
  | some (.brnz _ a t) => dest (c.nextBrnz a t)
  | some (.loop _ n e) => c.nextLoop n e
  | some (.loopr _ a e) => c.nextLoopr a e
  | _ => along

/-- The CWAIT of a bundle: cue, SBEN and SB. -/
def waitOf (slots : List Instr) : Option (Nat × Bool × Nat) :=
  slots.findSome? (fun i => match i with | .cwait _ c e s => some (c.val, e, s.val) | _ => none)

def hasHalt (slots : List Instr) : Bool := slots.any (fun i => match i with | .halt _ => true | _ => false)
def hasPpoint (slots : List Instr) : Bool := slots.any (fun i => match i with | .ppoint _ => true | _ => false)
def hasSbret (slots : List Instr) : Bool := slots.any (fun i => match i with | .sbret _ => true | _ => false)

/-- The accesses of a bundle's array instructions enter the interlock's list (R82). -/
def Core.noteAccs (c : Core) (slots : List Instr) : Core :=
  let new := (slots.flatMap c.accsOf).map (fun a => a.at c.now)
  { c with accs := (c.accs.filter (fun a => decide (c.now ≤ a.ends))) ++ new }

/-- HALT takes effect (R155): cues are disarmed and the core stops. -/
def Core.halted (c : Core) : Core := { c with st := .halted, cues := [], toks := c.toks }.tell .halted

/-- `busy` once the instructions with issue numbers from `q` on are in flight (R152). -/
def Core.busyAfter (c : Core) (q : Nat) : Nat :=
  ((c.flight.filter (fun p => decide (q ≤ p.seq))).map (fun p => c.scyc + (p.ends - c.now))).foldl max c.busy

/-- The slots of a bundle issue in slot order in the present cycle, and the cycle ends (R128). -/
def Core.commitPlain (e : CEnv) (c : Core) (slots : List Instr) : Core :=
  let nx := c.nextOf slots
  let c := (slots.foldl Core.issueSlot (c.noteAccs slots))
  let main := c.seg.isNone
  let c := { c with bptr := nx.1 % 2 ^ 14, loops := nx.2, scyc := if main then c.scyc + 1 else c.scyc, bundle := [],
                    busy := if main then c.busyAfter (c.seq - slots.length) else c.busy }
  if c.st = .faulted then c.settle e
  else if hasHalt slots then
    let c := c.drainAll e
    if c.st = .faulted then c else c.halted
  else if main && hasPpoint slots && (e.preempt || e.stop) then
    let c := c.drainAll e
    if c.st = .faulted then c
    else if e.stop then c.halted
    else { c with st := .preempted }.tell .preempted
  else (c.endCycle e).settle e

/-- The CWAIT of a bundle finds its cue (R141, R148, R201): the cue is consumed, USE bit c is 0, and the primary of a pair
under UNDERSTUDY, which is even, disarms c + 1. -/
def Core.consume (c : Core) (k : Nat) : Core :=
  let q := c.cue k
  let c := (c.disarm k).setUse k false
  if q.pol = 2 && k % 2 = 0 then c.disarm (k + 1) else c

/-- The understudy is taken (R127, R148, R149): USE bit c is 1, both cues are disarmed, the primary cue and its buffer are
abandoned, and a record goes to the launch's log. -/
def Core.takeUnder (c : Core) (k : Nat) : Core :=
  let x := match (c.cue k).buf with | some (x, _) => x | none => 0
  let c := ((((c.abandon k).disarm k).setCue k { aband := true }).disarm (k + 1)).setUse k true
  { c with understudyUses := satAdd 32 c.understudyUses 1 }.tell (.under c.scyc k x)

/-- The policy that a cue has in this launch (R143, R148 to R150): UNDERSTUDY only on the even cue of a pair, where it is
enabled, its log has room, and a replayed log names the CWAIT. -/
def Core.policy (e : CEnv) (c : Core) (k : Nat) : Nat :=
  let p := (c.cue k).pol
  if p = 2 then
    if k % 2 = 1 then 0
    else if e.replay then (if e.marks.contains (k, c.scyc) then 2 else 0)
    else if e.und && !e.full then 2 else 0
  else p

/-- Whether a bundle held with a slip kind waits for its understudy too; otherwise it waits under STALL, as it does once
the log is full (R143, R148, R149). -/
def Core.waitsUnder (e : CEnv) (c : Core) (slots : List Instr) (kind : Nat) : Bool :=
  kind = 0x82 && (match waitOf slots with | some (k, _, _) => c.policy e k == 2 | none => false)

/-- What is still in flight on a held core completes before it stops there (R153, R156). -/
def Core.finish (e : CEnv) (c : Core) : Core :=
  if c.flight.isEmpty then c else c.advance e ((c.flight.map Pend.ends).foldl max c.now + 1 - c.now)

/-- A core held at a preemption point sees that its launch is to stop, or a pending preemption (R152, R156). -/
def Core.yield (e : CEnv) (c : Core) : Core :=
  if e.stop then
    let c := c.finish e
    if c.st = .faulted then c.settle e else { c with heldAt := none }.halted
  else if e.preempt then
    let c := c.finish e
    if c.st = .faulted then c.settle e else { c with st := .preempted }.tell .preempted
  else c

/-- A bundle is held: the core waits at its CWAIT (R141, R143). At a preemption point, that is held under STALL with
nothing in flight at the CWAIT, a pending preemption or the stop of the launch acts at once (R152, R156). -/
def Core.hold (e : CEnv) (c : Core) (slots : List Instr) (kind : Nat) (miss : Nat) (clear : Bool) : Core :=
  let under := c.waitsUnder e slots kind
  let c := { c with st := .held, bundle := [], heldAt := some ⟨slots, c.bptr, miss, kind, clear⟩ }
  if under || !clear then c else c.yield e

/-- The interlock holds a bundle that issues again against what a stand-by segment has put in flight; that hold is part of
the miss (R82, R151). -/
def Core.reHold (e : CEnv) (c : Core) (slots : List Instr) : Core :=
  match holdOf c.now (slots.flatMap c.accsOf) c.accs with
  | none => c.startCycle e
  | some (n, _, _) => c.advance e n

/-- A missed bundle issues after all: the slip of its whole hold is counted, and its slots issue (R84, R151). -/
def Core.release (e : CEnv) (c : Core) (slots : List Instr) (miss kind : Nat) : Core :=
  let c := c.reHold e slots
  if c.st = .faulted then c.settle e
  else
    let s := c.now - miss
    let c := { c with st := .running, heldAt := none }
    (if s = 0 then c else c.slip kind 0 s).commitPlain e slots

/-- The CWAIT's bundle at its issue cycle (R141, R143, R145, R148): `again` carries the miss cycle and slip kind of a
bundle that is issued again. -/
def Core.waitStep (e : CEnv) (c : Core) (slots : List Instr) (k : Nat) (sben : Bool) (sb : Nat)
    (again : Option (Nat × Nat × Bool)) : Core :=
  let q := c.cue k
  if !q.armed || q.ddl ≠ c.scyc then (c.fault 1 c.bptr).settle e
  else
    let pol := c.policy e k
    let under := pol = 2 && (c.cue (k + 1)).vis && (e.replay || !q.vis)
    let miss := match again with | some a => a.1 | none => c.now
    let kind := match again with | some a => a.2.1 | none => if pol = 2 then 0x82 else 0x80
    let clear := match again with | some a => a.2.2 | none => decide (c.busy ≤ c.scyc)
    let first := again.isNone
    let count (c : Core) : Core := if first && !q.vis then { c with misses := satAdd 32 c.misses 1 } else c
    if under then
      let c := ((count c).takeUnder k).advance e 4
      if c.st = .faulted then c.settle e else c.release e slots miss 0x82
    else if q.vis && !(pol = 2 && e.replay) then
      (c.consume k).release e slots miss (if kind = 0x82 then 0x80 else kind)
    else if pol = 1 && sben && (c.slot sb).armed then
      let c := (count c).setSlot sb { c.slot sb with armed := false }
      { c with st := .standby, bundle := [], heldAt := some ⟨slots, c.bptr, miss, 0x81, clear⟩, seg := some (sb, true),
               bptr := (c.slot sb).entry }
    else (count c).hold e slots kind miss clear

/-- A held bundle is tried again in the present cycle. -/
def Core.retry (e : CEnv) (c : Core) : Core :=
  match c.heldAt with
  | none => c
  | some h =>
    match waitOf h.slots with
    | none => c
    | some (k, sben, sb) => c.waitStep e h.slots k sben sb (some (h.miss, h.kind, h.clear))

/-- SBRET's bundle (R145, R146, R151): bit SB of S31 is set, the run is counted, and in the next cycle the CWAIT's
bundle issues again. -/
def Core.endSegment (e : CEnv) (c : Core) : Core :=
  match c.seg, c.heldAt with
  | some (sb, _), some h =>
    let c := c.sset 31 (c.sget 31 ||| w32 (2 ^ sb))
    let c := { c with standbyRuns := satAdd 32 c.standbyRuns 1, seg := none, bptr := h.ptr, st := .held }
    c.retry e
  | _, _ => c

/-- A bundle reaches issue: the script-cycle limit, the interlock hold, its CWAIT, and its slots (R82, R84, R128,
R156). R82 gives no hold between array instructions of one bundle: they are held against earlier bundles only, and rows
that both touch are taken in slot order (DESIGN CHOICE, log 66). -/
def Core.issueBundle (e : CEnv) (c : Core) (slots : List Instr) : Core :=
  let c := c.startCycle e
  if c.st = .faulted then c.settle e
  else if c.seg.isNone && decide (2 ^ 40 ≤ c.scyc) then (c.fault 5 c.bptr).settle e
  else
    let c := if hasHalt slots then c.drainAll e else c
    let c := match holdOf c.now (slots.flatMap c.accsOf) c.accs with
      | none => c
      | some (s, k, a) =>
        let c := if c.seg.isNone then c.slip k a s else c
        c.advance e s
    if c.st = .faulted then c.settle e
    else match waitOf slots with
      | some (k, sben, sb) => c.waitStep e slots k sben sb none
      | none =>
        let inSeg := c.seg.isSome
        let c := c.commitPlain e slots
        if inSeg && hasSbret slots && c.st ≠ .faulted then c.endSegment e else c

/-- Whether a core takes the next slot of a bundle now. -/
def Core.issuing (c : Core) : Bool :=
  match c.st with
  | .running => true
  | .standby => match c.seg with | some (_, sw) => !sw | none => false
  | _ => false

/-- One slot command reaches the sequencer: the last slot of a bundle issues the bundle (log 6). -/
def Core.slotIn (e : CEnv) (c : Core) (i : Instr) (last : Bool) : Core :=
  if !c.issuing then c
  else
    let slots := c.bundle ++ [i]
    if last then c.issueBundle e slots else { c with bundle := slots }

/-- The 24 switch cycles of a stand-by switch run out (R145). -/
def Core.switchElapsed (e : CEnv) (c : Core) : Core :=
  match c.st, c.seg with
  | .standby, some (sb, true) => (({ c with seg := some (sb, false) }).advance e 24).settle e
  | _, _ => c

/-- Core cycles pass while the core is held: those under STALL count against the stall limit (R144). -/
def Core.waitCycles (e : CEnv) (c : Core) (n : Nat) : Core :=
  match c.heldAt with
  | some h =>
    if c.st ≠ .held then c
    else if c.waitsUnder e h.slots h.kind then (c.advance e n).settle e
    else if e.stall ≤ c.stalled + n then
      (((c.advance e (e.stall - c.stalled)).fault 4 h.ptr)).settle e
    else ({ c.advance e n with stalled := c.stalled + n }).settle e
  | none => c

/-- Tokens of the synchroniser become visible to the core (R139, R140, R154): `n` cycles pass first on a held core;
a core that waits at its CWAIT tries its bundle again. -/
def Core.visible (e : CEnv) (c : Core) (n : Nat) (ks : List Nat) (die : List (Nat × Nat)) : Core :=
  let c := c.waitCycles e n
  let (ts, rest) := takeAt c.toks ks
  let extra := die.map (fun p => (⟨.other, p.1, p.2, 0, 0, false, 1⟩ : Token))
  let c : Core := Core.applyTokens { c with toks := rest } (ts ++ extra)
  if c.st = .held then c.retry e else c

/-- The stall limit is reached (R144). -/
def Core.stallOut (e : CEnv) (c : Core) : Core :=
  match c.heldAt with
  | some h => if c.st = .held && !c.waitsUnder e h.slots h.kind then c.waitCycles e (e.stall - c.stalled) else c
  | none => c

/-- The script cycle has reached 2^40 (R156). -/
def Core.cycleLimit (e : CEnv) (c : Core) : Core :=
  if c.issuing && c.seg.isNone && decide (2 ^ 40 ≤ c.scyc) then (c.fault 5 c.bptr).settle e else c

/-- A preemption becomes pending, or the launch is to stop, while the core is held at a preemption point (R152,
R156). -/
def Core.atPoint (e : CEnv) (c : Core) : Core :=
  match c.heldAt with
  | some h =>
    if c.st = .held && !c.waitsUnder e h.slots h.kind && h.clear then c.yield e else c
  | none => c

/-- A preempted core resumes: at the bundle after its PPOINT, or with its held CWAIT issued again (R154). -/
def Core.resume (e : CEnv) (c : Core) : Core :=
  if c.st ≠ .preempted then c
  else match c.heldAt with
    | some _ => ({ c with st := .held }).retry e
    | none => { c with st := .running }

end Sys2Proof.Machine
end

