-- ==== Sys2Proof/Machine/Ending.lean ====
section
/-! DEFINITION. Launches on cores: what a core tells the device (06:R139, R149, R152, R153, R155, R156), how launches end
(06:R156, 11:R265, R268, R269), how tags fail (10:R248), and the freeze of a box (12:R294, R306). -/
namespace Sys2Proof.Machine

/-- The launch of a box by its number. -/
def Box.launch (x : Box) (num : Nat) : Option Launch := x.launches.find? (fun l => l.num == num)
def Box.updLaunch (x : Box) (num : Nat) (f : Launch → Launch) : Box :=
  { x with launches := x.launches.map (fun l => if l.num = num then f l else l) }
def State.updLaunch (s : State) (b num : Nat) (f : Launch → Launch) : State := s.updBox b (fun x => x.updLaunch num f)

/-- Whether a launch's cores include a box-local core. -/
def Launch.hasCore (l : Launch) (i : Nat) : Bool := decide (l.core0 ≤ i) && decide (i < l.core0 + l.ncore)
/-- The logical cores of a launch, in order of its script's cores. -/
def Box.launchCores (x : Box) (l : Launch) : List Nat := (x.coreList.drop l.core0).take l.ncore
/-- Whether two launches share a core. -/
def Launch.overlaps (l m : Launch) : Bool := decide (l.core0 < m.core0 + m.ncore) && decide (m.core0 < l.core0 + l.ncore)

/-- The launch that a logical core runs now: running, not stopped on the core and not preempted there. -/
def Box.runsOn (x : Box) (core : Nat) : Option Launch :=
  let i := x.localCore core
  x.launches.find? (fun l => l.st == .running && l.hasCore i && !l.haltedCores.contains i && !Tab.has l.saved core)

/-- Whether a preemption is pending for a launch on a core: a queued launch of higher priority that shares it, or a
context image asked for by BOX_DEBUG (06:R152, 14:R367). -/
def Box.preemptPending (x : Box) (l : Launch) (core : Nat) : Bool :=
  x.launches.any (fun m => m.st == .queued && m.epoch == x.openE && decide (l.prio < m.prio) && m.hasCore (x.localCore core))
  || (match x.debugJob with | some (_, _, cs) => cs.contains core | none => false)

/-- What a core is told of its launch. -/
def Box.env (x : Box) (l : Launch) (core : Nat) : CEnv where
  core := core
  und := l.under
  full := decide (4096 ≤ l.logged)
  replay := l.replay
  marks := (l.marks.filter (fun m => m.1 == x.localCore core)).map (fun m => m.2)
  stall := if l.stall = 0 then 2 ^ 32 else l.stall
  preempt := x.preemptPending l core
  stop := l.stop.isSome

/-- The staged target tiles of a tag are written back to their frames (10:R229). -/
def State.flushTag (s : State) (b tag : Nat) : State :=
  (List.range 16).foldl (fun s k =>
    let mine := (s.seat k).staged.filter (fun (g : Staged) => g.box == b && g.tag == tag)
    let s := mine.foldl (fun (s : State) (g : Staged) => (s.writeTile b g.tile g.data).getD s) s
    s.updSeat k fun x => { x with staged := x.staged.filter (fun (g : Staged) => !(g.box == b && g.tag == tag)) }) s

/-- A tag fails (10:R248): its target tiles hold what was applied, held reads of them complete with a bus error, held
contributions are dropped. -/
def State.failTag (s : State) (b tag : Nat) : State :=
  let t := Tab.get {} (s.box b).tags tag
  if t.st ≠ 1 then s
  else
    let s := (s.flushTag b tag).updBox b fun x =>
      { x with tags := Tab.set {} x.tags tag { t with st := 3 },
               tagFailed := x.tagFailed || x.launches.any (fun l => l.num == t.launch && l.epoch == x.openE) }
    let s := { s with reqs := s.reqs.map (fun (p : Nat × Option Req) => (p.1, match p.2 with
      | some r => if r.box = b && r.st == ReqSt.held && t.covers r.on then some { r with st := .failed } else some r
      | none => none)) }
    (List.range 16).foldl (fun s k => s.updSeat k fun x =>
      { x with holds := x.holds.filter (fun h => !(h.c.box.val == b && h.c.tag.toNat == tag)) }) s

/-- The tags that are open for a launch fail when it ends (10:R233). -/
def State.failLaunchTags (s : State) (b num : Nat) : State :=
  ((s.box b).tags.filter (fun (p : Nat × Tag) => p.2.st == 1 && p.2.launch == num)).foldl (fun s p => s.failTag b p.1) s

/-- The lead decides discard for the open epoch, once (11:R268). -/
def State.decideDiscard (s : State) (b cause : Nat) : State :=
  let x := s.box b
  if x.lead.decided then s
  else
    let s := s.updBox b fun x => { x with lead := { x.lead with decided := true } }
    (List.range (s.boxGroup b)).foldl (fun s d => s.send (.discardTo b d x.openE cause false)) s

/-- A launch of the open epoch ended without OK: the lead decides, any other device tells it (11:R268). The launches that a
freeze ends are told of as an alarm (12:R294). -/
def State.launchLost (s : State) (b : Nat) (l : Launch) : State :=
  let x := s.box b
  if l.epoch ≠ x.openE || x.st ≠ 3 || (x.frozen && decide (x.cst ≤ 2)) then s
  else if s.isLead b then s.decideDiscard b 1 else s.send (.launchFailed b l.epoch 1)

/-- What a core that stops at a launch boundary is in: HALT's state, cues disarmed (06:R155). -/
def Core.stopped (c : Core) : Core := { c with st := if c.st = .faulted then .faulted else .halted, cues := [], heldAt := none, bundle := [] }

/-- Whether a launch's run has finished on the device: every core stopped, and its writes complete (08:R209). -/
def State.allStopped (s : State) (b : Nat) (l : Launch) : Bool :=
  decide (l.haltedCores.length = l.ncore)
    && ((s.box b).launchCores l).all (fun k => ((s.box b).runsOn k).isSome || (s.core k).writesDone)

/-- The generators of the box's cores are loaded with a counter table (11:R262). -/
def State.loadGens (s : State) (b : Nat) (r : StepRec) : State :=
  let cs := (s.box b).coreList
  ((List.range cs.length).zip cs).foldl (fun s (p : Nat × Nat) =>
    let c := s.core p.2
    s.setCore p.2 { c with gs := (List.range 16).foldl (fun t g => Tab.set {} t g (Tab.get {} r.gens (p.1 * 16 + g))) c.gs }) s

/-- The SEAL launches of an epoch complete with a status; their tags that are still open fail (10:R233, 11:R265). -/
def State.endSeals (s : State) (b epoch status : Nat) : State :=
  ((s.box b).launches.filter (fun l => l.st == LaunchSt.sealed && l.epoch == epoch)).foldl (fun s l =>
    ((s.updLaunch b l.num fun l => { l with st := .ended }).endOp b l.opid status).failLaunchTags b l.num) s

/-- Status of the SEAL launch by a discard's cause (11:R269). -/
def discardStatus (cause : Nat) (allPassed : Bool) : Nat :=
  if cause = 1 then stBadParam else if cause = 5 then stAlarm else if cause = 6 then stCapacity
  else if cause = 7 then (if allPassed then stOk else stBadParam) else stHwFault

/-- The protected tiles of a box that are mapped, with their positions in list order (11:R258, R274). -/
def Box.protectedTiles (x : Box) : List (Nat × Nat) :=
  match x.curtain with
  | none => []
  | some c =>
    (c.runs.foldl (fun (acc : Nat × List (Nat × Nat)) r =>
      let ts := x.tiles.filter (fun (p : Nat × Tile) => decide (r.1 ≤ regionOf p.1) && decide (regionOf p.1 < r.1 + r.2) && p.2.st ≠ 0)
      (acc.1 + r.2 * 262144, acc.2 ++ ts.map (fun p => (acc.1 + (p.1 - r.1 * 262144), p.1)))) (0, [])).2

/-- A base mirror is begun (11:R275): every protected tile is sent, under the resolved epoch. None is in IMPORTED (R285). -/
def State.startBase (s : State) (b : Nat) : State :=
  let x := s.box b
  match x.curtain with
  | none => s
  | some c =>
    if c.p = 0 || x.partner = 3 || x.cst = 5 then s
    else
      let ts := x.protectedTiles
      let s := ((List.range ts.length).zip ts).foldl (fun s (p : Nat × Nat × Nat) => match s.readTile b p.2.2 with
        | some d => s.send (.mirrorTile b x.resolvedE p.2.1 (p.1 + 1 = ts.length) d)
        | none => s) s
      let s := s.updBox b fun x => { x with partner := 1, baseSent := ts.length }
      match x.baseOp with
      | some o => s.opProgress b o ts.length
      | none => s

/-- Bytes 0 to 0x29 of tile 0 of a step record (11:R260). -/
def stepHead (r : StepRec) (ncore dev size : Nat) : List Byte :=
  leBytes 2 0x5352 ++ leBytes 2 1 ++ leBytes 4 r.epoch ++ leBytes 8 r.step ++ leBytes 8 r.dstep ++ leBytes 8 r.sample
    ++ leBytes 4 r.batch ++ leBytes 2 ncore ++ leBytes 2 r.flags ++ leBytes 1 dev ++ leBytes 1 size
/-- An entry of the counter table (11:R261). -/
def genBytes (g : Gen) : List Byte := leBytes 8 g.key ++ leBytes 4 g.sid ++ leBytes 4 g.step ++ leBytes 8 g.draw ++ leBytes 8 0
/-- The side record of a tile that the device itself writes with FMT 0x8 and KIND 0x00 (11:R260; log 40). -/
def plainSide (step : Nat) : Mem :=
  Tab.block 0 0 (leBytes 1 8 ++ leBytes 3 0 ++ leBytes 4 one32.toNat ++ leBytes 4 0x7FC00000 ++ leBytes 2 0 ++ leBytes 1 128
    ++ leBytes 1 0 ++ leBytes 2 128 ++ leBytes 2 0 ++ leBytes 4 step ++ leBytes 8 (2 ^ 64 - 1))
/-- The five tiles of a step record, written at step counter `now` (11:R260, R261). -/
def StepRec.tiles (r : StepRec) (now ncore dev size : Nat) : List TileData :=
  let side := plainSide now
  ⟨Tab.block 0 0 (stepHead r ncore dev size), side⟩
    :: (List.range 4).map (fun t => ⟨(List.range 512).flatMap (fun i =>
      Tab.block 0 (i * 32) (genBytes (Tab.get {} r.gens (t * 512 + i)))), side⟩)
/-- The step record that five tiles hold (11:R260, R261). -/
def StepRec.ofTiles (ts : List TileData) : StepRec :=
  let h : Mem := (ts.headD {}).data
  let f (off n : Nat) : Nat := leNat (h.bytes off n)
  { epoch := f 4 4, step := f 8 8, dstep := f 0x10 8, sample := f 0x18 8, batch := f 0x20 4, flags := f 0x26 2,
    gens := Tab.block {} 0 ((List.range 2048).map (fun i =>
      let m : Mem := (ts.getD (1 + i / 512) {}).data
      let g (off n : Nat) : Nat := leNat (m.bytes (i % 512 * 32 + off) n)
      (⟨g 0 8, g 8 4, g 0x0C 4, g 0x10 8⟩ : Gen))) }

/-- The live step record is written to its tiles (11:R262, R286). -/
def State.putStepRec (s : State) (b : Nat) (r : StepRec) : State :=
  let x := s.box b
  let s := s.updBox b fun x => { x with stepRec := r }
  match x.curtain with
  | none => s
  | some c =>
    ((List.range 5).zip (r.tiles x.step x.coreList.length (s.boxIndex b) (s.boxGroup b))).foldl
      (fun s (p : Nat × TileData) => (s.writeTile b (c.steprec + p.1) p.2).getD s) s

/-- Whether a SEAL launch of an epoch has been accepted and has not completed (11:R265, R268). -/
def Box.sealsIn (x : Box) (epoch : Nat) : Bool :=
  x.launches.any (fun (l : Launch) => l.sealing && l.epoch == epoch && l.st != LaunchSt.ended)

/-- A discard that waits ends every launch of the epoch that is queued, also one accepted since, and is applied once none
runs (11:R269, R286). RESULT of an import's SEAL launch is then L and REF (13:R335). -/
def State.tryDiscard (s : State) (b : Nat) : State :=
  let x := s.box b
  match x.outcome with
  | none => s
  | some (cause, allPassed) =>
    let st := discardStatus cause allPassed
    let s := (x.launches.filter (fun (l : Launch) => l.epoch == x.openE && l.st == LaunchSt.queued)).foldl (fun s l =>
      (s.updLaunch b l.num fun l => { l with st := .ended, stop := some (st, 0, 0) }).endOp b l.opid st) s
    if x.launches.any (fun l => l.epoch == x.openE && l.st == LaunchSt.running) then s
    else
      let e := x.openE
      let pass := cause = 7 && allPassed && x.cst = 5
      let s := (match x.imp with
        | some i => if x.cst = 5 && cause = 7 then
            (x.launches.filter (fun (l : Launch) => l.st == LaunchSt.sealed && l.epoch == e)).foldl (fun (s : State) (l : Launch) =>
              let v := match s.rangeRead b i.loss 4 with | some bs => leNat bs | none => 0
              s.opResult b l.opid (v + i.ref * 2 ^ 32)) s
          else s
        | none => s)
      let s := s.updBox b fun x =>
        { x with outcome := none, resolvedE := e, closed := false, openE := (e + 1) % 2 ^ 32, last := 2, cause := cause,
                 history := (e, false) :: x.history, orphan := false, wingRec := none, tagFailed := false, mirrorLeft := 0, impPassed := none,
                 lead := { x.lead with ready := [], failed := [], sealAt := x.sealsIn ((e + 1) % 2 ^ 32), decided := false },
                 cst := if pass || x.cst ≤ 2 then 0 else x.cst, imp := if pass then none else x.imp }
      let s := s.loadGens b x.stepRec
      let s := if pass then (s.putStepRec b { x.stepRec with flags := x.stepRec.flags ||| 2 }).startBase b else s
      s.endSeals b e (discardStatus cause allPassed)

/-- The run of a launch has finished on this device (06:R155, R156; 11:R265, R266; 10:R233). -/
def State.finishLaunch (s : State) (b num : Nat) : State :=
  match (s.box b).launch num with
  | none => s
  | some l =>
    if l.st ≠ .running || !s.allStopped b l then s
    else
      let s := if l.sealing && l.stop.isNone then s else s.failLaunchTags b num
      match l.stop with
      | some _ => (s.updLaunch b num fun l => { l with st := .ended }).tryDiscard b
      | none =>
        if l.sealing then
          let s := s.updLaunch b num fun l => { l with st := .sealed }
          s.updBox b fun x => if x.cst = 0 then { x with cst := 1 } else x
        else ((s.updLaunch b num fun l => { l with st := .ended }).endOp b l.opid stOk).tryDiscard b

/-- A context image that BOX_DEBUG asked for is written, and the core goes on (14:R367). -/
def State.debugImage (s : State) (b core : Nat) : State :=
  match (s.box b).debugJob with
  | some (op, out, cs) =>
    if cs.contains core then
      let i := (s.box b).localCore core
      let s := s.rangeWrite b (out + i * imageSize) imageSize ((s.core core).image core)
      let left := cs.filter (· ≠ core)
      if left.isEmpty then (s.updBox b fun x => { x with debugJob := none }).endOp mgmt op stOk
      else s.updBox b fun x => { x with debugJob := some (op, out, left) }
    else s
  | none => s

/-- A core of a launch has stopped. -/
def State.coreStopped (s : State) (b num core : Nat) : State :=
  let i := (s.box b).localCore core
  match (s.box b).launch num with
  | none => s
  | some l =>
    let hs := if l.haltedCores.contains i then l.haltedCores else l.haltedCores ++ [i]
    let s := (s.updLaunch b num fun l => { l with haltedCores := hs }).debugImage b core
    (if l.stop.isSome then s else s.opProgress b l.opid hs.length).finishLaunch b num

/-- The context image of a preempted core reaches the preemption area of its launch (06:R153). -/
def State.saveImage (s : State) (b core : Nat) (l : Launch) : State :=
  let i := (s.box b).localCore core - l.core0
  s.rangeWrite b (l.preempt + i * imageSize) imageSize ((s.core core).image core)

/-- A token for a core, kept in the synchroniser of the record that holds the launch's core (06:R139, R154). -/
def State.sendToken (s : State) (b core : Nat) (launch : Option Nat) (t : Token) : State :=
  let owner : Option Launch := match launch with
    | some n => (s.box b).launches.find? (fun (l : Launch) => l.num == n && Tab.has l.saved core)
    | none => none
  match owner with
  | some l => s.updLaunch b l.num fun l => { l with saved := Tab.upd {} l.saved core fun c => { c with toks := c.toks ++ [t] } }
  | none => let c := s.core core; s.setCore core { c with toks := c.toks ++ [t] }

/-- An understudy record of 16 bytes (06:R149). -/
def underRecord (num scyc core cue ctx step : Nat) : List Byte :=
  leBytes 4 num ++ leBytes 5 scyc ++ leBytes 1 core ++ leBytes 1 cue ++ leBytes 1 ctx ++ leBytes 4 step

/-- One message of a core to the device. -/
def State.hear (s : State) (b num core : Nat) (m : CMsg) : State :=
  match (s.box b).launch num with
  | none => s
  | some l =>
    match m with
    | .post dest cue ddl =>
      if s.boxOfCore dest = some b then s.sendToken b dest (some num) ⟨.post, cue, ddl, 0, 0, false, 1⟩
      else let c := s.core core; s.setCore core { c with stale := satAdd 32 c.stale 1 }
    | .under scyc cue ctx =>
      let s := s.rangeWrite b (l.log + 16 * l.logged) 16
        (Tab.block 0 0 (underRecord l.num scyc ((s.box b).localCore core) cue ctx (s.box b).step))
      s.updLaunch b num fun l => { l with logged := l.logged + 1 }
    | .fault =>
      let first := l.stop.isNone
      let s := if first then
          ((s.updLaunch b num fun l => { l with stop := some (stBadParam, 0, 0) }).endOp b l.opid stBadParam).launchLost b l
        else s
      s.coreStopped b num core
    | .halted => s.coreStopped b num core
    | .preempted =>
      let queued := x.launches.any (fun m => m.st == .queued && m.epoch == x.openE && decide (l.prio < m.prio)
        && m.hasCore (x.localCore core))
      let s := if (match x.debugJob with | some (_, _, cs) => cs.contains core | none => false) then s.debugImage b core else s
      if queued then s.saveImage b core l
      else s.setCore core ((s.core core).resume ((s.box b).env l core))
where x := s.box b

/-- The messages of a core are taken, in order. -/
def State.hearAll (s : State) (b num core : Nat) : State :=
  let c := s.core core
  (c.msgs).foldl (fun s m => s.hear b num core m) (s.setCore core { c with msgs := [] })

/-- Cores of a launch that is to stop: a preempted or held one at its preemption point stops now (06:R156). -/
def State.stopPoints (s : State) (b num : Nat) : State :=
  match (s.box b).launch num with
  | none => s
  | some l =>
    if l.stop.isNone || l.st ≠ .running then s
    else ((s.box b).launchCores l).foldl (fun s k =>
      match (s.box b).launch num with
      | none => s
      | some l =>
        let i := (s.box b).localCore k
        if l.haltedCores.contains i then s
        else if Tab.has l.saved k then
          (s.updLaunch b num fun l => { l with saved := Tab.erase l.saved k }).coreStopped b num k
        else if (s.core k).st = .preempted then (s.setCore k (s.core k).stopped).coreStopped b num k
        else (s.setCore k ((s.core k).atPoint ((s.box b).env l k))).hearAll b num k) s

/-- A launch ends by an event (12:R294, 11:R269, 14:R377, 13:R333): its operation completes with a status, and its cores
stop at their next preemption point or HALT. -/
def State.endLaunch (s : State) (b num status : Nat) (skind : Nat := 0) (scode : Nat := 0) : State :=
  match (s.box b).launch num with
  | none => s
  | some l =>
    let s := if l.st == LaunchSt.ended || (s.box b).outcome.isSome then s else s.launchLost b l
    match l.st with
    | .ended => s
    | .queued => ((s.updLaunch b num fun l => { l with st := .ended, stop := some (status, skind, scode) }).endOp b l.opid status skind scode)
    | .sealed => ((s.updLaunch b num fun l => { l with st := .ended, stop := some (status, skind, scode) }).endOp b l.opid status skind scode).failLaunchTags b num
    | .running =>
      let s := (s.updLaunch b num fun l => { l with stop := some (l.stop.getD (status, skind, scode)) }).endOp b l.opid status skind scode
      s.stopPoints b num

/-- A core stops issuing at once, as at a fault: what it has issued completes, its streams issue nothing further
(12:R293, R294; 14:R377; 15:R384). -/
def State.haltCore (s : State) (b num core : Nat) : State :=
  match (s.box b).launch num with
  | none => s
  | some l =>
    let i := (s.box b).localCore core
    if l.haltedCores.contains i then s
    else if Tab.has l.saved core then (s.updLaunch b num fun l => { l with saved := Tab.erase l.saved core }).coreStopped b num core
    else
      let c := (s.core core).drainAll ((s.box b).env l core)
      (s.setCore core { c.stopped with msgs := [] }).coreStopped b num core

/-- Every launch of a box ends with a status, and its cores stop at once. -/
def State.haltBox (s : State) (b status : Nat) : State :=
  ((s.box b).launches.map Launch.num).foldl (fun s n =>
    match (s.box b).launch n with
    | none => s
    | some l =>
      let cores := (s.box b).launchCores l
      let was := l.st
      let s := s.endLaunch b n status
      if was == .running then cores.foldl (fun s k => s.haltCore b n k) s else s) s

/-- Migration queues of a box's seats are emptied, and moves in progress abandoned (07:R182, 12:R293, R294). -/
def State.emptyMoves (s : State) (b : Nat) : State :=
  (List.range 16).foldl (fun s k =>
    let s := match (s.seat k).moving with
      | some m =>
        if m.move.box = b then
          ((s.dropDest m).updTile b m.tile fun t => if t.st = tsMigrating then { t with st := tsResident } else t).updSeat k
            fun x => { x with moving := none }
        else s
      | none => s
    s.updSeat k fun x => { x with moves := x.moves.filter (fun m => m.box ≠ b) }) s

/-- Every TILE_MOVE operation whose tiles are all moved, skipped or dropped completes (13:R338). -/
def State.movesDone (s : State) (b : Nat) : State :=
  ((s.session b).ops.filter (fun o => o.opcode == 0x0203 && o.ostatus == 1)).foldl (fun s o =>
    if (List.range 16).any (fun k => (s.seat k).moves.any (fun m => m.box == b && m.op == some o.opid)
        || (match (s.seat k).moving with | some m => m.move.box == b && m.move.op == some o.opid | none => false)) then s
    else s.endOp b o.opid stOk) s

/-- A scene change ends without completing (09:R227): held reads of its layer get a bus error, snapshot frames are
let go. -/
def State.failScene (s : State) (b status : Nat) : State :=
  let c := (s.box b).scene
  if !c.active then s
  else
    let lay := c.layers[c.done]?
    let s := { s with reqs := s.reqs.map (fun (p : Nat × Option Req) => (p.1, match p.2 with
      | some r => if r.box = b && r.st == ReqSt.held && (match lay with | some l => l.covers r.on | none => false) then some { r with st := .failed }
                  else some r
      | none => none)) }
    let s := if c.srcKind = 2 then s.setSlot c.keyslot {} else s
    let s := (s.updBox b fun x => { x with scene := { x.scene with st := 3, snap := [] },
                                           runs := x.runs.filter (fun (r : Run) => r.who != .scene) }).endOp b c.opid status
    if c.prot then s.startBase b else s

/-- The freeze of a box after a security alarm (12:R294): its lead hears of the alarm before its launches end. -/
def State.freeze (s : State) (b : Nat) : State :=
  if (s.box b).frozen then s
  else
    let s := s.updBox b fun x => { x with frozen := true }
    let x := s.box b
    let s := if x.cst = 0 || x.cst = 1 then (if s.isLead b then s.decideDiscard b 5 else s.send (.alarmReport b)) else s
    let s := s.haltBox b stAlarm
    let s := ((s.box b).tags.map Prod.fst).foldl (fun s t => s.failTag b t) s
    let s := (s.emptyMoves b).movesDone b
    let s := s.failScene b stIntegrity
    let s := (s.box b).rekey.jobs.foldl (fun s (j : Nat × Nat × Nat) => s.endOp b j.2.1 stAlarm) s
    s.updBox b fun x => if x.rekey.active then { x with rekey := { x.rekey with active := false, halted := true, jobs := [] } } else x

/-- A security alarm is recorded for its box, reported, and freezes it (12:R304, R306; event 0x0300). -/
def State.alarm (s : State) (b cause seat tier : Nat) (tile : Option Nat) (line unit : Nat) : State :=
  let s := s.updBox b fun x =>
    { x with alarms := min 255 (x.alarms + 1),
             alarm := match x.alarm with
               | some a => some a
               | none => some ⟨cause, seat, tier, s.ms - x.openedAt, tile.getD (2 ^ 64 - 1), line, unit⟩ }
  let s := (s.event mgmt 0x0300 seat).event b 0x0300 seat
  s.freeze b

/-- A checked read of a place of a tile (12:R304): what it holds, or none with the alarm, the LOST tile and the counters
that its failure brings. `unit` and `cause` are those of R306. The outcome is that of the command, else what the frame's
lines hold (log 14). -/
def State.checkedRead (s : State) (b tile : Nat) (p : Place) (line : LineOutcome) (cause unit : Nat) : State × Option TileData :=
  match p with
  | .bad => (s, none)
  | .zero => (s, s.contents b tile .zero)
  | .at tier frame =>
    let seat := seatOf tier frame
    let k := seat.getD (s.box b).seat0
    match s.contents b tile p with
    | none => (s.alarm b cause k tier (some tile) 0 unit, none)
    | some d =>
      match (if line = .good then (s.frame (frameKey tier frame)).upset else line) with
      | .good => (s, some d)
      | .corrected _ =>
        ((match seat with | some k => s.updSeat k fun x => { x with eccCorr := satAdd 32 x.eccCorr 1 } | none => s), some d)
      | .tagFail l => (s.alarm b cause k tier (some tile) (min l 256) unit, none)
      | .uncorrectable _ =>
        let s := match seat with | some k => s.updSeat k fun x => { x with eccUnc := satAdd 32 x.eccUnc 1 } | none => s
        (s.updTile b tile fun t => { t with st := tsLost }, none)

/-- A frame that is held for a reader is read (07:R173; 09:R225; 11:R276): a tile that has left the frame meanwhile keeps its
state when the frame's line is lost, and a frame that went with its seat gives no data (14:R377). -/
def State.heldRead (s : State) (b tile : Nat) (p : Place) (line : LineOutcome) (cause unit : Nat) : State × Option TileData :=
  let p := match p with | .at tier frame => s.placeAt b tier frame | p => p
  let st := ((s.box b).tile tile).st
  let live := s.readPlace b tile == p
  let r := s.checkedRead b tile p line cause unit
  (if live then r.1 else r.1.updTile b tile fun t => if t.st = tsLost then { t with st := st } else t, r.2)

/-- The device itself reads some places of tiles (12:R304, R306): the state after those reads, and whether all gave data.
A place that no frame serves is the reader's own matter. -/
def State.meetPlaces (s : State) (b : Nat) (ps : List (Nat × Place)) (cause unit : Nat) : State × Bool :=
  ps.foldl (fun (a : State × Bool) (p : Nat × Place) => match p.2 with
    | .at _ _ =>
      let r := a.1.checkedRead b p.1 p.2 .good cause unit
      (r.1, a.2 && r.2.isSome)
    | _ => a) (s, true)
/-- Ordinary reads of tiles by the device itself. -/
def State.meetTiles (s : State) (b : Nat) (ts : List Nat) (cause unit : Nat) : State × Bool :=
  s.meetPlaces b (ts.map (fun t => (t, s.readPlace b t))) cause unit
/-- The tiles that parts of a range, each an address and a length, lie in. -/
def partTiles (rs : List (Nat × Nat)) : List Nat :=
  rs.flatMap (fun r => if r.2 = 0 then [] else (List.range ((r.1 + r.2 - 1) / 16384 - r.1 / 16384 + 1)).map (· + r.1 / 16384))

/-- The tile with an index among those that parts of a range, each an address and a length, lie in. -/
def tileAmong : List (Nat × Nat) → Nat → Option Nat
  | [], _ => none
  | (a, n) :: rs, i =>
    let c := if n = 0 then 0 else (a + n - 1) / 16384 - a / 16384 + 1
    if i < c then some (a / 16384 + i) else tileAmong rs (i - c)

/-- A command's or transfer's reads of parts of its box's range meet an outcome at one of their tiles (12:R304, R306:
UNIT 0x05; log 14): the state after that read, and whether a tag failed. -/
def State.meetLine (s : State) (b : Nat) (rs : List (Nat × Nat)) (i : Nat) (line : LineOutcome) : State × Bool :=
  if line = .good then
    let m := s.meetTiles b (partTiles rs) 1 5
    (m.1, (m.1.box b).frozen && !(s.box b).frozen)
  else match tileAmong rs i with
    | none => (s, false)
    | some t =>
      let p := s.readPlace b t
      let r := s.checkedRead b t p line 1 5
      (r.1, r.2.isNone && (match p, line with | .at _ _, .tagFail _ => true | _, _ => false))

/-- The tiles in which the understudy records that a core has told are to be written (06:R149). -/
def State.logTiles (s : State) (b num : Nat) (ms : List CMsg) : List Nat :=
  match (s.box b).launch num with
  | none => []
  | some l => partTiles [(l.log + 16 * l.logged, 16 * (ms.filter (fun m => match m with | .under .. => true | _ => false)).length)]

/-- A core is replaced by what a command made of it, and what it told the device takes effect. An understudy record is a
partial write, whose line is read first: one that gives no data drops the record, with what its read brings (12:R305). -/
def State.putCore (s : State) (b num core : Nat) (c : Core) : State :=
  let ts := s.logTiles b num c.msgs
  let bad := ts.any (fun t => s.lineBad (s.readPlace b t))
  let s := if bad then s else (s.meetTiles b ts 2 5).1
  let t := ((s.setCore core c).hearAll b num core).stopPoints b num
  if bad then (t.meetTiles b ts 2 5).1 else t

/-- A stream context faults (08:R208): its first kind and the core's first fault are recorded, the core stops as for a fault,
and the launch ends. A core whose HALT has not completed, since a write of its streams has not (R209), is still of its
launch. -/
def State.streamFault (s : State) (b num core ctx kind pc : Nat) : State :=
  let c := s.core core
  let x := c.ctx ctx
  let c := c.setCtx ctx { x with st := .fault, fkind := if x.st = .fault then x.fkind else kind }
  let c := if c.sfKind = 0 then { c with sfKind := kind, sfCtx := ctx, sfPc := pc % 4096 } else c
  match (s.box b).launch num with
  | none => s.setCore core c
  | some l =>
    if l.haltedCores.contains ((s.box b).localCore core) && (l.stop.isSome || (s.core core).writesDone) then s.setCore core c
    else
      let c := c.drainAll ((s.box b).env l core)
      s.putCore b num core ({ c with st := .faulted, bundle := [], heldAt := none }.tell .fault)

end Sys2Proof.Machine
end

