-- ==== Sys2Proof/Machine/Submit.lean ====
section
/-! DEFINITION. How a script instruction reaches the sequencer of its core, and the events of cores: stand-by switch,
tokens, stall limit, cycle limit, restore (06:R128, R139, R144, R145, R154, R156). -/
namespace Sys2Proof.Machine

/-- The box and launch that a logical core runs now: a LIVE, unfrozen box of a powered device. -/
def State.running (s : State) (core : Nat) : Option (Nat × Launch) :=
  match s.boxOfCore core with
  | none => none
  | some b =>
    let x := s.box b
    if !s.dev.on || x.st ≠ 3 || x.frozen then none
    else match x.runsOn core with
      | some l => some (b, l)
      | none => none

/-- A slot of a bundle reaches the sequencer of its core (log 2, log 6). -/
def State.submit (s : State) (i : Instr) (iss : Issue) : State :=
  match s.running iss.core.val with
  | none => s
  | some (b, l) =>
    let k := iss.core.val
    s.putCore b l.num k ((s.core k).slotIn ((s.box b).env l k) i iss.last)

/-- A core event under the launch that the core runs. -/
def State.coreEvent (s : State) (core : Nat) (f : CEnv → Core → Core) : State :=
  match s.running core with
  | none => s
  | some (b, l) => s.putCore b l.num core (f ((s.box b).env l core) (s.core core))

/-- STANDBY_SWITCH_ELAPSED: the 24 switch cycles run out (06:R145). -/
def execStandbySwitchElapsed (core : Fin 128) (s : State) : Host.Outcome State Fault Refusal :=
  .next (s.coreEvent core.val Core.switchElapsed)

/-- TOKEN_VISIBLE (06:R139, R140): tokens `ks` of the core's synchroniser, with cues of the die controller, become
visible together after `wait` cycles of a held core. Tokens of a core without a launch are stale. -/
def execTokenVisible (core : Fin 128) (wait : Nat) (ks : List Nat) (die : List (Fin 64 × BitVec 40)) (s : State) :
    Host.Outcome State Fault Refusal :=
  let cues := die.map (fun p => (p.1.val, p.2.toNat))
  match s.running core.val with
  | some _ => .next (s.coreEvent core.val fun e c => c.visible e wait ks cues)
  | none =>
    .next (s.setCore core.val ((s.core core.val).visible ⟨core.val, false, false, false, [], 2 ^ 32, false, false⟩ 0 ks cues))

/-- STALL_LIMIT (06:R144). -/
def execStallLimit (core : Fin 128) (s : State) : Host.Outcome State Fault Refusal :=
  .next (s.coreEvent core.val Core.stallOut)

/-- SCRIPT_CYCLE_LIMIT (06:R156). -/
def execScriptCycleLimit (core : Fin 128) (s : State) : Host.Outcome State Fault Refusal :=
  .next (s.coreEvent core.val Core.cycleLimit)

/-- Bytes of a box's range as a sparse image, none when a tile gives a bus error. -/
def State.rangeMem (s : State) (b addr n : Nat) : Option Mem :=
  let first := addr / 16384
  (List.range (n / 16384)).foldl (fun acc i =>
    match acc, s.readTile b (first + i) with
    | some m, some d => some (m ++ d.data.map (fun p => (p.1 + i * 16384, p.2)))
    | _, _ => none) (some [])

/-- The launch of a box that is preempted on a core and may come back: nothing else runs there, and no queued launch of
higher priority waits for the core (06:R152, R154). -/
def Box.preemptedOn (x : Box) (core : Nat) : Option Launch :=
  if (x.runsOn core).isSome then none
  else match (x.launches.filter (fun l => l.st == .running && Tab.has l.saved core)) with
    | [] => none
    | l :: ls =>
      let top := ls.foldl (fun a m => if a.prio < m.prio then m else a) l
      if x.preemptPending top core then none else some top

/-- CORE_RESTORE (06:R154): the script store is refilled, the image reloaded, the tokens that arrived meanwhile become
visible, and the core resumes. A line of the image that fails its tag freezes the box (12:R304, log 14). -/
def execCoreRestore (core : Fin 128) (tile : Nat) (line : LineOutcome) (s : State) : Host.Outcome State Fault Refusal :=
  let k := core.val
  match s.boxOfCore k with
  | none => .next s
  | some b =>
    let x := s.box b
    if x.frozen || x.st ≠ 3 then .next s
    else match x.preemptedOn k with
      | none =>
        -- a core that is preempted and whose preemption is no longer pending resumes where it stands
        match x.runsOn k with
        | some l => if (s.core k).st = .preempted && !x.preemptPending l k then
            .next (s.putCore b l.num k ((s.core k).resume (x.env l k))) else .next s
        | none => .next s
      | some l =>
        let saved := Tab.get {} l.saved k
        let i := x.localCore k - l.core0
        let m := s.meetLine b [(l.preempt + i * imageSize, imageSize)] tile line
        let s := m.1
        if m.2 then .next s else
        let c := match s.rangeMem b (l.preempt + i * imageSize) imageSize with
          | some m => saved.ofImage m
          | none => saved
        let s := s.updLaunch b l.num fun l => { l with saved := Tab.erase l.saved k }
        let e := (s.box b).env l k
        let c := c.visible e 0 (List.range c.toks.length) []
        .next (s.putCore b l.num k (c.resume e))

end Sys2Proof.Machine
end

