-- ==== Sys2Proof/Machine/Stream.lean ====
section
/-! DEFINITION. The stream engine (chapter 8): buffers, the layout of a tile in a buffer, conversion on the way, and how
a stream instruction issues, waits, completes and faults (08:R190 to R209). -/
namespace Sys2Proof.Machine

/-- First byte and size of buffer `b` of a context (R190). -/
def SCtx.bufBase (x : SCtx) (b : Nat) : Nat := x.firstBank b * 0x20000
def SCtx.bufSize (x : SCtx) : Nat := (x.nbank + 1) * 0x20000
/-- Whether bytes at an offset lie in a buffer. -/
def SCtx.fits (x : SCtx) (off n : Nat) : Bool := decide (off + n ≤ x.bufSize)

/-- Rows, and bytes per row, of a tile on the stage side (R195). -/
def stageRows (orient : Bool) (w e : Nat) : Nat × Nat := if orient then (e, 128 * w / 8) else (128, e * w / 8)
/-- The offset in the buffer of the byte after the last one that a move touches (R195). -/
def moveEnd (doff pitch : Nat) (orient : Bool) (w e : Nat) : Nat :=
  let g := stageRows orient w e
  doff * 64 + (g.1 - 1) * (g.2 * 2 ^ pitch) + g.2

/-- Rows of elements the other way round (R195). -/
def turn (n : Nat) (rows : List (List Nat)) : List (List Nat) := (List.range n).map (fun e => rows.map (fun r => r.getD e 0))

/-- The rows of codes of a tile's payload (07:R164). -/
def tileRows (f : Fmt) (d : Mem) : List (List Nat) :=
  (List.range 128).map (fun r => unpackBits f.width f.perRow (d.bytes (r * 128) (f.perRow * f.width / 8)))
/-- The payload of rows of codes. -/
def tileMem (f : Fmt) (rows : List (List Nat)) : Mem :=
  ((List.range 128).zip rows).flatMap (fun (p : Nat × List Nat) => Tab.block 0 (p.1 * 128) (packBits f.width p.2))

/-- Rows of codes are written into a buffer (R195). -/
def Core.putRows (c : Core) (base pitch : Nat) (w : Nat) (rows : List (List Nat)) : Core :=
  let l := (rows.headD []).length * w / 8
  ((List.range rows.length).zip rows).foldl
    (fun c (p : Nat × List Nat) => c.stageStore (base + p.1 * (l * 2 ^ pitch)) (packBits w p.2)) c
/-- Rows of codes are read from a buffer. -/
def Core.getRows (c : Core) (base pitch w n per : Nat) : List (List Nat) :=
  let l := per * w / 8
  (List.range n).map (fun r => unpackBits w per (c.stageBytes (base + r * (l * 2 ^ pitch)) l))

/-- The random bits of element `i` of a tile: every 1,024 elements take one draw (R196). -/
def moveBits (rnd : Rnd) (g : Gen) (i : Nat) : Nat :=
  if rnd = .stoch then ({ g with draw := (g.draw + i / 1024) % 2 ^ 48 }).tileBits (i % 1024) else 0
/-- A field of a side record (07:R165). -/
def sideField (side : Mem) (off n : Nat) : Nat := leNat (side.bytes off n)
/-- FMT of a side record. -/
def sideFmt (side : Mem) : Option Fmt := Fmt.ofCode (sideField side 0 1 % 16)
/-- KIND of a side record. -/
def sideKind (side : Mem) : Nat := sideField side 1 1
/-- Bytes of a slot of a companion tile for a KIND (07:R166). -/
def slotSize (kind : Nat) : Nat := if kind = 2 then 1024 else 8192
/-- The tile number of the companion (07:R165). -/
def sideCompanion (side : Mem) : Nat := sideField side 0x18 8 % 2 ^ 36
/-- Whether the record needs a companion tile, and whether it is invalid (07:R166; a reserved GROUP is taken as invalid
too, log 32). -/
def sideNeedsComp (side : Mem) : Bool := sideKind side == 2 || sideKind side == 3
def sideBad (side : Mem) : Bool :=
  sideNeedsComp side
  && (sideField side 0x18 8 == 2 ^ 64 - 1 || decide (16384 / slotSize (sideKind side) ≤ sideField side 0x12 2)
      || (sideKind side == 3 && decide (2 < sideField side 2 1)))
/-- The bytes of the slot that a side record names in its companion's payload. -/
def sideSlot (side comp : Mem) : List Byte :=
  comp.bytes (sideField side 0x12 2 * slotSize (sideKind side)) (slotSize (sideKind side))

/-- Weights per group of KIND 0x03 (07:R165). -/
def sideGroup (side : Mem) : Nat := 32 * 2 ^ (min 2 (sideField side 2 1))

/-- Element `e` of row `r` of a tile as a source of a conversion: block scale applied, INT4 and INT2 expanded, BI32 on
its grid (R196). -/
def getSrc (f : Fmt) (side : Mem) (slot : List Byte) (r e code : Nat) : Src :=
  let k := sideKind side
  if f = .int4 || f = .int2 then
    if k = 4 then
      srcOf .bf16 0 (expandTable (sideField side (0x20 + 2 * code) 2))
    else
      let g := r * (f.perRow / sideGroup side) + e / sideGroup side
      let z := signedOf 8 (if sideField side 0x0D 1 = 0 then sideField side 0x0C 1 else fieldAt slot (0x1000 + g) 1)
      srcOf .bf16 0 (expandAffine (signedOf f.width code) (fieldAt slot (2 * g) 2) z)
  else if f = .bi32 then srcOf .bi32 (signedOf 16 (sideField side 0x20 2)) code
  else if f.mayScale && k == 2 then
    let s := srcOf f 0 code
    ⟨scaled s.v (fieldAt slot (r * (f.perRow / 32) + e / 32) 1), s.sticky⟩
  else srcOf f 0 code

/-- The scales that a GET with SCL delivers unconverted, as runs from SOFF × 1,024 (R198). -/
def rawScales (side : Mem) (e : Nat) (slot : List Byte) (xs : Bool) : List (Nat × List Byte) :=
  let k := sideKind side
  let place (g n : Nat) (f : Nat → Nat) : List Nat :=
    if xs then (List.range n).flatMap (fun j => (List.range 128).map (fun r => f (r * g + j)))
    else (List.range (128 * n)).map f
  if k = 2 then
    let g := e / 32
    [(0, (place g g (fun i => fieldAt slot i 1)).map (BitVec.ofNat 8))]
  else if k = 3 then
    let g := e / sideGroup side
    [(0, (place g g (fun i => fieldAt slot (2 * i) 2)).flatMap (leBytes 2)),
     (0x1000, (place g g (fun i => if sideField side 0x0D 1 = 0 then sideField side 0x0C 1 else fieldAt slot (0x1000 + i) 1)).map (BitVec.ofNat 8))]
  else if k = 4 then [(0, side.bytes 0x20 32)]
  else []

/-- The chosen block scales of a GET, in the layout of KIND 0x02 (R196, R198). -/
def chosenScales (rows : List (List Nat)) (g : Nat) (xs : Bool) : List Byte :=
  ((if xs then turn g rows else rows).flatten).map (BitVec.ofNat 8)

/-- Rows converted one after the other through one record (R196). -/
def convRows (cv : Conv) (rnd : Rnd) (g : Gen) (e : Nat) : Nat → List (List Src) → Amax → List (List Nat) × List (List Nat) × Amax
  | _, [], a => ([], [], a)
  | r, xs :: t, a =>
    let ys := ((List.range xs.length).zip xs).map (fun (p : Nat × Src) => (p.2, moveBits rnd g (r * e + p.1)))
    let o := cv.row ys a
    let rest := convRows cv rnd g e (r + 1) t o.2.2
    (o.1 :: rest.1, o.2.1 :: rest.2.1, rest.2.2)

/-- What a GET delivers: a fault kind, or the core with the bytes in the buffer and the record updated (R195 to R198).
Elements beyond VROWS and VELEMS are converted like the others, and enter the record with the value that their code has,
which for an affine or table INT4 or INT2 tile need not be 0 (R40; DESIGN CHOICE, log 66). -/
def Core.deliver (c : Core) (ctx : Nat) (o : GetOp) (buf : Nat) (g : Gen) (d : TileData) (comp : Mem) : Except Nat Core :=
  let x := c.ctx ctx
  let slot := sideSlot d.side comp
  match sideFmt d.side with
  | none => .error 4
  | some f =>
    let e := f.perRow
    let rows := tileRows f d.data
    let put (w : Nat) (rows : List (List Nat)) (blobs : List (Nat × List Byte)) (a : Amax) : Except Nat Core :=
      if !x.fits 0 (moveEnd o.doff.toNat o.pitch.toNat o.orient w e)
          || !blobs.all (fun (p : Nat × List Byte) => x.fits (o.soff.toNat * 1024 + p.1) p.2.length) then .error 2
      else
        let c := c.putRows (x.bufBase buf + o.doff.toNat * 64) o.pitch.toNat w (if o.orient then turn e rows else rows)
        let c := blobs.foldl (fun c (p : Nat × List Byte) => c.stageStore (x.bufBase buf + o.soff.toNat * 1024 + p.1) p.2) c
        let c := c.noteLoads ((x.bufBase buf, (x.nbank + 1) * 0x20000) :: [])
        .ok (c.setCtx ctx { c.ctx ctx with cvr := a })
    if sideBad d.side then .error 1
    else match o.fmtD with
    | none => put f.width rows (if o.scl then rawScales d.side e slot o.xs else []) x.cvr
    | some t =>
      let int := f = .int4 || f = .int2
      if f = .acc64 || !moveDst t || (int && !(sideKind d.side == 3 || sideKind d.side == 4)) then .error 4
      else
        let cv : Conv := { dst := t, block := t.isBlockOnly, rnd := o.rnd, sat := o.sat, ovf := o.ovf,
                           p := BitVec.ofNat 32 (sideField d.side 4 4), q := one32,
                           gridS := if f = .bi32 then some (signedOf 16 (sideField d.side 0x20 2)) else none, gridD := none }
        let srcs := ((List.range 128).zip rows).map (fun (p : Nat × List Nat) =>
          ((List.range e).zip p.2).map (fun (q : Nat × Nat) => getSrc f d.side slot p.1 q.1 q.2))
        let r := convRows cv o.rnd g e 0 srcs x.cvr
        put t.width r.1 (if t.isBlockOnly then [(0, chosenScales r.2.1 (e / 32) o.xs)] else []) r.2.2

/-- 1/Qr rounded to nearest, or the canonical NaN for an invalid Qr (R196). -/
def recip32 (q : W32) : Nat :=
  if factorOk q then Fmt.fp32.divC .near 0 one32.toNat q.toNat else 0x7FC00000

/-- Block scale code, tile payload, side record and conversion record of a PUT (R196). -/
def Core.putTile (c : Core) (ctx : Nat) (o : PutOp) (buf : Nat) (q : W32) (comp step : Nat) (g : Gen) : TileData × List Nat × Amax :=
  let x := c.ctx ctx
  let f := o.fmtD.getD o.fmtS
  let e := f.perRow
  let s := stageRows o.orient o.fmtS.width e
  let rows0 := c.getRows (x.bufBase buf + o.doff.toNat * 64) o.pitch.toNat o.fmtS.width s.1 (if o.orient then 128 else e)
  let rows := if o.orient then turn 128 rows0 else rows0
  let side (kind scale amax slot cmp : Nat) : Mem :=
    Tab.block 0 0 (leBytes 1 f.code ++ leBytes 1 kind ++ leBytes 2 0 ++ leBytes 4 scale ++ leBytes 4 amax ++ leBytes 2 0
      ++ leBytes 1 128 ++ leBytes 1 0 ++ leBytes 2 e ++ leBytes 2 slot ++ leBytes 4 step ++ leBytes 8 cmp ++ leBytes 32 0)
  match o.fmtD with
  | none => (⟨tileMem f rows, side 0 one32.toNat 0x7FC00000 0 0⟩, [], x.cvr)
  | some t =>
    let cv : Conv := { dst := t, block := t.isBlockOnly, rnd := o.rnd, sat := o.sat, ovf := o.ovf, p := one32, q := q,
                       gridS := none, gridD := none }
    let srcs := rows.map (fun (r : List Nat) => r.map (srcOf o.fmtS 0))
    let r := convRows cv o.rnd g e 0 srcs x.cvr
    let amax := (srcs.flatten.foldl (fun (a : Amax) s => a.enter s.v) Amax.zero).amax
    (⟨tileMem f r.1, side (if t.isBlockOnly then 2 else 1) (recip32 q) amax
        (if t.isBlockOnly then o.cslot.toNat else 0) (if t.isBlockOnly then comp else 0)⟩, r.2.1.flatten, r.2.2)

/-- The context's tile address T = BASE + TOFF × 16,384 within the range (R194; modulo 2^50 as ADDB is, log 34); none
when it is misaligned. -/
def SCtx.tileAt (x : SCtx) (toff : Nat) : Option Nat :=
  let t := (x.base + toff * 16384) % 2 ^ 50
  if t % 16384 = 0 then some (t / 16384) else none

/-- The launch whose stream contexts a core runs: the one that runs there, or the one whose HALT there has still to
complete (R209, log 31), on a powered device in a LIVE box that is not frozen. -/
def State.streaming (s : State) (core : Nat) : Option (Nat × Launch) :=
  match s.running core with
  | some (b, l) =>
    match (s.core core).st with
    | .running | .held | .standby | .preempted => some (b, l)
    | _ => none
  | none =>
    match s.boxOfCore core with
    | none => none
    | some b =>
      let x := s.box b
      let c := s.core core
      if !s.dev.on || x.st ≠ 3 || x.frozen || c.st ≠ .halted || c.writesDone then none
      else match x.launches.find? (fun l => l.st == .running && l.haltedCores.contains (x.localCore core) && l.stop.isNone) with
        | some l => some (b, l)
        | none => none

/-- Whether a context is ready to issue: in RUN or waiting for a buffer or a cue, and not for a word (R193). -/
def SCtx.ready (x : SCtx) : Bool :=
  match x.st with
  | .run | .waitBuf | .waitArm => x.outs.all (fun o => o.kind != .word)
  | _ => false

/-- A stream instruction of a context: nothing happens when the context cannot issue one (log 2). At a preemption point
only CREDIT goes on (R209). An instruction that issues makes its context the one last served (R193). -/
def State.stream (s : State) (c : Ctx) (credit : Bool) (f : Nat → Launch → Core → SCtx → State) : State :=
  match s.streaming c.core.val with
  | none => s
  | some (b, l) =>
    let k := s.core c.core.val
    let x := k.ctx c.ctx.val
    if !x.ready || (k.st = .preempted && !credit) then s
    else f b l { k with served := c.ctx.val } { x with st := .run }

/-- The context after an instruction: the program counter that follows, and the fault of a program that runs out
(R192, R208 kind 0x2). -/
def State.went (s : State) (b : Nat) (l : Launch) (c : Ctx) (k : Core) (x : SCtx) (pc : Nat) : State :=
  let x := { x with pc := pc }
  let s := s.setCore c.core.val (k.setCtx c.ctx.val x)
  if x.st = .run && decide (k.nStream ≤ pc) then s.streamFault b l.num c.core.val c.ctx.val 2 pc else s
/-- The context goes on with the next instruction. -/
def State.next (s : State) (b : Nat) (l : Launch) (c : Ctx) (k : Core) (x : SCtx) : State := s.went b l c k x (x.pc + 1)
/-- The instruction waits in a state of its own; nothing else changes. -/
def State.wait (s : State) (c : Ctx) (x : SCtx) (st : CtxSt) : State :=
  s.setCore c.core.val ((s.core c.core.val).setCtx c.ctx.val { x with st := st })
/-- The instruction faults at issue. -/
def State.faults (s : State) (b : Nat) (l : Launch) (c : Ctx) (k : Core) (x : SCtx) (kind : Nat) : State :=
  (s.setCore c.core.val (k.setCtx c.ctx.val { x with pc := x.pc + 1 })).streamFault b l.num c.core.val c.ctx.val kind x.pc

/-- The active channels that bind a context (09:R219). -/
def Box.channelsOf (x : Box) (ctx : Nat) : List Nat :=
  (x.chans.filter (fun (p : Nat × Chan) => p.2.active && decide (p.2.lo ≤ ctx) && decide (ctx ≤ p.2.hi))).map Prod.fst

/-- A request is issued: it enters the request table and the context's outstanding list (R193); `pc` is
the program counter that follows. -/
def State.issueReq (s : State) (b : Nat) (l : Launch) (c : Ctx) (k : Core) (x : SCtx) (tile : Nat) (wing noalloc : Bool)
    (op : ReqOp) (kind : OutKind) (buf : Nat) (conv : Bool) (pc : Nat := x.pc + 1) : State :=
  let r : Req := { core := c.core.val, ctx := c.ctx.val, pc := x.pc, box := b, launch := l.num, tile := tile, wing := wing,
                   noalloc := noalloc, op := op, st := .waiting, got := {}, comp := [], word := 0, uses := [],
                   chans := (s.box b).channelsOf c.ctx.val }
  let id := s.nextReq
  let s := { s with nextReq := id + 1 }.setReq id (some r)
  s.went b l c k { x with outs := x.outs ++ [⟨id, kind, buf, conv⟩] } pc

/-- Whether a seventeenth GET, GETU, PUT or RACC would be outstanding (R193). -/
def SCtx.full (x : SCtx) : Bool := decide (16 ≤ x.outs.length)

/-- The format that a GET at issue will find: the latest earlier PUT of the context to the tile that is still
outstanding, else the tile as it stands (R196, R206; log 30). -/
def State.peekFmt (s : State) (b core ctx tile : Nat) (wing : Bool) : Option Fmt :=
  let puts := s.reqs.filterMap (fun (p : Nat × Option Req) => match p.2 with
    | some r => if r.core = core && r.ctx = ctx && r.tile = tile && r.st == ReqSt.waiting then
        (match r.op with | .put o _ _ _ _ => some (o.fmtD.getD o.fmtS) | _ => none) else none
    | none => none)
  match puts.getLast? with
  | some f => some f
  | none =>
    let x := s.box b
    let t := x.tile tile
    let p := if wing && x.wingOpen t then s.placeAt b t.wtier t.wframe else s.readPlace b tile
    match s.contents b tile p with
    | some d => sideFmt d.side
    | none => none

/-- GET and GETU issue (R193, R194, R196, R199, R201). -/
def State.issueGet (s : State) (c : Ctx) (o : GetOp) (u : Bool) : State :=
  s.stream c false fun b l k x =>
    let blk := match o.fmtD with | some f => f.isBlockOnly | none => false
    let buf := if u then (x.cur + 1) % (x.nbuf + 1) else x.cur
    if u && x.pol ≠ 2 then s.faults b l c k x 3
    else if !x.held.testBit buf then s.wait c x .waitBuf
    else if x.full then s.wait c x .run
    else if (o.scl && o.fmtD.isSome && !blk) || (blk && !o.scl) then s.faults b l c k x 4
    else match x.tileAt o.toff.toNat with
      | none => s.faults b l c k x 2
      | some t =>
        let e := (s.box b).tile t
        if u && !e.und then s.faults b l c k x 3
        else
          let tile := if u then e.utile else t
          let g := k.gen x.gs
          let n := match s.peekFmt b c.core.val c.ctx.val tile o.wing with | some f => 128 * f.perRow | none => 0
          let k := if o.fmtD.isSome && o.rnd = .stoch then k.setGen x.gs (g.after n) else k
          s.issueReq b l c k x tile o.wing o.noalloc (.get o u buf g) (if u then .getu else .get) buf o.fmtD.isSome

/-- What a stream read of a tile meets before it is served: held, a bus error, or nothing (10:R244, 09:R224, R227). -/
inductive Meets where
  | free | held | bad
  deriving DecidableEq, Repr

def Box.readMeets (x : Box) (launch tile : Nat) (wing : Bool) : Meets :=
  if !wing && x.tagTarget tile then .held
  else match x.scene.layerOf tile with
    | none => .free
    | some i =>
      let c := x.scene
      let o := c.old.contains launch
      if c.active then
        if decide (i < c.done) then .free
        else if !o then .held
        else if c.st = 2 && i = c.done then .held else .free
      else if c.st = 3 && !o && decide (c.done ≤ i) then .bad else .free

/-- The side record that a context's next read of a tile will find: that of its latest earlier PUT to the tile that is
still outstanding, else the one that stands there (R206). The companion it names is given, if it needs one. -/
def State.peekComp (s : State) (id : Nat) (r : Req) : Option Nat :=
  let puts := s.reqs.filterMap (fun (p : Nat × Option Req) => match p.2 with
    | some q => if decide (p.1 < id) && q.core == r.core && q.ctx == r.ctx && q.tile == r.tile && q.st == ReqSt.waiting then
        (match q.op with
        | .put o _ _ comp _ => some (match o.fmtD with | some f => if f.isBlockOnly then some comp else none | none => none)
        | _ => none) else none
    | none => none)
  match puts.getLast? with
  | some c => c
  | none =>
    let x := s.box r.box
    let t := x.tile r.tile
    match s.contents r.box r.tile (if r.wing && x.wingOpen t then s.placeAt r.box t.wtier t.wframe else s.readPlace r.box r.tile) with
    | some d => if sideNeedsComp d.side && !sideBad d.side then some (sideCompanion d.side) else none
    | none => none

/-- The tiles that a request reads or writes: its own, the companion that its side record names, and the 32 of a SIGN1
contribution (R196, R198; 10:R235). -/
def State.reqTiles (s : State) (id : Nat) (r : Req) : List Nat :=
  match r.op with
  | .get o _ _ _ => r.tile :: (if o.fmtD.isSome || o.scl then (s.peekComp id r).toList else [])
  | .put o _ _ comp _ => r.tile :: (match o.fmtD with | some f => if f.isBlockOnly then [comp] else [] | none => [])
  | .racc k =>
    let sign := match s.flight k, (s.box r.box).launch r.launch with
      | some f, some l => l.plan.any (fun e => e.tag == f.c.tag.toNat && e.op == 2)
      | _, _ => false
    if sign then (List.range 32).map (· + r.tile) else [r.tile]
  | _ => [r.tile]

/-- Whether an earlier request of the context to one of the same tiles has still to take effect (R206). -/
def State.waitsEarlier (s : State) (id : Nat) (r : Req) : Bool :=
  s.reqs.any (fun (p : Nat × Option Req) => match p.2 with
    | some q => decide (p.1 < id) && q.core == r.core && q.ctx == r.ctx && q.box == r.box
        && (q.st == ReqSt.waiting || q.st == ReqSt.held)
        && (match q.op with
            | .racc k => (match s.flight k with | some f => f.dev.isNone | none => false)
            | _ => true)
        && (s.reqTiles p.1 q).any (fun t => (s.reqTiles id r).contains t)
    | none => false)

/-- The state of a request changes. -/
def State.markReq (s : State) (id : Nat) (f : Req → Req) : State :=
  match s.req id with | some r => s.setReq id (some (f r)) | none => s

/-- A stream read of a tile through the cache, with its frames (07:R173, R175, R178; 12:R304). -/
def State.streamRead (s : State) (b core tile : Nat) (wing noalloc : Bool) (line : LineOutcome) :
    State × Option TileData × List (Nat × Nat) :=
  let s := if wing then s.normalise b tile else s
  let p := if wing then s.wingPlace b tile else s.readPlace b tile
  match p with
  | .at tier frame =>
    let h := s.cacheRead core tier frame noalloc
    let r := h.2.checkedRead b tile p (if h.1 then .good else line) 1 0
    (r.1, r.2, [(tier, frame)])
  | p => let r := s.checkedRead b tile p line 1 0; (r.1, r.2, [])

/-- Bytes of a tile of which each line comes from one of several writes (R206): the payload's 256 lines, and line 256, the
side record. -/
def mixLines (fresh tile : Nat) (own : TileData) (others : List TileData) : TileData :=
  let pick (i : Nat) : TileData := (own :: others).getD (Config.lineOrder fresh tile i % (others.length + 1)) own
  if others.isEmpty then own
  else ⟨(List.range 256).flatMap (fun i => ((pick i).data).filter (fun p => p.1 / 64 = i)), (pick 256).side⟩

/-- A stream's PUT has written a tile: the PUTs of other contexts to it that are outstanding meet it line by line (R206). -/
def State.noteOver (s : State) (r : Req) (tile : Nat) (d : TileData) : State :=
  { s with reqs := s.reqs.map (fun (p : Nat × Option Req) => (p.1, p.2.map (fun q =>
      if q.box == r.box && q.wing == r.wing && !(q.core == r.core && q.ctx == r.ctx) && q.st == ReqSt.waiting
          && (match q.op with
            | .put o _ _ comp _ => q.tile == tile || (o.fmtD.isSome && comp == tile)
            | _ => false) then
        { q with others := q.others ++ [(tile, d)] } else q))) }

/-- The frame from which a request's tile is served, as a use of it (07:R173). -/
def State.useOf (s : State) (b tile : Nat) (wing : Bool) : List (Nat × Nat) :=
  match (if wing then s.wingPlace b tile else s.readPlace b tile) with
  | .at tier frame => [(tier, frame)]
  | _ => []

/-- A PUT at its controller: the tile, then slot CSLOT of its companion, whose bytes beyond the last scale become 0 (R196,
R199; 07:R166). -/
def State.servePut (s : State) (id : Nat) (r : Req) (o : PutOp) (buf : Nat) (q : W32) (comp : Nat) (g : Gen)
    (line : LineOutcome) : State :=
  let k := s.core r.core
  let wt := (k.ctx r.ctx).wtier
  let t := k.putTile r.ctx o buf q comp (s.box r.box).step g
  let s := s.setCore r.core (k.updCtx r.ctx fun x => { x with cvr := t.2.2 })
  let write (s : State) (tile : Nat) (d : TileData) : Option State :=
    let others := (r.others.filter (fun (p : Nat × TileData) => p.1 = tile)).map Prod.snd
    let m := s.draw
    let s := if others.isEmpty then s else m.2
    let d := mixLines m.1 tile d others
    let w := if o.wing then (if (s.box r.box).isStepRec tile then none else s.wingWrite r.box tile wt d) else s.ordWrite r.box tile d
    w.map (fun (s : State) => (s.noteOver r tile d).markReq id fun r => { r with uses := r.uses ++ s.useOf r.box tile o.wing })
  let done (s : State) (st : ReqSt) : State := s.markReq id fun r => { r with st := st }
  match write s r.tile t.1 with
  | none => done s .failed
  | some s =>
    if t.2.1.isEmpty then done s .served
    else
      let s := if o.wing then s.normalise r.box comp else s
      let p := if o.wing then s.wingPlace r.box comp else s.readPlace r.box comp
      let d := s.checkedRead r.box comp p line 1 0
      match d.2 with
      | none => done d.1 .failed
      | some d0 =>
        let codes := t.2.1.map (BitVec.ofNat 8)
        match write d.1 comp { d0 with data := d0.data.store (o.cslot.toNat * 1024) (codes ++ List.replicate (1024 - codes.length) 0) } with
        | none => done d.1 .failed
        | some s => done s .served

/-- A request reaches its memory controller (07:R173, R175; R206; 12:R304). -/
def State.serveReq (s : State) (id : Nat) (r : Req) (line : LineOutcome) : State :=
  let b := r.box
  let fail (s : State) : State := s.markReq id fun r => { r with st := .failed }
  match r.op with
  | .racc _ => s
  | .put o buf q comp g => s.servePut id r o buf q comp g line
  | op =>
    match (s.box b).readMeets r.launch r.tile r.wing with
    | .held => s.markReq id fun r => { r with st := .held, on := r.tile }
    | .bad => fail s
    | .free =>
      let d := s.streamRead b r.core r.tile r.wing r.noalloc line
      match d.2.1 with
      | none => fail d.1
      | some t =>
        match op with
        | .get o _ _ _ =>
          if sideNeedsComp t.side && !sideBad t.side && (o.fmtD.isSome || o.scl) then
            match (s.box b).readMeets r.launch (sideCompanion t.side) r.wing with
            | .held => s.markReq id fun r => { r with st := .held, on := sideCompanion t.side }
            | .bad => fail d.1
            | .free =>
            let e := d.1.streamRead b r.core (sideCompanion t.side) r.wing r.noalloc line
            match e.2.1 with
            | none => fail e.1
            | some u => e.1.markReq id fun r => { r with st := .served, got := t, comp := u.data, uses := d.2.2 ++ e.2.2 }
          else d.1.markReq id fun r => { r with st := .served, got := t, uses := d.2.2 }
        | .lda a => d.1.markReq id fun r => { r with st := .served, word := leNat (t.data.bytes (a % 16384) 4), uses := d.2.2 }
        | .rearm a => d.1.markReq id fun r => { r with st := .served, word := leNat (t.data.bytes (a % 16384) 8), uses := d.2.2 }
        | _ => d.1

/-- MEM_REQUEST (07:R173; 12:R304): a stream's request enters translation at its memory controller and is served. -/
def execMemRequest (req : Nat) (line : LineOutcome) (s : State) : Host.Outcome State Fault Refusal :=
  match s.req req with
  | none => .next s
  | some r =>
    if (r.st == ReqSt.waiting || r.st == ReqSt.held) && !s.waitsEarlier req r && s.dev.on && !(s.box r.box).frozen then
      .next (s.serveReq req r line)
    else .next s

/-- A preempted core's image is written again when its streams have completed what they issued (log 29). -/
def State.imageAgain (s : State) (b num core : Nat) : State :=
  match (s.box b).launch num with
  | some l => if (s.core core).st = .preempted && (s.core core).drained then s.saveImage b core l else s
  | none => s

/-- A request has completed: it leaves its context, and what waited for it goes on. -/
def State.reqDone (s : State) (id : Nat) (r : Req) : State :=
  let k := s.core r.core
  let s := (s.setCore r.core (k.updCtx r.ctx fun x => { x with outs := x.outs.filter (fun o => o.id ≠ id) })).setReq id none
  (s.imageAgain r.box r.launch r.core).finishLaunch r.box r.launch

/-- Whether a context still has a request outstanding. -/
def State.ownsReq (s : State) (id : Nat) (r : Req) : Bool :=
  ((s.core r.core).ctx r.ctx).outs.any (fun o => o.id == id)

end Sys2Proof.Machine
end

