-- ==== Sys2Proof/Machine/Reduction.lean ====
section
/-! DEFINITION. The reduction engines (chapter 10): contributions, tags, target tiles and their completion. -/
namespace Sys2Proof.Machine

/-- OP codes (R235). -/
def opAddInt : Nat := 1
def opSign1 : Nat := 2
def opAddOrd : Nat := 3
def opMax : Nat := 4
def opDeposit : Nat := 5

/-- Target tiles of one contribution (R235). -/
def PlanEntry.span (e : PlanEntry) : Nat := if e.op = opSign1 then 32 else 1
/-- The target's format. -/
def PlanEntry.target (e : PlanEntry) : Fmt := (Fmt.ofCode e.fmt).getD .bi32
/-- Lim of R237. -/
def PlanEntry.lim (e : PlanEntry) : Int := (2 ^ (31 - e.guardBits) : Nat) - 1
/-- The devices of an ADD_ORD tag in rank order (R240). -/
def PlanEntry.ranks (e : PlanEntry) : List Nat :=
  let ds := (List.range 64).filter (fun d => e.devmask.testBit d)
  if e.order then ds else sortBy (fun d => (d + 128 - e.ddev - 1) % 64) ds
/-- Contributions that a target tile requires (R243). -/
def PlanEntry.required (e : PlanEntry) : Nat :=
  if e.op = opAddOrd then e.ranks.length else if e.op = opDeposit then 1 else e.ncontrib

/-- The grid of a ledger entry (R249, 02:R394). -/
def bi32Grid (entry : List Byte) (g : Nat) : Int :=
  let hist (i : Nat) : Nat := fieldAt entry (0x20 + 4 * i) 4
  let a := match ledgerRead (hist (fieldAt entry 0x0B 1 % 16)) with
    | some l => some l
    | none => ledgerMax ((List.range 16).map hist)
  match a with
  | none => -192
  | some l => max (-192) (min 127 (l + 2 + g + fieldAt entry 0x0A 1 - 31))

/-- A tile's accumulation: the words of its payload combined with a contribution, and the elements limited (R236 to R242,
R251). `old` is none when the tile is found without an earlier value; `part` is the tile's index among 32. -/
def combine (e : PlanEntry) (mag : Nat) (part : Nat) (old : Option Mem) (c : List Byte) : Mem × Nat :=
  let f := e.target
  let w := f.width
  let n := 131072 / w
  let olds : List Nat := match old with
    | some m => unpackBits w n (m.bytes 0 16384)
    | none => List.replicate n 0
  let pack (vs : List Nat) : Mem := Tab.block 0 0 (packBits w vs)
  if e.op = opDeposit then (Tab.block 0 0 c, 0)
  else if e.op = opSign1 then
    let m : Int := min (mag : Int) e.lim
    let vs := ((List.range n).zip olds).map (fun (p : Nat × Nat) =>
      let i := part * 4096 + p.1
      let b := ((c.getD (i / 8) 0).toNat).testBit (i % 8)
      lowBits 32 (signedOf 32 p.2 + (if b then -m else m)))
    (pack vs, if e.lim < (mag : Int) then 4096 else 0)
  else
    let xs := unpackBits w n c
    if e.op = opAddInt then
      if f = .int32 then (pack (List.zipWith (fun a b => (a + b) % 2 ^ 32) olds xs), 0)
      else
        let lim (x : Nat) : Int := max (-e.lim) (min e.lim (signedOf 32 x))
        (pack (List.zipWith (fun a b => lowBits 32 (signedOf 32 a + lim b)) olds xs),
          (xs.filter (fun x => lim x ≠ signedOf 32 x)).length)
    else if e.op = opAddOrd then (pack (List.zipWith (fun a b => f.addC .near 0 a b) olds xs), 0)
    else match old with
      | none => (Tab.block 0 0 c, 0)
      | some _ => (pack (List.zipWith (fun a b => f.maxOf a b) olds xs), 0)

/-- The side record of a completed target tile (R243). -/
def PlanEntry.side (e : PlanEntry) (grid : Int) (s sat : Nat) : Mem :=
  let f := e.target
  let head : List Byte := if f = .bi32 then
      leBytes 2 (lowBits 16 grid) ++ leBytes 1 e.guardBits ++ leBytes 1 0 ++ leBytes 4 0x1000 ++ leBytes 4 sat ++ leBytes 4 0
    else []
  Tab.block 0 0 (leBytes 1 e.fmt ++ leBytes 1 (if f = .bi32 then 5 else 0) ++ leBytes 2 0 ++ leBytes 4 one32.toNat
    ++ leBytes 4 0x7FC00000 ++ leBytes 2 0 ++ leBytes 1 128 ++ leBytes 1 0 ++ leBytes 2 f.perRow ++ leBytes 2 0
    ++ leBytes 4 s ++ leBytes 8 0 ++ head)

def Box.tag (x : Box) (t : Nat) : Tag := Tab.get {} x.tags t
def State.updTag (s : State) (b t : Nat) (f : Tag → Tag) : State :=
  s.updBox b fun x => { x with tags := Tab.upd {} x.tags t f }
def Tag.tile (t : Tag) (k : Nat) : TagTile := Tab.get {} t.tiles k

/-- The seat whose engine takes a contribution to a tile: the one whose stack holds its live frame (R228); a tile without
an HBM3E frame is met by the engine of the box's lowest-numbered seat (log 35). -/
def State.engineOf (s : State) (b tile : Nat) : Nat × Bool :=
  match s.readPlace b tile with
  | .at 0 frame => (frame / hbmFrames, true)
  | _ => ((s.box b).seat0, false)

/-- What an engine answers to a contribution (R233, R241, R247). -/
inductive Verdict where
  | accept
  | retry (cause : Nat)
  | refuse (cause : Nat)
  deriving DecidableEq, Repr

/-- The tag-completion tokens of a complete tag (01:R29, R245): every (device, core, cue) that its RACCs named, and WCORE. -/
def State.tellTag (s : State) (b : Nat) (t : Tag) (e : PlanEntry) : State :=
  let s := t.told.foldl (fun s (p : Nat × Nat × Nat) => s.send (.tagToken p.1 p.2.1 p.2.2 e.tag)) s
  if e.wcore = 0xFF then s
  else match (s.box b).coreList[e.wcore]? with
    | some core => s.send (.tagToken (s.boxIndex b) core e.wcue e.tag)
    | none => s

/-- A target tile is held in an engine's staging store; when its half is full, one of the 64 is written back to its frame
first (R229): false when that write cannot be made. -/
def State.stage (s : State) (seat : Nat) (g : Staged) : State × Bool :=
  let there := (s.seat seat).staged.filter (fun (h : Staged) => !(h.box == g.box && h.tag == g.tag && h.tile == g.tile))
  if there.length < 64 then (s.updSeat seat fun x => { x with staged := there ++ [g] }, true)
  else
    let d := s.draw
    let i := Config.evict d.1 % there.length
    match there[i]? with
    | none => (d.2, false)
    | some h =>
      match d.2.writeTile h.box h.tile h.data with
      | none => (d.2, false)
      | some s => (s.updSeat seat fun x => { x with staged := there.eraseIdx i ++ [g] }, true)
def State.unstage (s : State) (seat b tag tile : Nat) : State :=
  s.updSeat seat fun x => { x with staged := x.staged.filter (fun (h : Staged) => !(h.box == b && h.tag == tag && h.tile == tile)) }
/-- A target tile in the staging store. -/
def State.stagedAt (s : State) (seat b tag tile : Nat) : Option TileData :=
  ((s.seat seat).staged.find? (fun (h : Staged) => h.box == b && h.tag == tag && h.tile == tile)).map Staged.data

/-- A contribution is applied to one target tile in the staging store, which a complete tile leaves for its frame (R228,
R229, R236 to R243): false, with the alarm, for an integrity failure. -/
def State.applyTile (s : State) (b tag : Nat) (e : PlanEntry) (seat tile part : Nat) (c : Contrib) (line : LineOutcome) :
    State × Bool :=
  let t := (s.box b).tag tag
  let tt := t.tile tile
  let first := e.zero && (if e.op = opAddOrd then decide (tt.applied = 0) else decide (tt.count = 0))
  let r : State × Option TileData :=
    match s.stagedAt seat b tag tile with
    | some d => (s, some d)
    | none =>
      if e.op = opDeposit || first then (s, some ⟨[], match s.readTile b tile with | some d => d.side | none => []⟩)
      else s.checkedRead b tile (s.readPlace b tile) line 2 1
  match r.2 with
  | none => (r.1, false)
  | some old =>
    let m := combine e c.mag.toNat part (if first then none else some old.data) c.data
    let tt : TagTile := { tt with count := tt.count + 1, sat := tt.sat + m.2,
                                  applied := if e.op = opAddOrd then tt.applied + 1 else tt.applied }
    let full := decide (e.required ≤ (if e.op = opAddOrd then tt.applied else tt.count))
    let put : State × Bool :=
      if full then (match r.1.writeTile b tile ⟨m.1, e.side t.grid t.s tt.sat⟩ with
        | none => (r.1, false)
        | some s => (s.unstage seat b tag tile, true))
      else if (r.1.writePlace b tile).isNone then (r.1, false)
      else r.1.stage seat ⟨b, tag, tile, ⟨m.1, old.side⟩⟩
    if !put.2 then put
    else
      let s := if ((put.1.box b).tile tile).st = tsMigrating then put.1.abandonMove b tile else put.1
      let tt := { tt with complete := full }
      let s := s.updTag b tag fun t => { t with tiles := Tab.set {} t.tiles tile tt, done := if full then t.done + 1 else t.done }
      (s.updSeat seat fun x => { x with redClamped := satAdd 32 x.redClamped m.2 }, true)

/-- Held contributions of a tile are applied while one is in its turn (R241). -/
def State.drainHolds (s : State) (b tag : Nat) (e : PlanEntry) (seat tile : Nat) : Nat → State
  | 0 => s
  | fuel + 1 =>
    let tt := ((s.box b).tag tag).tile tile
    match e.ranks[tt.applied]? with
    | none => s
    | some d =>
      match (s.seat seat).holds.find? (fun h => h.c.box.val == b && h.c.tag.toNat == tag && h.c.tile == tile && h.c.sdev == d) with
      | none => s
      | some h =>
        let s := s.updSeat seat fun x => { x with holds := x.holds.filter (· ≠ h) }
        let r := s.applyTile b tag e seat tile 0 h.c .good
        if r.2 then (r.1.updSeat seat fun x => { x with redApplied := satAdd 32 x.redApplied 1 }).drainHolds b tag e seat tile fuel
        else r.1

/-- The tag completes when every target tile has (R245). -/
def State.tagDone (s : State) (b tag : Nat) (e : PlanEntry) : State :=
  let t := (s.box b).tag tag
  if t.st = 1 && decide (e.count ≤ t.done) then
    (s.updTag b tag fun t => { t with st := 2 }).tellTag b t e
  else s

/-- An engine takes a contribution (R233 to R247). -/
def State.contribute (s : State) (c : Contrib) (line : LineOutcome) : State × Verdict :=
  let b := c.box.val
  let tag := c.tag.toNat
  let x := s.box b
  let t := x.tag tag
  let cs := c.step.toNat
  let seat := (s.engineOf b c.tile).1
  if t.st = 0 then (s, if cs < x.step then .refuse 2 else .retry 0)
  else if t.s < cs then (s, .retry 0)
  else if cs < t.s then (s, .refuse 2)
  else match t.st, t.entry with
    | 1, some e =>
      let ts := (List.range e.span).map (fun i => c.tile + i)
      if !ts.all (fun k => t.covers k && s.engineOf b k == (seat, true)
          && ((s.box b).scene.active → ((s.box b).scene.layerOf k).isNone)) then (s, .refuse 4)
      else if e.target = .bi32 && signedOf 16 c.grid.toNat ≠ t.grid then (s, .refuse 1)
      else
        let late := if e.op = opAddOrd then (t.tile c.tile).seen.contains c.sdev || !e.ranks.contains c.sdev
          else ts.any (fun k => (t.tile k).complete)
        if late then (s.failTag b tag, .refuse 5)
        else
          let turn := e.op ≠ opAddOrd || e.ranks[(t.tile c.tile).applied]? == some c.sdev
          let who : Nat × Nat × Nat := (c.sdev, c.score, c.cue.val)
          let note (s : State) : State := s.updTag b tag fun t =>
            { t with told := if t.told.contains who then t.told else t.told ++ [who],
                     tiles := if e.op = opAddOrd then Tab.upd {} t.tiles c.tile (fun k => { k with seen := k.seen ++ [c.sdev] }) else t.tiles }
          if !turn then
            if 64 ≤ (s.seat seat).holds.length then (s, .retry 1)
            else ((note s).updSeat seat fun x => { x with holds := x.holds ++ [⟨c⟩] }, .accept)
          else
            let r := ts.foldl (fun (r : State × Bool) k =>
              if r.2 then r.1.applyTile b tag e seat k (k - c.tile) c line else r) (note s, true)
            if r.2 then
              let s := r.1.updSeat seat fun x => { x with redApplied := satAdd 32 x.redApplied 1 }
              let s := if e.op = opAddOrd then s.drainHolds b tag e seat c.tile 64 else s
              (s.tagDone b tag e, .accept)
            else (r.1.failTag b tag, .refuse 6)
    | _, _ => (s, .refuse 3)

/-- The counters of a verdict (chapter 10 registers). -/
def State.noteVerdict (s : State) (seat : Nat) : Verdict → State
  | .accept => s
  | .retry k => s.updSeat seat fun x => { x with redRetry := satAdd 31 x.redRetry 1, redRetryLast := k }
  | .refuse k => s.updSeat seat fun x => { x with redRefused := satAdd 28 x.redRefused 1, redRefLast := k }

/-- CONTRIBUTION_ARRIVE (R230, R233, R239 to R245): a contribution of this device, or one from the fabric, reaches the
engine of its target tile. -/
def execContributionArrive (c : ContribSrc) (line : LineOutcome) (s : State) : Host.Outcome State Fault Refusal :=
  match c with
  | .own k =>
    match s.flight k with
    | none => .next s
    | some f =>
      let wait := match s.req f.req with | some r => s.waitsEarlier f.req r | none => false
      if f.dev.isSome || f.retry || wait || !s.dev.on then .next s
      else
        let seat := (s.engineOf f.c.box.val f.c.tile).1
        let r := s.contribute f.c line
        let s := r.1.noteVerdict seat r.2
        match r.2 with
        | .accept => .next ((s.setFlight k none).markReq f.req fun q =>
            { q with st := .served, uses := s.useOf f.c.box.val f.c.tile false })
        | .refuse _ => .next ((s.setFlight k none).markReq f.req fun q => { q with st := .failed })
        | .retry _ => .next (s.setFlight k (some { f with retry := true }))
  | .fabric c =>
    let x := s.box c.box.val
    if !s.dev.on || x.st ≠ 3 || x.frozen then .next s
    else
      let seat := (s.engineOf c.box.val c.tile).1
      let r := s.contribute c line
      let s := r.1.noteVerdict seat r.2
      match r.2 with
      | .accept => .next s
      | .refuse _ => .next (s.send (.refuseBack c))
      | .retry _ => .next (s.send (.retryBack c))

/-- CONTRIBUTION_RETRY (R233): a contribution returned for retry is sent again; one for another device goes out on the
fabric again. -/
def execContributionRetry (k : Nat) (s : State) : Host.Outcome State Fault Refusal :=
  match s.flight k with
  | none => .next s
  | some f =>
    match f.dev with
    | some d => .next (s.send (.contribution d f.c))
    | none => .next (if f.retry then s.setFlight k (some { f with retry := false }) else s)

/-- Whether a launch's core waits for the completion of a tag under a cue: its plan has the tag (R245). -/
def Launch.awaits (l : Launch) (tag : Nat) : Bool := l.plan.any (fun e => e.tag == tag)

/-- TAG_COMPLETION (01:R29, R204, R245): the cue is raised on the core with the deadline that its cue table holds; a token
of a tag of a launch that is preempted there goes to that launch's image (06:R154). -/
def execTagCompletion (core : Fin 128) (m : TagMark) (s : State) : Host.Outcome State Fault Refusal :=
  match s.boxOfCore core.val with
  | none => .next s
  | some b =>
    let x := s.box b
    let own := (x.tag m.tag.toNat).launch
    let here := match x.runsOn core.val with
      | some l => l.awaits m.tag.toNat && ((x.tag m.tag.toNat).st == 0 || own == l.num)
      | none => false
    let away := x.launches.filter (fun (l : Launch) => Tab.has l.saved core.val && l.awaits m.tag.toNat)
    let home := if here then none else ((away.find? (fun l => l.num == own)).orElse (fun _ => away.head?)).map Launch.num
    let c := match home with
      | some n => (match x.launch n with | some l => Tab.get ({} : Core) l.saved core.val | none => s.core core.val)
      | none => s.core core.val
    let q := c.cue m.cue.val
    .next (s.sendToken b core.val home ⟨.other, m.cue.val, q.ddl, 0, 0, !q.armed, 1⟩)

/-- RACC (R204, R231 to R234, R239, R251): the contribution is checked against the plan and sent. -/
def execRacc (x : Ctx) (tag : BitVec 12) (cue : Fin 64) (doff toff : BitVec 15) (s : State) : Host.Outcome State Fault Refusal :=
  .next (s.stream x false fun b l k c =>
    if !c.held.testBit c.cur then s.wait x c .waitBuf
    else if c.full then s.wait x c .run
    else match c.tileAt toff.toNat with
      | none => s.faults b l x k c 2
      | some tile =>
        if !c.fits (doff.toNat * 64) 16384 then s.faults b l x k c 2
        else match l.plan.find? (fun e => e.tag == tag.toNat) with
          | none => s.faults b l x k c 5
          | some e =>
            if tile < e.first || e.first + e.count ≤ tile || (tile - e.first) % e.span ≠ 0 then s.faults b l x k c 5
            else
              let a (i : Nat) : W32 := Tab.get 0 c.a i
              let q : Contrib := { box := ⟨b % 16, Nat.mod_lt _ (by decide)⟩, tag := tag, tile := tile, sdev := s.boxIndex b,
                                   score := x.core.val, cue := cue, step := BitVec.ofNat 64 (s.box b).step,
                                   grid := BitVec.ofNat 16 (a 1).toNat, mag := a 2,
                                   data := k.stageBytes (c.bufBase c.cur + doff.toNat * 64) 16384 }
              let own := e.ddev == s.boxIndex b
              let f := s.nextFlight
              let id := s.nextReq
              let s := s.issueReq b l x k c tile false false (.racc f) .racc c.cur false
              let s := { s with nextFlight := f + 1 }.setFlight f
                (some ⟨q, if own then none else some e.ddev, id, false⟩)
              if own then s else s.send (.contribution e.ddev q))

end Sys2Proof.Machine
end

