-- ==== Sys2Proof/Machine/StreamRows.lean ====
section
/-! DEFINITION. The stream instructions of R192, one definition each, and the completion of their requests (R193). -/
namespace Sys2Proof.Machine

/-- A context with an A register changed. -/
def SCtx.setA (x : SCtx) (a : Fin 3) (v : W32) : SCtx := { x with a := Tab.set 0 x.a a.val v }
def SCtx.getA (x : SCtx) (a : Fin 3) : W32 := Tab.get 0 x.a a.val

/-- NOP (R192). -/
def execStreamNop (x : Ctx) (s : State) : Host.Outcome State Fault Refusal :=
  .next (s.stream x false fun b l k c => s.next b l x k c)
/-- SETB (R192). -/
def execSetb (x : Ctx) (imm : BitVec 50) (s : State) : Host.Outcome State Fault Refusal :=
  .next (s.stream x false fun b l k c => s.next b l x k { c with base := imm.toNat })
/-- ADDB (R192). -/
def execAddb (x : Ctx) (imm : BitVec 50) (s : State) : Host.Outcome State Fault Refusal :=
  .next (s.stream x false fun b l k c => s.next b l x k { c with base := (c.base + imm.toNat) % 2 ^ 50 })
/-- SETA (R192). -/
def execSeta (x : Ctx) (a : Fin 3) (imm : W32) (s : State) : Host.Outcome State Fault Refusal :=
  .next (s.stream x false fun b l k c => s.next b l x k (c.setA a imm))
/-- ADDA (R192). -/
def execAdda (x : Ctx) (a : Fin 3) (imm : W32) (s : State) : Host.Outcome State Fault Refusal :=
  .next (s.stream x false fun b l k c => s.next b l x k (c.setA a (c.getA a + imm)))
/-- SETL (R192). -/
def execSetl (x : Ctx) (imm : BitVec 50) (s : State) : Host.Outcome State Fault Refusal :=
  .next (s.stream x false fun b l k c => s.next b l x k { c with list := imm.toNat })
/-- JMP (R192). -/
def execStreamJmp (x : Ctx) (target : BitVec 12) (s : State) : Host.Outcome State Fault Refusal :=
  .next (s.stream x false fun b l k c => s.went b l x k c target.toNat)
/-- DJNZ (R192). -/
def execDjnz (x : Ctx) (a : Fin 3) (target : BitVec 12) (s : State) : Host.Outcome State Fault Refusal :=
  .next (s.stream x false fun b l k c =>
    let v := c.getA a - 1
    s.went b l x k (c.setA a v) (if v = 0 then c.pc + 1 else target.toNat))
/-- END (R192). -/
def execStreamEnd (x : Ctx) (s : State) : Host.Outcome State Fault Refusal :=
  .next (s.stream x false fun b l k c => s.next b l x k { c with st := .done })
/-- LDA (R192, R193): the word's request is issued, and the context waits for it. -/
def execLda (x : Ctx) (a : Fin 3) (off : W32) (s : State) : Host.Outcome State Fault Refusal :=
  .next (s.stream x false fun b l k c =>
    let t := (c.base + off.toNat) % 2 ^ 50
    if off.toNat % 4 ≠ 0 || t % 4 ≠ 0 then s.faults b l x k c 2
    else s.issueReq b l x k { c with ldaTo := a.val } (t / 16384) false false (.lda t) .word 0 false)
/-- REARM (R202): the list word's request is issued, and the context waits for it. -/
def execRearm (x : Ctx) (s : State) : Host.Outcome State Fault Refusal :=
  .next (s.stream x false fun b l k c =>
    if c.list % 8 ≠ 0 then s.faults b l x k c 2
    else s.issueReq b l x k c (c.list / 16384) false false (.rearm c.list) .word 0 false c.pc)
/-- GET (R194 to R198). -/
def execGet (x : Ctx) (o : GetOp) (s : State) : Host.Outcome State Fault Refusal := .next (s.issueGet x o false)
/-- GETU (R201). -/
def execGetu (x : Ctx) (o : GetOp) (s : State) : Host.Outcome State Fault Refusal := .next (s.issueGet x o true)

/-- PUT (R194 to R196, R199): its draws are taken and its request is issued. -/
def execPut (x : Ctx) (o : PutOp) (s : State) : Host.Outcome State Fault Refusal :=
  .next (s.stream x false fun b l k c =>
    let f := o.fmtD.getD o.fmtS
    if !c.held.testBit c.cur then s.wait x c .waitBuf
    else if c.full then s.wait x c .run
    else match c.tileAt o.toff.toNat with
      | none => s.faults b l x k c 2
      | some tile =>
        if !c.fits 0 (moveEnd o.doff.toNat o.pitch.toNat o.orient o.fmtS.width f.perRow) then s.faults b l x k c 2
        else
          let g := k.gen c.gs
          let k := if o.fmtD.isSome && o.rnd = .stoch then k.setGen c.gs (g.after (128 * f.perRow)) else k
          let q := match o.qa with | some a => c.getA a | none => one32
          let comp := (c.base / 16384 + (c.getA o.ca).toNat) % 2 ^ 36
          s.issueReq b l x k c tile o.wing false (.put o c.cur q comp g) .put c.cur o.fmtD.isSome)

/-- CREDIT (R193, R200, R201): it waits for the buffer's cue and for the requests of the buffer, then sends the credit. -/
def execCredit (x : Ctx) (u : Bool) (s : State) : Host.Outcome State Fault Refusal :=
  .next (s.stream x true fun b l k c =>
    let buf := if u then (c.cur + 1) % (c.nbuf + 1) else c.cur
    if u && c.pol ≠ 2 then s.faults b l x k c 3
    else if !c.armed.testBit buf then s.wait x c .waitArm
    else if c.outs.any (fun o => o.buf == buf && o.kind != .word) then s.wait x c .run
    else
      let cue := c.cueOf buf
      let q := k.cue cue
      let t : Token := ⟨.fill, cue, q.ddl, x.ctx.val, buf, c.abnd.testBit buf || !q.armed, 1⟩
      let step := if c.pol = 2 then 2 else 1
      let c := { c with armed := setBitN c.armed buf false, abnd := setBitN c.abnd buf false,
                        cur := if u then c.cur else (c.cur + step) % (c.nbuf + 1) }
      ((s.next b l x k c).sendToken b x.core.val none t).imageAgain b l.num x.core.val)

/-- MARK (R203): the marker goes to the migration engines. -/
def execMark (x : Ctx) (a : Fin 3) (s : State) : Host.Outcome State Fault Refusal :=
  .next (s.stream x false fun b l k c =>
    let m := (c.getA a).toNat % 2 ^ 16
    (s.updBox b fun y => { y with markers := y.markers ++ [(l.num, m)] }).next b l x k c)

/-- RECW (R193, R197): the conversion record is written into the buffer once every earlier conversion has completed. -/
def execRecw (x : Ctx) (clr : Bool) (doff : BitVec 15) (s : State) : Host.Outcome State Fault Refusal :=
  .next (s.stream x false fun b l k c =>
    if !c.held.testBit c.cur then s.wait x c .waitBuf
    else if c.outs.any (fun o => o.conv) then s.wait x c .run
    else if !c.fits (doff.toNat * 64) 32 then s.faults b l x k c 2
    else
      let k := (k.stageStore (c.bufBase c.cur + doff.toNat * 64) (c.cvr.bytes ++ leBytes 12 0)).noteLoads
        [(c.bufBase c.cur + doff.toNat * 64, 32)]
      s.next b l x k (if clr then { c with cvr := Amax.zero } else c))

/-- A tile delivered to a context counts on every channel that bound it when its request was issued (09:R219,
MEM_CH_SERVED). -/
def State.countServed (s : State) (b : Nat) (chans : List Nat) : State :=
  s.updBox b fun x => { x with chans := x.chans.map (fun (p : Nat × Chan) => (p.1,
    if chans.contains p.1 then { p.2 with served := satAdd 32 p.2.served 1 } else p.2)) }

/-- STREAM_REQUEST_COMPLETE (R193, R195 to R198, R208; 10:R233): a GET, GETU, PUT or RACC completes at its stream. For a RACC
to another device it brings that engine's answer: accepted, or refused, which is a bus error. -/
def execStreamRequestComplete (x : Ctx) (e : ReqEnd) (s : State) : Host.Outcome State Fault Refusal :=
  let req := e.req
  match s.req req with
  | none => .next s
  | some r =>
    if r.core ≠ x.core.val || r.ctx ≠ x.ctx.val then .next s
    else if !s.ownsReq req r then .next (if r.st == ReqSt.served || r.st == ReqSt.failed then s.setReq req none else s)
    else
      let fault (kind : Nat) : State := (s.streamFault r.box r.launch r.core r.ctx kind r.pc).reqDone req r
      match r.op, r.st with
      | .get o _ buf g, .served =>
        match (s.core r.core).deliver r.ctx o buf g r.got r.comp with
        | .ok c => .next (((s.setCore r.core c).countServed r.box r.chans).reqDone req r)
        | .error kind => .next (fault kind)
      | .put _ _ _ _ _, .served => .next (s.reqDone req r)
      | .racc k, .served => .next ((s.setFlight k none).reqDone req r)
      | .racc k, .waiting =>
        match s.flight k with
        | some f =>
          if f.dev.isNone then .next s
          else if e.refused then .next (((s.setFlight k none).streamFault r.box r.launch r.core r.ctx 1 r.pc).reqDone req r)
          else .next ((s.setFlight k none).reqDone req r)
        | none => .next s
      | .lda _, _ => .next s
      | .rearm _, _ => .next s
      | _, .failed => .next (fault 1)
      | _, _ => .next s

/-- STREAM_WORD_ARRIVE (R192, R193, R202): the word that an LDA or a REARM waits for; a REARM of a context that has faulted
meanwhile has no effect left (R208). -/
def execStreamWordArrive (x : Ctx) (req : Nat) (s : State) : Host.Outcome State Fault Refusal :=
  match s.req req with
  | none => .next s
  | some r =>
    if r.core ≠ x.core.val || r.ctx ≠ x.ctx.val then .next s
    else if !s.ownsReq req r then .next (if r.st == ReqSt.served || r.st == ReqSt.failed then s.setReq req none else s)
    else
      let fault (kind : Nat) : State := (s.streamFault r.box r.launch r.core r.ctx kind r.pc).reqDone req r
      let k := s.core r.core
      match r.op, r.st with
      | .lda _, .served =>
        .next ((s.setCore r.core (k.updCtx r.ctx fun c => { c with a := Tab.set 0 c.a c.ldaTo (BitVec.ofNat 32 r.word) })).reqDone req r)
      | .rearm _, .served =>
        if (k.ctx r.ctx).st = .fault then .next (s.reqDone req r)
        else if r.word.testBit 63 then
          .next ((s.setCore r.core (k.updCtx r.ctx fun c => { c with st := .done, pc := c.pc + 1 })).reqDone req r)
        else if bitsOf r.word 62 50 ≠ 0 then .next (fault 2)
        else
          .next ((s.setCore r.core (k.updCtx r.ctx fun c =>
            { c with base := bitsOf r.word 49 0, list := (c.list + 8) % 2 ^ 50, pc := 0 })).reqDone req r)
      | .lda _, .failed => .next (fault 1)
      | .rearm _, .failed => .next (fault 1)
      | _, _ => .next s

end Sys2Proof.Machine
end

