-- ==== Sys2Proof/Machine/Migration.lean ====
section
/-! DEFINITION. Migration, stage markers, frame release and the epoch walker (07:R173, R176, R180 to R183). -/
namespace Sys2Proof.Machine

/-- FRAME_RELEASE (07:R173): a released frame returns to its free pool when no request that translated to it is left. -/
def execFrameRelease (tier : Fin 3) (frame : Nat) (s : State) : Host.Outcome State Fault Refusal :=
  .next (if s.releasing.contains (frameKey tier.val frame) && !s.inUse tier.val frame then s.returnFrame tier.val frame else s)

/-- The seat whose queue takes a move (R180): the one whose frame it reads, or writes when it comes out of flash or
partner memory, or its first tile has no frame; a move into flash from there goes by the box's lowest-numbered seat
(log 36). -/
def State.moveSeat (s : State) (m : Move) : Nat :=
  let x := s.box m.box
  let t := x.tile m.first
  let framed := (t.st == tsZero || t.st == tsResident || t.st == tsMigrating) && !t.bare
  match (if framed then seatOf t.tier t.frame else none) with
  | some k => k
  | none => if m.dtier < 2 then m.dseat else x.seat0

/-- A move is queued; none when its queue is full (R180). -/
def State.queueMove (s : State) (m : Move) : Option State :=
  let k := s.moveSeat m
  if 4096 ≤ (s.seat k).moves.length then none else some (s.updSeat k fun x => { x with moves := x.moves ++ [m] })

/-- A move home of one tile of a lazy restore (R177; 11:R282). -/
def homeMove (b : Nat) (h : Nat × Nat × Nat) : Move := ⟨b, h.1, 1, h.2.1, h.2.2, false, false, none, false, true⟩
/-- Moves home that no queue has had room for yet are queued, in order (11:R282). -/
def State.queueHomes (s : State) (b : Nat) : State :=
  (s.box b).homeDue.foldl (fun s h => match s.queueMove (homeMove b h) with
    | some s => s.updBox b fun x => { x with homeDue := x.homeDue.filter (· ≠ h) }
    | none => s) s

/-- The prefetch entries of a launch that are due at marker `k` are queued in list order (R183). -/
def State.queueDue (s : State) (b num k : Nat) : State :=
  match (s.box b).launch num with
  | none => s
  | some l =>
    (List.range l.pf.length).foldl (fun s i =>
      match ((s.box b).launch num).bind (fun l => l.pf[i]?) with
      | none => s
      | some e =>
        if e.queued || k + l.lead < e.stage then s
        else match s.queueMove ⟨b, e.first, e.count, e.dtier, e.dseat, e.flags.testBit 0, e.flags.testBit 1, none, false, false⟩ with
          | none => s
          | some s => s.updLaunch b num fun l => { l with pf := listUpd l.pf i (fun e => { e with queued := true }) }) s

/-- STAGE_MARKER (R183): the oldest marker on its way reaches the migration engines; a lower or repeated one is ignored. -/
def execStageMarker (box : Fin 16) (s : State) : Host.Outcome State Fault Refusal :=
  let b := box.val
  match (s.box b).markers with
  | [] => .next s
  | (num, k) :: ms =>
    let s := s.updBox b fun x => { x with markers := ms }
    match (s.box b).launch num with
    | none => .next s
    | some l =>
      if (match l.marker with | some m => decide (k ≤ m) | none => false) then .next s
      else .next ((s.updLaunch b num fun l => { l with marker := some k }).queueDue b num k)

/-- Whether a tile is the understudy of another tile, so that it cannot be unpinned (R185). -/
def Box.isUnderstudy (x : Box) (tile : Nat) : Bool := x.tiles.any (fun (p : Nat × Tile) => p.2.und && p.2.utile == tile)

/-- Whether the engine skips a tile (R181, R177, 09:R226, 10:R244). -/
def State.skips (s : State) (m : Move) (tile : Nat) : Bool :=
  let x := s.box m.box
  let t := x.tile tile
  t.st ≠ tsResident || t.pin || (t.wing && !m.homing) || x.tagTarget tile
    || (x.scene.active && (x.scene.layerOf tile).isSome)
    || (if m.homing then decide (t.tier ≠ 3)
        else decide (t.tier = m.dtier) && (match seatOf t.tier t.frame with | some k => k == m.dseat | none => true))

/-- MIG_TILE_START (R181): the next tile of the seat's oldest move is skipped, dropped for want of a frame, or marked
MIGRATING with a destination frame. -/
def execMigTileStart (seat : Fin 16) (s : State) : Host.Outcome State Fault Refusal :=
  let k := seat.val
  let q := s.seat k
  match q.moving, q.moves with
  | none, m :: ms =>
    let b := m.box
    if (s.box b).st ≠ 3 || (s.box b).frozen || !s.dev.on then .next s
    else
      let tile := m.first
      let rest := if m.count ≤ 1 then ms else { m with first := m.first + 1, count := m.count - 1 } :: ms
      let s := (s.updSeat k fun x => { x with moves := rest }).queueHomes b
      let s := if m.unpin && !(s.box b).isUnderstudy tile then s.updTile b tile fun t => { t with pin := false } else s
      if s.skips m tile then
        .next ((s.updSeat k fun x => { x with migSkip := satAdd 32 x.migSkip 1 }).movesDone b)
      else
        let t := (s.box b).tile tile
        let dest : Option (State × Nat × Nat) := if m.homing then (match t.home with | some h => some (s, h.1, h.2) | none => none)
          else (match s.takeFrame b m.dtier m.dseat with | some (s, f) => some (s, m.dtier, f) | none => none)
        match dest with
        | none => .next ((s.dropMove k 2).movesDone b)
        | some (s, dt, f) =>
          .next ((s.updTile b tile fun t => { t with st := tsMigrating }).updSeat k fun x =>
            { x with moving := some ⟨{ m with first := tile, count := 1 }, tile, dt, f⟩ })
  | _, _ => .next s

/-- MIG_TILE_COMPLETE (R181, R182): the copy of the tile ends; the entry changes to the destination and the source frame
is released, or the move is dropped: for an integrity failure, or because flash, its destination, has become read-only, a
capacity event (R170, R182). A tile that came home by its wing meanwhile is skipped, the home that another move leaves is
released (R177), and a tile that became LOST is not moved (R172). -/
def execMigTileComplete (seat : Fin 16) (line : LineOutcome) (s : State) : Host.Outcome State Fault Refusal :=
  let k := seat.val
  match (s.seat k).moving with
  | none => .next s
  | some m =>
    let b := m.move.box
    let t := (s.box b).tile m.tile
    if !s.dev.on then .next s
    else
      let s := s.updSeat k fun x => { x with moving := none }
      if t.st ≠ tsMigrating then .next (((s.dropDest m).dropMove k 3).movesDone b)
      else if m.move.homing && t.tier ≠ 3 then
        .next (((s.updTile b m.tile fun t => { t with st := tsResident }).updSeat k fun x => { x with migSkip := satAdd 32 x.migSkip 1 }).movesDone b)
      else if m.dtier = 2 && s.dev.flashRo then
        .next ((((s.dropDest m).updTile b m.tile fun t => { t with st := tsResident }).dropMove k 4).movesDone b)
      else
      let r := s.checkedRead b m.tile (s.placeAt b t.tier t.frame) line 3 2
      match r.2 with
      | none =>
        let s := (r.1.dropDest m).updTile b m.tile fun t => { t with st := tsLost }
        .next ((s.dropMove k 3).movesDone b)
      | some d =>
        let s := r.1.putFrame b m.tile m.dtier m.dframe d
        let s := s.updTile b m.tile fun t => { t with st := tsResident, tier := m.dtier, frame := m.dframe,
                                                      pin := t.pin || m.move.pinAfter, home := none }
        let s := s.release t.tier t.frame
        let s := if m.move.homing then s else match t.home with | some h => s.release h.1 h.2 | none => s
        .next ((s.updSeat k fun x => { x with migDone := satAdd 32 x.migDone 1 }).movesDone b)

/-- EPOCH_WALK (R176): the walker normalises every entry of the box that carries the resolved epoch. -/
def execEpochWalk (box : Fin 16) (s : State) : Host.Outcome State Fault Refusal :=
  let b := box.val
  .next (((s.box b).tiles.map Prod.fst).foldl (fun s t => s.normalise b t) s)

/-- Whether the walker still has entries of RESOLVED to normalise (MEM_BOX_EPOCH.WALKING). -/
def Box.walking (x : Box) : Bool := x.tiles.any (fun (p : Nat × Tile) => x.wingDone p.2)

end Sys2Proof.Machine
end

