-- ==== Sys2Proof/Machine/Images.lean ====
section
/-! DEFINITION. Weight images, scene records and their protection (09:R211, R212, R214; 11:R279, R280). -/
namespace Sys2Proof.Machine

/-- Bytes of a 128-bit tag, and of a 256-bit key, lowest first. -/
def tagBytes (t : BitVec 128) : List Byte := leBytes 16 t.toNat
def keyBytes (k : BitVec 256) : List Byte := leBytes 32 k.toNat
def keyOf (bs : List Byte) : BitVec 256 := BitVec.ofNat 256 (leNat bs)

/-- The nonce of a header or record: IMAGE_ID bits [55:0], then a 40-bit index (R212). -/
def imageNonce (id idx : Nat) : List Byte := leBytes 7 id ++ leBytes 5 idx
def headerIndex : Nat := 2 ^ 40 - 1

/-- A tile's bytes as a record holds them: payload, then side record (R211). -/
def TileData.plain (d : TileData) : List Byte := d.data.bytes 0 16384 ++ d.side.bytes 0 64
def TileData.ofBytes (bs : List Byte) : TileData := ⟨Tab.block 0 0 (bs.take 16384), Tab.block 0 0 ((bs.drop 16384).take 64)⟩

/-- The header of a weight image before its tag (R211). -/
def imageHead (id tiles : Nat) : List Byte := leBytes 2 0x4957 ++ leBytes 2 1 ++ leBytes 4 0 ++ leBytes 8 id ++ leBytes 8 tiles ++ leBytes 24 0
/-- The header with HDR_TAG (R212). -/
def imageHeader (key : BitVec 256) (id tiles : Nat) : List Byte :=
  let h := imageHead id tiles
  h ++ tagBytes (Config.gcmTag key (imageNonce id headerIndex) (h.take 0x30))
/-- Fields of an image header. -/
def hdrId (h : List Byte) : Nat := fieldAt h 8 8
def hdrTiles (h : List Byte) : Nat := fieldAt h 0x10 8
/-- Whether an image header is well formed and its tag verifies (R211, R212). -/
def headerOk (key : BitVec 256) (h : List Byte) : Bool :=
  h.length == 64 && fieldAt h 0 2 == 0x4957 && fieldAt h 2 2 == 1 && zeroAt h 4 4 && decide (hdrId h < 2 ^ 56)
  && decide (1 ≤ hdrTiles h) && decide (hdrTiles h < 2 ^ 40) && zeroAt h 0x18 24
  && h.drop 0x30 == tagBytes (Config.gcmTag key (imageNonce (hdrId h) headerIndex) (h.take 0x30))
/-- The tile that record `i` of an image holds, when its tag verifies (R212). -/
def openRecord (key : BitVec 256) (h : List Byte) (aadLen i : Nat) (bs : List Byte) : Option TileData :=
  match Config.gcmOpen key (imageNonce (hdrId h) i) (h.take aadLen) bs with
  | some p => if bs.length = 16464 then some (TileData.ofBytes p) else none
  | none => none
def sealRecord (key : BitVec 256) (h : List Byte) (aadLen i : Nat) (d : TileData) : List Byte :=
  Config.gcmSeal key (imageNonce (hdrId h) i) (h.take aadLen) d.plain

/-- IMAGE_ID or RECORD_ID, and HDR_TAG, appended to the box's load record, which holds the last 64 (R214). -/
def State.noteLoad (s : State) (b id : Nat) (tag : List Byte) : State :=
  s.updBox b fun x => { x with loads := (x.loads ++ [(id, tag)]).drop ((x.loads.length + 1) - 64) }

/-- The run list of a scene record (11:R279). -/
def runList (rs : List (Nat × Nat)) : List Byte := rs.flatMap (fun r => leBytes 4 r.1 ++ leBytes 4 r.2 ++ leBytes 8 0)
/-- The bytes of a scene record: header with run list, and tile records, all sealed under its key (11:R279). -/
def SceneRec.bytes (r : SceneRec) : List Byte × List (List Byte) :=
  let h0 := leBytes 2 0x5343 ++ leBytes 2 1 ++ leBytes 4 r.epoch ++ leBytes 8 r.recordId ++ leBytes 8 r.step
    ++ leBytes 8 r.tiles.length ++ leBytes 4 r.runs.length ++ leBytes 1 r.device ++ leBytes 1 r.groupSize ++ leBytes 26 0
  let recs := ((List.range r.tiles.length).zip r.tiles).map (fun (p : Nat × TileData) =>
    Config.gcmSeal r.key (imageNonce r.recordId p.1) h0 p.2.plain)
  let rl := runList r.runs
  let h1 := h0 ++ Config.shake 64 (h0 ++ rl ++ (recs.map (fun x => x.drop 16448)).flatten)
  let h := h1 ++ tagBytes (Config.gcmTag r.key (imageNonce r.recordId headerIndex) h1) ++ leBytes 0x30 0 ++ rl
  (h ++ leBytes ((64 - h.length % 64) % 64) 0, recs)
/-- Whether the header of a scene record verifies and names a step, a device and a run list (11:R280). -/
def sceneHeaderOk (key : BitVec 256) (h : List Byte) (step dev : Nat) (runs : List (Nat × Nat)) : Bool :=
  fieldAt h 0 2 == 0x5343 && fieldAt h 2 2 == 1 && fieldAt h 0x10 8 == step && fieldAt h 0x24 1 == dev
  && fieldAt h 0x20 4 == runs.length && sliceBytes h 0xC0 (16 * runs.length) == runList runs
  && sliceBytes h 0x80 16 == tagBytes (Config.gcmTag key (imageNonce (hdrId h) headerIndex) (h.take 0x80))

/-- The key of a slot that the box owns and that holds a kind (12:R300). -/
def State.ownedSlot (s : State) (b k kind : Nat) : Bool :=
  let x := s.slot k
  x.st != 0 && x.kind == kind && x.owner == b && decide (k < 1024)

end Sys2Proof.Machine
end

