-- ==== Sys2Proof/Machine/Transfer.lean ====
section
/-! DEFINITION. RoCEv2 transfers and their runs, weight loads, scene changes and the records they bring (08:R205;
09:R211 to R227; 13:R339, R340, R344). -/
namespace Sys2Proof.Machine

def Box.xfer (x : Box) (xid : Nat) : Option Xfer := Tab.get none x.xfers xid

/-- The launch whose stream issued an XFER on a core: the one that runs there, or whose HALT has still to complete. -/
def Box.launchAt (x : Box) (core : Nat) : Option Launch :=
  match x.runsOn core with
  | some l => some l
  | none => x.launches.find? (fun l => l.st == .running && l.haltedCores.contains (x.localCore core))

/-- A stream's XFER ends: its context goes on, which is a fault of kind 0x2 past the last instruction, or faults with kind
0x6 (08:R205, R208). -/
def State.endXferCtx (s : State) (b core ctx : Nat) (ok : Bool) : State :=
  let c := s.core core
  let x := c.ctx ctx
  match (s.box b).launchAt core with
  | none => s
  | some l =>
    if x.st ≠ .waitExt then s
    else if ok then
      let s := s.setCore core (c.setCtx ctx { x with st := .run })
      let s := if c.nStream ≤ x.pc then s.streamFault b l.num core ctx 2 x.pc else s
      (s.imageAgain b l.num core).finishLaunch b l.num
    else
      (s.setCore core (c.setCtx ctx { x with st := .run })).streamFault b l.num core ctx 6 (x.pc - 1)

/-- A weight load ends (09:R213, R215, R216; 11:R275): its model key is destroyed, and a load that has written a protected
tile makes the partner mirror stale. -/
def State.endLoad (s : State) (b opid status : Nat) : State :=
  match (s.box b).loading.find? (fun (l : Load) => l.opid == opid) with
  | none => s
  | some l =>
    let s := if l.kind = 2 then s.setSlot l.keyslot {} else s
    let s := (s.updBox b fun x => { x with loading := x.loading.filter (fun (m : Load) => m.opid != opid) }).endOp b opid status
    if l.prot then s.startBase b else s
def State.updLoad (s : State) (b opid : Nat) (f : Load → Load) : State :=
  s.updBox b fun x => { x with loading := x.loading.map (fun (l : Load) => if l.opid = opid then f l else l) }

/-- A restore fails (11:R282): the state is LOST_STATE, and the tiles written so far hold undefined contents. -/
def State.failRestore (s : State) (b status : Nat) : State :=
  match (s.box b).restore with
  | none => s
  | some r =>
    let d := s.draw
    let s := (s.box b).protectedTiles.foldl (fun s (p : Nat × Nat) =>
      match s.readPlace b p.2 with
      | .at tier frame =>
        if tier = 3 then s
        else s.putFrame b p.2 tier frame ⟨Tab.block 0 0 ((List.range 16384).map (Config.undefByte d.1 p.2)),
          Tab.block 0 0 ((List.range 64).map (fun i => Config.undefByte d.1 p.2 (16384 + i)))⟩
      | _ => s) d.2
    (s.updBox b fun x => { x with cst := 4, restore := none, runs := x.runs.filter (fun (q : Run) => q.who != .restore) }).endOp b r.opid status

/-- What a run's end means to what it serves. -/
def State.tellRun (s : State) (b : Nat) (r : Run) (status skind scode : Nat) : State :=
  match r.who with
  | .op o => s.endOp b o status skind scode
  | .ctx core ctx => s.endXferCtx b core ctx (status == stOk)
  | .shardMap o => if status = stOk then s else s.endLoad b o status
  | .load o => s.endLoad b o status
  | .scene => if status = stOk then s else s.failScene b status
  | .store step =>
    if status = stOk then s.send (.storeTaken b step) else s.updBox b fun x => { x with storeDue := none }
  | .restore => if status = stOk then s else s.failRestore b status

/-- The records of an image that a WRITE run sends: none when a tile cannot be read (R340). -/
def State.writeRecords (s : State) (b : Nat) (key : BitVec 256) (id first tiles : Nat) : Option (List (List Byte)) :=
  let h := imageHeader key id tiles
  (List.range tiles).foldl (fun acc i =>
    match acc, s.readTile b (first + i) with
    | some rs, some d => some (rs ++ [sealRecord key h 0x30 i d])
    | _, _ => none) (some [])

/-- The shared-store take of a step that a box has to write (11:R277). -/
def State.localRec (s : State) (b step : Nat) : Option LocalRec :=
  s.dev.retained.find? (fun r => r.box == some b && r.rec0.step == step && r.complete)

/-- Whether the reads of a WRITE run are held at their controllers: tiles of an open tag (10:R244), or tiles that a launch's
run reads while a scene change holds them from it (09:R224). The run then waits (log 41). -/
def State.runHeld (s : State) (b : Nat) (r : Run) : Bool :=
  let x := s.box b
  match x.xfer r.xid, r.who with
  | some q, .op _ => q.dir == 2 && (List.range q.tiles).any (fun i => x.tagTarget (q.first + i))
  | some q, .ctx core _ => q.dir == 2 && (match x.launchAt core with
    | some l => (List.range q.tiles).any (fun i => x.readMeets l.num (q.first + i) false == .held)
    | none => false)
  | _, _ => false
/-- Whether a launch's WRITE run reads a tile that a failed scene change keeps from it (09:R227). -/
def State.runBad (s : State) (b : Nat) (r : Run) (q : Xfer) : Bool :=
  match r.who with
  | .ctx core _ => (match (s.box b).launchAt core with
    | some l => (List.range q.tiles).any (fun i => (s.box b).readMeets l.num (q.first + i) false == .bad)
    | none => false)
  | _ => false

/-- A run begins (R340): a READ asks for its header, a WRITE sends its records and then its header. The result is the
status, SKIND and SCODE with which it ends at once, if it does. -/
def State.beginRun (s : State) (b : Nat) (r : Run) : State × Option (Nat × Nat × Nat) :=
  match (s.box b).xfer r.xid with
  | none => (s, some (stHwFault, 0, 0))
  | some q =>
    let mark (f : Run → Run) (s : State) : State := s.updBox b fun x =>
      { x with runs := x.runs.map (fun (p : Run) => if p = r then f p else p) }
    let read (s : State) : State × Option (Nat × Nat × Nat) :=
      ((mark (fun p => { p with started := true }) s).send (.rdmaRead b r.xid headerIndex), none)
    match r.who with
    | .store step =>
      match s.localRec b step with
      | none => (s, some (stHwFault, 0, 0))
      | some lr =>
        let z := lr.rec0.bytes
        let base := q.raddr + (if (s.box b).storeHalf then (z.1.length + (z.2.map List.length).foldl (· + ·) 0 + 4095) / 4096 * 4096 else 0)
        let s := (mark (fun p => { p with started := true }) s).send (.rdmaWrite b r.xid base headerIndex z.1)
        (((List.range z.2.length).zip z.2).foldl (fun s (p : Nat × List Byte) => s.send (.rdmaWrite b r.xid base p.1 p.2)) s, none)
    | .op _ | .ctx _ _ =>
      if !s.ownedSlot b q.slot 2 then (s, some (stNotAuth, 0, 0))
      else if q.dir = 1 then read s
      else
        let k := s.slot q.slot
        if 2 ^ 20 ≤ k.writes then (s, some (stReject, 6, k.st))
        else
          let d := s.draw
          let id := (Config.random56 d.1).toNat
          let m := d.2.meetTiles b ((List.range q.tiles).map (· + q.first)) 1 5
          if m.2 = false && (m.1.box b).frozen then (m.1, some (stAlarm, 0, 0))
          else match (if s.runBad b r q then none else m.1.writeRecords b k.key id q.first q.tiles) with
          | none => (m.1, some (stBadParam, 0, 0))
          | some rs =>
            let s := (mark (fun p => { p with started := true, imageId := id }) m.1).setSlot q.slot { k with writes := k.writes + 1 }
            let s := ((List.range rs.length).zip rs).foldl (fun s (p : Nat × List Byte) => s.send (.rdmaWrite b r.xid q.raddr p.1 p.2)) s
            let s := s.send (.rdmaWrite b r.xid q.raddr headerIndex (imageHeader k.key id q.tiles))
            (match r.who with | .op o => s.opResult b o id | _ => s, none)
    | _ => read s

/-- Waiting runs begin, one for each transfer without a run in progress (R340), unless their reads are held. -/
def State.startRuns (s : State) (b : Nat) : Nat → State
  | 0 => s
  | fuel + 1 =>
    let rs := (s.box b).runs
    match rs.find? (fun (r : Run) => !r.started && !rs.any (fun (q : Run) => q.started && q.xid == r.xid) && !s.runHeld b r) with
    | none => s
    | some r =>
      let o := s.beginRun b r
      match o.2 with
      | none => o.1.startRuns b fuel
      | some (st, sk, sc) =>
        let s := o.1.updBox b fun x => { x with runs := x.runs.filter (fun (q : Run) => q ≠ r) }
        (s.tellRun b r st sk sc).startRuns b fuel

/-- A run is asked for: it begins, or waits for the transfer's present run (R340). -/
def State.askRun (s : State) (b xid : Nat) (who : RunFor) : State :=
  let s := s.updBox b fun x => { x with runs := x.runs ++ [⟨xid, who, false, [], 0, 0, 0⟩] }
  s.startRuns b (s.box b).runs.length

/-- The run of a transfer in progress. -/
def Box.runOf (x : Box) (xid : Nat) : Option Run := x.runs.find? (fun (r : Run) => r.started && r.xid == xid)
def State.updRun (s : State) (b xid : Nat) (f : Run → Run) : State :=
  s.updBox b fun x => { x with runs := x.runs.map (fun (r : Run) => if r.started && r.xid == xid then f r else r) }

/-- A run ends with a status, and the next one of its transfer begins. -/
def State.endRun (s : State) (b : Nat) (r : Run) (status : Nat) (skind : Nat := 0) (scode : Nat := 0) : State :=
  let s := s.updBox b fun x => { x with runs := x.runs.filter (fun (q : Run) => !(q.started && q.xid == r.xid)) }
  let s := s.tellRun b r status skind scode
  s.startRuns b (s.box b).runs.length

/-- XFER (08:R205): the transfer's run is asked for, and the context waits in WAIT_EXT; an unregistered transfer is one
that ends in error. -/
def execXfer (x : Ctx) (xid : BitVec 16) (s : State) : Host.Outcome State Fault Refusal :=
  .next (s.stream x false fun b l k c =>
    if ((s.box b).xfer xid.toNat).isNone then s.faults b l x k c 6
    else
      (s.setCore x.core.val (k.setCtx x.ctx.val { c with st := .waitExt, pc := c.pc + 1 })).askRun b xid.toNat
        (.ctx x.core.val x.ctx.val))

/-- A tile of a load or scene change is written (09:R218): none when it cannot be. -/
def State.loadTile (s : State) (b tile : Nat) (d : TileData) (scene : Bool) : Option State :=
  let x := s.box b
  if x.tagTarget tile || (!scene && x.scene.active && (x.scene.layerOf tile).isSome) then none else s.writeTile b tile d

/-- The shard map's entries (09:R217). -/
def shardEntry (m : List Byte) (i : Nat) : Shard :=
  let o := 24 * i
  ⟨fieldAt m o 8, fieldAt m (o + 8) 8, fieldAt m (o + 0x10) 4, fieldAt m (o + 0x14) 1⟩
def shardZero (m : List Byte) (i : Nat) : Bool := zeroAt m (24 * i + 0x15) 3

/-- Whether a tile's region is mapped under a slot that the box owns, and the tile can be loaded (R218). -/
def State.loadable (s : State) (b tile : Nat) : Bool :=
  let x := s.box b
  let t := x.tile tile
  (t.st == tsZero || t.st == tsResident || t.st == tsMigrating)
  && (match x.region (regionOf tile) with | some r => s.ownedSlot b r.tumbler 1 | none => false)

/-- The checks of R218 over a whole map, for an image of `tiles` records; the kept runs, or none. -/
def State.checkMap (s : State) (b : Nat) (m : List Byte) (entries tiles : Nat) : Option (List (Nat × Nat × Nat)) :=
  let es := (List.range entries).map (shardEntry m)
  let ok := (List.range entries).all (fun i => shardZero m i)
    && es.all (fun e => decide (e.dest < 2 ^ 36) && decide (e.first < 2 ^ 40) && decide (1 ≤ e.count) && decide (e.count ≤ 2 ^ 24)
        && decide (e.first + e.count ≤ tiles))
  let kept := es.filter (fun e => e.dev == 0xFF || e.dev == s.boxIndex b)
  let apart := (List.range kept.length).all (fun i => (List.range i).all (fun j =>
    match kept[i]?, kept[j]? with
    | some e, some f => decide (e.dest + e.count ≤ f.dest) || decide (f.dest + f.count ≤ e.dest)
    | _, _ => true))
  if ok && apart && kept.all (fun e => (List.range e.count).all (fun k => s.loadable b (e.dest + k))) then
    some (kept.map (fun e => (e.dest, e.first, e.count)))
  else none

/-- The next record that a load needs, and its runs after it. -/
def nextOfTodo : List (Nat × Nat × Nat) → Option ((Nat × Nat) × List (Nat × Nat × Nat))
  | [] => none
  | (t, r, n) :: rest => some ((t, r), if n ≤ 1 then rest else (t + 1, r + 1, n - 1) :: rest)

/-- Whether a load has its whole shard map (R217). -/
def Load.mapped (l : Load) : Bool := l.mapBytes.length == 24 * l.entries
/-- Once a load has its map and the image's header, the map is checked; a load with nothing to write ends (R218). -/
def State.loadReady (s : State) (b opid : Nat) : State :=
  match (s.box b).loading.find? (fun (l : Load) => l.opid == opid) with
  | none => s
  | some l =>
    if !l.mapped || l.hdr.isEmpty then s
    else match s.checkMap b l.mapBytes l.entries (hdrTiles l.hdr) with
      | none => s.updLoad b opid fun l => { l with todo := [], written := 2 ^ 64 }
      | some ts => s.updLoad b opid fun l => { l with todo := ts }

/-- A record of a load is written: the load after it, or the status that ends it (R212, R216, R218). -/
def State.loadRecord (s : State) (b : Nat) (l : Load) (key : BitVec 256) (bs : List Byte) : State × Option Nat :=
  match nextOfTodo l.todo with
  | none => (s, some stOk)
  | some ((tile, i), rest) =>
    match openRecord key l.hdr 0x30 i bs with
    | none => (s, some stIntegrity)
    | some d =>
      match s.loadTile b tile d false with
      | none => (s, some stHwFault)
      | some s =>
        let p := (s.box b).isProtected tile
        let s := (s.updLoad b l.opid fun l => { l with todo := rest, written := l.written + 1, prot := l.prot || p }).opProgress b l.opid (l.written + 1)
        (s, if rest.isEmpty then some stOk else none)

/-- The layer that a scene change copies (09:R224). -/
def Scene.layer (c : Scene) : Option Layer := c.layers[c.done]?
def State.updScene (s : State) (b : Nat) (f : Scene → Scene) : State := s.updBox b fun x => { x with scene := f x.scene }

/-- The next record of an image's scene change is asked for. -/
def State.askSceneRecord (s : State) (b : Nat) : State :=
  let c := (s.box b).scene
  match c.layer with
  | some y => if c.st = 2 && c.srcKind = 1 && !c.hdr.isEmpty && c.written < y.count then s.send (.rdmaRead b c.source (y.src + c.written)) else s
  | none => s

/-- A record of a scene change is written (09:R212, R225, R226); a failed one ends the change with an alarm. -/
def State.sceneRecord (s : State) (b : Nat) (key : BitVec 256) (bs : List Byte) : State :=
  let c := (s.box b).scene
  match c.layer with
  | none => s
  | some y =>
    if c.st ≠ 2 || y.count ≤ c.written then s
    else
      let tile := y.dest + c.written
      match openRecord key c.hdr 0x30 (y.src + c.written) bs with
      | none =>
        let seat := match s.readPlace b tile with | .at tier f => (seatOf tier f).getD (s.box b).seat0 | _ => (s.box b).seat0
        (s.failScene b stIntegrity).alarm b 5 seat 0xFF (some tile) 0 4
      | some d =>
        match s.loadTile b tile d true with
        | none => s.failScene b stHwFault
        | some s => (s.updScene b fun c => { c with written := c.written + 1, prot := c.prot || (s.box b).isProtected tile }).askSceneRecord b

/-- A response of a transfer's run arrives (R344): its retries are counted afresh, and one that congestion has marked has a
notification sent. -/
def State.responded (s : State) (b xid : Nat) (marked : Bool) : State :=
  match (s.box b).runOf xid, (s.box b).xfer xid with
  | some _, some q =>
    let s := s.updRun b xid fun r => { r with retries := 0 }
    if marked then s.send (.cnp q.port b xid) else s
  | _, _ => s

/-- The key of a load's shard map: the weight key's slot, or with an installed model, whose KEYSLOT is 0, the transfer's own slot
(R216, R340, log 41). -/
def mapSlot (l : Load) (q : Xfer) : Nat := if l.kind = 1 then l.keyslot else q.slot

/-- XFER_RECORD_ARRIVE (09:R212, R216 to R218, R225; 13:R340): the header of an image, a shard map, or the next record of
the transfer's run arrives. -/
def execXferRecordArrive (box : Fin 16) (xid : BitVec 16) (a : NetRecord) (s : State) :
    Host.Outcome State Fault Refusal :=
  let b := box.val
  let id := xid.toNat
  let bytes := a.bytes
  let s := if s.dev.on then s.responded b id a.marked else s
  match (s.box b).runOf id, (s.box b).xfer id with
  | some r, some q =>
    if !s.dev.on then .next s
    else
    let plain (opid : Option Nat) : State :=
      if q.dir ≠ 1 then s
      else if !s.ownedSlot b q.slot 2 then s.endRun b r stNotAuth
      else
        let key := (s.slot q.slot).key
        if r.hdr.isEmpty then
          if !headerOk key bytes then s.endRun b r stIntegrity
          else if (q.image ≠ 0 && hdrId bytes ≠ q.image) || hdrTiles bytes ≠ q.tiles then s.endRun b r stBadParam
          else (s.updRun b id fun r => { r with hdr := bytes }).send (.rdmaRead b id 0)
        else match openRecord key r.hdr 0x30 r.next bytes with
          | none => s.endRun b r stIntegrity
          | some d =>
            match s.ordWrite b (q.first + r.next) d with
            | none => s.endRun b r stBadParam
            | some s =>
              let s := s.updRun b id fun r => { r with next := r.next + 1 }
              let s := match opid with | some o => s.opProgress b o (r.next + 1) | none => s
              if q.tiles ≤ r.next + 1 then s.endRun b r stOk else s.send (.rdmaRead b id (r.next + 1))
    match r.who with
    | .op o => .next (plain (some o))
    | .ctx _ _ => .next (plain none)
    | .shardMap o =>
      match (s.box b).loading.find? (fun (l : Load) => l.opid == o) with
      | none => .next (s.endRun b r stOk)
      | some l =>
        let key := (s.slot (mapSlot l q)).key
        if !s.ownedSlot b (mapSlot l q) 2 then .next (s.endRun b r stNotAuth)
        else if r.hdr.isEmpty then
          .next (if !headerOk key bytes then s.endRun b r stIntegrity
            else if hdrTiles bytes ≠ (24 * l.entries + 16383) / 16384 then s.endRun b r stBadParam
            else (s.updRun b id fun r => { r with hdr := bytes }).send (.rdmaRead b id 0))
        else match openRecord key r.hdr 0x30 r.next bytes with
        | none => .next (s.endRun b r stIntegrity)
        | some d =>
          let s := (s.updRun b id fun r => { r with next := r.next + 1 }).updLoad b o fun l =>
            { l with mapBytes := (l.mapBytes ++ d.data.bytes 0 16384).take (24 * l.entries) }
          if r.next + 1 < hdrTiles r.hdr then .next (s.send (.rdmaRead b id (r.next + 1)))
          else
          let s := s.endRun b r stOk
          if l.kind = 1 then .next (s.askRun b l.source (.load o))
          else
            let s := (s.loadReady b o).noteLoad b (hdrId l.hdr) (l.hdr.drop 0x30)
            match (s.box b).loading.find? (fun (l : Load) => l.opid == o) with
            | some l => .next (if l.written = 2 ^ 64 then s.endLoad b o stBadParam
                else if l.todo.isEmpty then s.endLoad b o stOk else s)
            | none => .next s
    | .load o =>
      match (s.box b).loading.find? (fun (l : Load) => l.opid == o) with
      | none => .next (s.endRun b r stOk)
      | some l =>
        if !s.ownedSlot b l.keyslot 2 then .next (s.endRun b r stNotAuth)
        else
          let key := (s.slot l.keyslot).key
          if l.hdr.isEmpty then
            if !headerOk key bytes then .next (s.endRun b r stIntegrity)
            else
              let s := ((s.updLoad b o fun l => { l with hdr := bytes }).loadReady b o).noteLoad b (hdrId bytes) (bytes.drop 0x30)
              match (s.box b).loading.find? (fun (l : Load) => l.opid == o) with
              | some l => .next (if l.written = 2 ^ 64 then s.endRun b r stBadParam
                  else match nextOfTodo l.todo with
                    | none => s.endRun b r stOk
                    | some (p, _) => s.send (.rdmaRead b id p.2))
              | none => .next s
          else
            let o := s.loadRecord b l key bytes
            match o.2 with
            | some st => .next (o.1.endRun b r st)
            | none => .next (match ((o.1.box b).loading.find? (fun (m : Load) => m.opid == l.opid)).bind (fun m => nextOfTodo m.todo) with
                | some (p, _) => o.1.send (.rdmaRead b id p.2)
                | none => o.1)
    | .scene =>
      let c := (s.box b).scene
      if !s.ownedSlot b c.keyslot 2 then .next (s.endRun b r stNotAuth)
      else
        let key := (s.slot c.keyslot).key
        if c.hdr.isEmpty then
          if !headerOk key bytes then .next ((s.failScene b stIntegrity).endRun b r stOk)
          else if !c.layers.all (fun y => decide (y.src + y.count ≤ hdrTiles bytes)) then .next (s.endRun b r stBadParam)
          else .next (((s.updScene b fun c => { c with hdr := bytes }).noteLoad b (hdrId bytes) (bytes.drop 0x30)).askSceneRecord b)
        else .next (s.sceneRecord b key bytes)
    | _ => .next s
  | _, _ => .next s

/-- XFER_WRITE_COMPLETE (R340; 11:R277): the remote acknowledges the last write of a run, whose reads have been served by
then (log 41). -/
def execXferWriteComplete (box : Fin 16) (xid : BitVec 16) (s : State) : Host.Outcome State Fault Refusal :=
  let b := box.val
  let s := s.startRuns b (s.box b).runs.length
  match (s.box b).runOf xid.toNat, (s.box b).xfer xid.toNat with
  | some r, some q =>
    match r.who with
    | .store _ => .next (s.endRun b r stOk)
    | .op o => .next (if q.dir = 2 then (s.opProgress b o q.tiles).endRun b r stOk else s)
    | .ctx _ _ => .next (if q.dir = 2 then s.endRun b r stOk else s)
    | _ => .next s
  | _, _ => .next s

/-- ROCE_RETRY_TIMEOUT (R344): a request goes out again, which is counted (log 16), and after 7 retries the run ends with
HW_FAULT. -/
def execRoceRetryTimeout (box : Fin 16) (xid : BitVec 16) (s : State) : Host.Outcome State Fault Refusal :=
  let b := box.val
  match (s.box b).runOf xid.toNat with
  | none => .next s
  | some r => .next (if 7 ≤ r.retries then s.endRun b r stHwFault else s.updRun b xid.toNat fun r => { r with retries := r.retries + 1 })

/-- ROCE_CNP_RECEIVE (R344): the engine obeys a congestion notification; what it does to its rate is timing (log 16). -/
def execRoceCnpReceive (port : Fin 2) (_box : Fin 16) (_xid : BitVec 16) (s : State) : Host.Outcome State Fault Refusal :=
  .next (s.updEth port.val fun e => { e with congested := e.congested + 1 })

/-- ROCE_REQUEST_DROP (R344): an incoming request is dropped and counted in ETH_DROP. -/
def execRoceRequestDrop (_port : Fin 2) (s : State) : Host.Outcome State Fault Refusal :=
  .next (s.updDev fun d => { d with ethDrop := satAdd 32 d.ethDrop 1 })

/-- Whether a launch of the old set has passed a layer (09:R223). -/
def Box.passedLayer (x : Box) (num : Nat) (y : Layer) : Bool :=
  match x.launch num with
  | none => true
  | some l =>
    l.st == .ended || l.st == .sealed || l.stop.isSome || decide (l.haltedCores.length = l.ncore)
    || (match l.marker with | some m => decide (y.pass ≤ m) | none => false)
    || x.markers.any (fun p => p.1 == num && decide (y.pass ≤ p.2))

/-- RESULT of a change: an old launch that has not passed the next layer (09:R221, 13:R335). -/
def State.sceneResult (s : State) (b : Nat) : State :=
  let x := s.box b
  match x.scene.layer with
  | none => s.opResult b x.scene.opid 0
  | some y => s.opResult b x.scene.opid ((x.scene.old.find? (fun n => !x.passedLayer n y)).getD 0)

/-- The progress of a session's scene change, brought up to date where its operation is read (09:R221). -/
def State.sceneNow (s : State) (k opid : Nat) : State :=
  if k < 16 && (s.box k).scene.active && (s.box k).scene.opid = opid then s.sceneResult k else s

/-- SCENE_LAYER_COPY (09:R224): the next layer's copy begins once every launch of the old set has passed it. -/
def execSceneLayerCopy (box : Fin 16) (s : State) : Host.Outcome State Fault Refusal :=
  let b := box.val
  let x := s.box b
  match x.scene.layer with
  | none => .next s
  | some y =>
    if x.scene.st = 1 && x.scene.old.all (fun n => x.passedLayer n y) && s.dev.on && !x.frozen then
      let s := s.updScene b fun c => { c with st := 2, written := 0 }
      .next (if x.scene.srcKind = 1 && !x.runs.any (fun (r : Run) => r.who == .scene) then s.askRun b x.scene.source .scene else s.askSceneRecord b)
    else .next s

/-- A layer is replaced: the next one waits, or the change ends OK (09:R224, R225). -/
def State.layerReplaced (s : State) (b : Nat) : State :=
  let c := (s.box b).scene
  let s := (s.updScene b fun c => { c with st := 1, done := c.done + 1,
                                           snap := c.snap.filter (fun (p : Nat × Nat × Nat) => decide (c.done < p.1)) }).opProgress b c.opid (c.done + 1)
  if c.layers.length ≤ c.done + 1 then
    let s := if c.srcKind = 2 then s.setSlot c.keyslot {} else s
    let s := (s.updScene b fun c => { c with st := 0, snap := [], old := [] }).endOp b c.opid stOk
    let s := match (s.box b).runs.find? (fun (r : Run) => r.who == .scene) with
      | some r => s.endRun b r stOk
      | none => s
    if c.prot then s.startBase b else s
  else s.sceneResult b

/-- SCENE_LAYER_DONE (09:R224 to R226): the layer's copy ends. A copy from the range reads its snapshot frames, of which that
of tile `tile` of the layer meets the line outcome; a source without data ends the change, and where no alarm answers for it,
the destination tile is LOST (R226). A copy from an image has written every record. Sources in an open tag's tiles hold the
copy (10:R244). -/
def execSceneLayerDone (box : Fin 16) (a : LayerRead) (s : State) : Host.Outcome State Fault Refusal :=
  let b := box.val
  let c := (s.box b).scene
  match c.layer with
  | none => .next s
  | some y =>
    if c.st ≠ 2 || !s.dev.on then .next s
    else if c.srcKind ≠ 0 then .next (if y.count ≤ c.written then (s.layerReplaced b).startRuns b (s.box b).runs.length else s)
    else if (List.range y.count).any (fun i => (s.box b).tagTarget (y.src + i)) then .next s
    else
      let fs := c.snap.filter (fun (p : Nat × Nat × Nat) => p.1 == c.done)
      let r := ((List.range y.count).zip fs).foldl (fun (acc : State × Bool) (p : Nat × Nat × Nat × Nat) =>
        if !acc.2 then acc
        else
          let pl : Place := if p.2.2.1 = 4 then .zero else .at p.2.2.1 p.2.2.2
          let d := acc.1.heldRead b (y.src + p.1) pl (if p.1 = a.tile then a.line else .good) 1 4
          match d.2 with
          | none => ((if (d.1.box b).frozen then d.1 else d.1.updTile b (y.dest + p.1) fun t => { t with st := tsLost }).failScene b stIntegrity, false)
          | some t =>
            match d.1.loadTile b (y.dest + p.1) t true with
            | none => (d.1.failScene b stHwFault, false)
            | some s => (s.updScene b fun c => { c with prot := c.prot || (s.box b).isProtected (y.dest + p.1) }, true)) (s, true)
      .next ((if r.2 then r.1.layerReplaced b else r.1).startRuns b (s.box b).runs.length)

/-- MODEL_RECORD_FETCH (09:R215, R216, R225): the next record of an installed model is read from the store, verified and
written, for the box's load or scene change; the model key is destroyed when the load ends. -/
def execModelRecordFetch (box : Fin 16) (s : State) : Host.Outcome State Fault Refusal :=
  let b := box.val
  let rec0 (m i : Nat) : List Byte := match Tab.get none s.dev.store m with | some q => sliceBytes q.bytes (0x40 + 16464 * i) 16464 | none => []
  let c := (s.box b).scene
  match (s.box b).loading.find? (fun (l : Load) => l.kind == 2 && l.mapped) with
  | some l =>
    match nextOfTodo l.todo with
    | none => .next (s.endLoad b l.opid stOk)
    | some (p, _) =>
      let o := s.loadRecord b l (s.slot l.keyslot).key (rec0 l.source p.2)
      .next (match o.2 with | some st => o.1.endLoad b l.opid st | none => o.1)
  | none =>
    match c.layer with
    | some y => .next (if c.st = 2 && c.srcKind = 2 then s.sceneRecord b (s.slot c.keyslot).key (rec0 c.source (y.src + c.written)) else s)
    | none => .next s

end Sys2Proof.Machine
end

