-- ==== Sys2Proof/Machine/Curtain.lean ====
section
/-! DEFINITION. The start of a launch (06:R155; 10:R233, R249), and the curtain (11:R262 to R275, R285, R286). -/
namespace Sys2Proof.Machine

/-- The tag of a plan entry as a launch opens it (10:R233, R249). A ledger entry that cannot be read counts as zeros
(log 35). -/
def State.openTag (s : State) (b num : Nat) (e : PlanEntry) : Tag :=
  let entry := (s.rangeRead b e.ledger 96).getD []
  { st := 1, entry := some e, grid := if e.ledger = 0 then signedOf 16 e.grid else bi32Grid entry e.guardBits,
    s := (s.box b).step, launch := num }

/-- Whether a queued launch may start on its cores (06:R152, R155; 11:R265; 13:R337): its epoch is open and its curtain
not sealed, no launch that goes before it shares a core, and each core is free or holds a lower launch that is preempted
and has completed what it issued. -/
def State.mayStart (s : State) (b : Nat) (l : Launch) : Bool :=
  let x := s.box b
  let before := (x.launches.takeWhile (fun (m : Launch) => m.num != l.num))
  s.dev.on && x.st == 3 && !x.frozen && l.st == LaunchSt.queued && l.epoch == x.openE && x.outcome.isNone
  && (x.cst == 0 || x.cst == 5)
  && !x.launches.any (fun (m : Launch) => m.st == LaunchSt.queued && m.epoch == x.openE && m.overlaps l && decide (l.prio < m.prio))
  && !before.any (fun (m : Launch) => m.st == LaunchSt.queued && m.epoch == x.openE && m.overlaps l && decide (l.prio ≤ m.prio))
  && (x.launchCores l).length == l.ncore
  && (x.launchCores l).all (fun k =>
    (s.core k).drained
    && x.launches.all (fun (m : Launch) => !(m.st == LaunchSt.running && Tab.has m.saved k) || decide (m.prio < l.prio))
    && (match x.runsOn k with
      | none => true
      | some m => (s.core k).st == .preempted && decide (m.prio < l.prio)))

/-- LAUNCH_START (06:R153 to R155; 07:R183; 08:R189; 10:R233): the launch's cores start at bundle 0 with their scripts and
contexts, its tags open, and the prefetch entries due are queued. Preempted cores are set aside. -/
def execLaunchStart (box : Fin 16) (num : W32) (s : State) : Host.Outcome State Fault Refusal :=
  let b := box.val
  let n := num.toNat
  match (s.box b).launch n with
  | none => .next s
  | some l =>
    match Tab.get none (s.box b).scripts l.slot with
    | none => .next s
    | some sc =>
      if !s.mayStart b l then .next s
      else
        let ledgers := (l.plan.filter (fun e => e.ddev == s.boxIndex b && e.ledger != 0)).map (fun e => (e.ledger, 96))
        let s := (s.meetTiles b (partTiles ledgers) 1 5).1
        if (s.box b).frozen then .next s else
        let cores := (s.box b).launchCores l
        let s := cores.foldl (fun s k =>
          match (s.box b).runsOn k with
          | some m => s.updLaunch b m.num fun m => { m with saved := Tab.set {} m.saved k (s.core k) }
          | none => s) s
        let s := s.updLaunch b n fun l => { l with st := .running, marker := none }
        let s := ((List.range cores.length).zip cores).foldl (fun s (p : Nat × Nat) =>
          match sc.cores[p.1]? with
          | some img => s.setCore p.2 ((s.core p.2).launched img)
          | none => s) s
        let x := s.box b
        let old := x.tags.filter (fun (p : Nat × Tag) => p.2.st == 1
          || x.launches.any (fun (m : Launch) => m.num == p.2.launch && m.st == LaunchSt.running && m.num != n))
        let s := s.updBox b fun x => { x with tags := old }
        let s := (l.plan.filter (fun e => e.ddev == s.boxIndex b)).foldl (fun s e =>
          let t := s.openTag b n e
          s.updBox b fun x => { x with tags := Tab.set {} x.tags e.tag t }) s
        .next (s.queueDue b n 0)

/-- The step record that a seal writes (R262). -/
def State.sealRec (s : State) (b : Nat) : StepRec :=
  let x := s.box b
  let r := x.stepRec
  let batch := match x.curtain with | some c => c.batch | none => r.batch
  let dstep := (r.dstep + 1) % 2 ^ 64
  let cs := x.coreList
  { r with
    epoch := x.openE, step := (x.step + 1) % 2 ^ 64, dstep := dstep, sample := (r.sample + batch) % 2 ^ 64, batch := batch,
    gens := ((List.range cs.length).zip cs).foldl (fun t (p : Nat × Nat) =>
      (List.range 16).foldl (fun t g =>
        Tab.set {} t (p.1 * 16 + g) { (s.core p.2).gen g with step := dstep % 2 ^ 32, draw := 0 }) t) [] }

/-- The step record wing is written (R260, R262): none when a frame is missing. -/
def State.writeRecWing (s : State) (b : Nat) : Option State :=
  let r := s.sealRec b
  let x := s.box b
  let s := s.updBox b fun x => { x with wingRec := some r }
  match x.curtain with
  | none => some s
  | some c =>
    ((List.range 5).zip (r.tiles x.step x.coreList.length (s.boxIndex b) (s.boxGroup b))).foldl
      (fun (acc : Option State) (p : Nat × TileData) => acc.bind fun s => s.wingWrite b (c.steprec + p.1) 3 p.2) (some s)

/-- A failure before READY (R267, R268): the lead decides discard, any other device tells it, once. -/
def State.sealFails (s : State) (b cause : Nat) : State :=
  if s.isLead b then s.decideDiscard b cause
  else if (s.box b).lead.decided then s
  else (s.updBox b fun x => { x with lead := { x.lead with decided := true } }).send (.launchFailed b (s.box b).openE cause)

/-- READY goes to the lead (R267). -/
def State.sendReady (s : State) (b : Nat) : State :=
  let x := s.box b
  (s.updBox b fun x => { x with cst := 2 }).send (.ready b x.step x.openE)

/-- Whether an import's replay check passes (R286): L and REF finite and |L − REF| ≤ 2^TOL × |REF|, exactly. -/
def importPass (i : Import) (l : Nat) : Bool :=
  match Fmt.fp32.decode l, Fmt.fp32.decode i.ref with
  | .fin sl nl el, .fin sr nr er =>
    let e := min (min el er) (min el (er + i.tol))
    let v (neg : Bool) (n : Nat) (x : Int) : Int := let m : Int := (n : Int) * 2 ^ (x - e).toNat; if neg then -m else m
    decide ((v sl nl el - v sr nr er).natAbs ≤ nr * 2 ^ (er + i.tol - e).toNat)
  | _, _ => false

/-- The places of the wings that a mirror step reads (R267). -/
def State.wingPlaces (s : State) (b : Nat) : List (Nat × Place) :=
  let x := s.box b
  (x.protectedTiles.filter (fun (p : Nat × Nat) => x.wingOpen (x.tile p.2))).map (fun p => (p.2, s.wingPlace b p.2))
/-- The wings of the open epoch in protected regions, with their mirror numbers (R267, R274). -/
def State.mirrorWings (s : State) (b : Nat) : List (Nat × TileData) :=
  let x := s.box b
  x.protectedTiles.filterMap (fun (p : Nat × Nat) =>
    let t := x.tile p.2
    if x.wingOpen t then (s.contents b p.2 (s.wingPlace b p.2)).map (fun d => (p.1, d)) else none)

/-- SEAL_PROCEED (R262, R267, R286): once the epoch's launches and tags are done and the walker has finished, the step
record wing is written, the epoch's wings are mirrored on a mirror step, or READY is sent. In IMPORTED the replay check
is made instead. -/
def execSealProceed (box : Fin 16) (s : State) : Host.Outcome State Fault Refusal :=
  let b := box.val
  let x := s.box b
  let mine := x.launches.filter (fun (l : Launch) => l.epoch == x.openE)
  let due := x.cst = 1 || (x.cst = 5 && x.impPassed.isNone && mine.any (fun (l : Launch) => l.st == LaunchSt.sealed))
  if !due || x.st ≠ 3 || x.frozen || !s.dev.on || x.outcome.isSome
      || mine.any (fun (l : Launch) => l.st == LaunchSt.running || l.st == LaunchSt.queued) || x.walking then .next s
  else if x.tags.any (fun (p : Nat × Tag) => mine.any (fun (l : Launch) => l.num == p.2.launch) && p.2.st == 1) then .next s
  else if x.tagFailed then .next (s.sealFails b 1)
  else if x.cst = 5 then
    match x.imp with
    | none => .next s
    | some i =>
      let s := (s.meetTiles b (partTiles [(i.loss, 4)]) 1 5).1
      if (s.box b).frozen then .next s else
      let pass := importPass i (match s.rangeRead b i.loss 4 with | some bs => leNat bs | none => 0x7FC00000)
      let s := s.updBox b fun x => { x with impPassed := some pass }
      .next (s.send (if pass then .ready b x.step x.openE else .importFailed b x.step x.openE))
  else
    match (if x.wingRec.isSome then some s else s.writeRecWing b) with
    | none => .next (s.sealFails b 1)
    | some s =>
      let p := match x.curtain with | some c => c.p | none => 0
      if p = 0 || (x.step + 1) % p ≠ 0 || x.partner = 3 || x.partner = 0 then .next (s.sendReady b)
      else if x.partner = 1 || 0 < x.mirrorLeft then .next s
      else
        let m := s.meetPlaces b (s.wingPlaces b) 1 5
        let s := m.1
        if (s.box b).frozen then .next s
        else if !m.2 then .next (s.sealFails b 1)
        else
        let ws := s.mirrorWings b
        let s := ((List.range ws.length).zip ws).foldl (fun s (w : Nat × Nat × TileData) =>
          s.send (.mirrorTile b x.openE w.2.1 (w.1 + 1 = ws.length) w.2.2)) s
        .next (if ws.isEmpty then s.sendReady b else s.updBox b fun x => { x with mirrorLeft := ws.length })

/-- MIRROR_ACK (R267): the partner has stored the last mirror wing. -/
def execMirrorAck (box : Fin 16) (s : State) : Host.Outcome State Fault Refusal :=
  let b := box.val
  let x := s.box b
  .next (if x.cst = 1 && 0 < x.mirrorLeft && x.outcome.isNone then (s.updBox b fun x => { x with mirrorLeft := 0 }).sendReady b else s)

/-- The seat of a mirror frame: the box's seats in order (R274). -/
def Box.mirrorSeat (x : Box) (j : Nat) : Nat := x.seatList.getD (j % max 1 x.seatList.length) 0

/-- The mirror regions of a configuration: none when the partner layer is off (R274; log 53). -/
def CurtainCfg.mirrorCount (c : CurtainCfg) : Nat := if c.p = 0 then 0 else (c.runs.map Prod.snd).foldl (· + ·) 0
def CurtainCfg.mirrors (c : CurtainCfg) (tile : Nat) : Bool :=
  decide (c.mbase ≤ regionOf tile) && decide (regionOf tile < c.mbase + c.mirrorCount)

/-- A wing of the device that mirrors here is stored as a wing of its mirror tile: none when there is no frame for it
(R274, R275), or its frame lies in flash that has become read-only (07:R170). A mirror tile takes its frame of MTIER when
its data first arrives (log 38). -/
def State.mirrorWing (s : State) (b t tile : Nat) (c : CurtainCfg) (d : TileData) : Option State :=
  let x := s.box b
  let s := if (x.tile t).st = 0 then s.updTile b t fun y => { y with st := tsZero, tier := c.mtier, bare := true } else s
  let s := s.normalise b t
  let y := (s.box b).tile t
  if (s.box b).wingOpen y then
    if y.wlost || (y.wtier = 2 && s.dev.flashRo) then none else some (s.putFrame b t y.wtier y.wframe d)
  else (s.takeFrame b c.mtier (x.mirrorSeat tile)).map fun r =>
    (r.1.updTile b t fun y => { y with wing := true, wframe := r.2, wtier := c.mtier, we := x.openE % 256 }).putFrame b t c.mtier r.2 d

/-- A tile of a base mirror is stored live: none when there is no frame for it (R275; log 39). -/
def State.mirrorBase (s : State) (b t tile : Nat) (c : CurtainCfg) (d : TileData) : Option State :=
  let s := s.normalise b t
  let y := (s.box b).tile t
  if y.st = tsResident then
    if y.tier = 2 && s.dev.flashRo then none else some (s.putFrame b t y.tier y.frame d)
  else (s.takeFrame b c.mtier ((s.box b).mirrorSeat tile)).map fun r =>
    (r.1.updTile b t fun y => { y with st := tsResident, tier := c.mtier, frame := r.2, bare := false }).putFrame b t c.mtier r.2 d

/-- MIRROR_WING_RECEIVE (R267, R272, R274, R275): a wing of the device that mirrors here is stored and acknowledged. A tile of
a base mirror comes under the resolved epoch and is stored live; the mirror holds a committed step once its last tile has come.
A wing without a frame fails the sender's seal. -/
def execMirrorWingReceive (box : Fin 16) (epoch : W32) (place : MirrorPlace) (payload side : List Byte) (s : State) :
    Host.Outcome State Fault Refusal :=
  let b := box.val
  let x := s.box b
  match x.curtain with
  | none => .next s
  | some c =>
    let t := c.mbase * 262144 + place.tile
    let d : TileData := ⟨Tab.block 0 0 (payload.take 16384), Tab.block 0 0 (side.take 64)⟩
    let full : State := s.send (.mirrorFull b epoch.toNat)
    if x.st ≠ 3 || x.frozen || !s.dev.on || c.p = 0 || (s.subkeys b t).isNone then .next s
    else if epoch.toNat = x.openE then
      .next (match s.mirrorWing b t place.tile c d with
        | none => full
        | some s => s.send (.mirrorAck b epoch.toNat))
    else if epoch.toNat = x.resolvedE then
      .next (match s.mirrorBase b t place.tile c d with
        | none => full
        | some s => s.updBox b fun x => { x with mirrorBase := place.last, mirrorStep := if place.last then some x.step else none })
    else .next s

/-- BASE_MIRROR_COMPLETE (R263, R275): the base mirror is sent, and PARTNER becomes valid. What the reads of its tiles met shows
by then (12:R304, log 14). -/
def execBaseMirrorComplete (box : Fin 16) (s : State) : Host.Outcome State Fault Refusal :=
  let b := box.val
  let x := s.box b
  if x.partner ≠ 1 || x.st ≠ 3 || !s.dev.on then .next s
  else
    let s := (s.meetTiles b (x.protectedTiles.map Prod.snd) 1 5).1
    if (s.box b).frozen then .next s else
    let s := s.updBox b fun x => { x with partner := 2, baseOp := none }
    .next (match x.baseOp with | some o => s.endOp b o stOk | none => s)

/-- The lead decides once it has heard from every device (R268, R286). -/
def State.leadDecides (s : State) (b : Nat) : State :=
  let x := s.box b
  let ds := List.range (s.boxGroup b)
  let send (f : Nat → Out) : State :=
    ds.foldl (fun s d => s.send (f d)) (s.updBox b fun x => { x with lead := { x.lead with decided := true } })
  if x.lead.decided then s
  else if x.cst = 5 then
    if ds.all (fun d => x.lead.ready.contains d || x.lead.failed.contains d) then
      send (fun d => .discardTo b d x.openE 7 x.lead.failed.isEmpty)
    else s
  else if ds.all (fun d => x.lead.ready.contains d) then send (fun d => .closeTo b d x.step x.openE)
  else s

/-- READY (R268): the lead hears READY from a device for the open step and epoch. -/
def execReady (box : Fin 16) (dev : Fin 64) (step : W64) (epoch : W32) (s : State) : Host.Outcome State Fault Refusal :=
  let b := box.val
  let x := s.box b
  if x.st ≠ 3 || !s.isLead b || epoch.toNat ≠ x.openE || step.toNat ≠ x.step || s.boxGroup b ≤ dev.val || !s.dev.on then .next s
  else .next ((s.updBox b fun x => { x with lead := { x.lead with ready := dev.val :: x.lead.ready.filter (· ≠ dev.val) } }).leadDecides b)

/-- IMPORT_FAILURE_REPORT (R286). -/
def execImportFailureReport (box : Fin 16) (dev : Fin 64) (step : W64) (epoch : W32) (s : State) : Host.Outcome State Fault Refusal :=
  let b := box.val
  let x := s.box b
  if x.st ≠ 3 || !s.isLead b || epoch.toNat ≠ x.openE || step.toNat ≠ x.step || s.boxGroup b ≤ dev.val || x.cst ≠ 5 || !s.dev.on then .next s
  else .next ((s.updBox b fun x => { x with lead := { x.lead with failed := dev.val :: x.lead.failed.filter (· ≠ dev.val) } }).leadDecides b)

/-- CLOSE is applied in one step (R269): the epoch resolves closed, the step counter advances, the generators are loaded,
and the SEAL launch completes; a local take falls due on a multiple of F (R276). -/
def State.applyClose (s : State) (b : Nat) : State :=
  let x := s.box b
  let e := x.openE
  let step := (x.step + 1) % 2 ^ 64
  let r := x.wingRec.getD x.stepRec
  let mirrored := match x.curtain with
    | some c => x.mirrorBase && x.tiles.any (fun (p : Nat × Tile) => c.mirrors p.1 && x.wingOpen p.2)
    | none => false
  let s := s.updBox b fun x =>
    { x with resolvedE := e, closed := true, openE := (e + 1) % 2 ^ 32, step := step, last := 1, cst := 0, stepRec := r,
             history := (e, true) :: x.history, orphan := false, wingRec := none, tagFailed := false, mirrorLeft := 0, mirrorStep := if mirrored then some step else x.mirrorStep,
             lead := { x.lead with ready := [], failed := [], sealAt := x.sealsIn ((e + 1) % 2 ^ 32), decided := false } }
  let s := s.loadGens b r
  let due := match x.curtain with | some c => c.f ≠ 0 && step % c.f = 0 | none => false
  let s := if due then
      s.updBox b fun x => { x with takeDue := some (step, e, x.protectedTiles.map (fun (p : Nat × Nat) =>
        match s.readPlace b p.2 with | .at tier f => (p.2, tier, f) | .zero => (p.2, 4, 0) | .bad => (p.2, 5, 0))) }
    else s
  s.endSeals b e stOk

/-- CLOSE (R269): applied to the open epoch of a device that is READY and has not lost its lead meanwhile (R270). -/
def execClose (box : Fin 16) (step : W64) (epoch : W32) (s : State) : Host.Outcome State Fault Refusal :=
  let b := box.val
  let x := s.box b
  .next (if x.st = 3 && epoch.toNat = x.openE && step.toNat = x.step && x.cst = 2 && !x.orphan && x.outcome.isNone && s.dev.on then s.applyClose b else s)

/-- A discard of the open epoch begins (R269): its launches are ended with the status of the cause, and it is applied
when their cores have stopped. -/
def State.beginDiscard (s : State) (b cause : Nat) (allPassed : Bool) : State :=
  let x := s.box b
  if x.outcome.isSome then s
  else
    let s := s.updBox b fun x => { x with outcome := some (cause, allPassed) }
    let s := (x.launches.filter (fun (l : Launch) => l.epoch == x.openE && (l.st == LaunchSt.running || l.st == LaunchSt.queued))).foldl
      (fun s (l : Launch) => s.endLaunch b l.num (discardStatus cause allPassed)) s
    s.tryDiscard b

/-- CURTAIN_DISCARD (R268, R269): a discard from the lead. -/
def execCurtainDiscard (box : Fin 16) (epoch : W32) (cause : Byte) (allPassed : Bool) (s : State) : Host.Outcome State Fault Refusal :=
  let b := box.val
  let x := s.box b
  .next (if x.st = 3 && epoch.toNat = x.openE && s.dev.on then s.beginDiscard b cause.toNat allPassed else s)

/-- CURTAIN_TIMEOUT (R268). -/
def execCurtainTimeout (box : Fin 16) (epoch : W32) (s : State) : Host.Outcome State Fault Refusal :=
  let b := box.val
  let x := s.box b
  .next (if x.st = 3 && s.isLead b && epoch.toNat = x.openE && x.lead.sealAt && s.dev.on then s.decideDiscard b 3 else s)

end Sys2Proof.Machine
end

