-- ==== Sys2Proof/Machine/Recovery.lean ====
section
/-! DEFINITION. Local and shared-store takes (11:R276, R277; 12:R322), and restores (11:R280 to R283). -/
namespace Sys2Proof.Machine

/-- Records of a box that no commit has kept are released (R276). -/
def State.dropRecords (s : State) (b : Nat) (keep : LocalRec → Bool) : State :=
  s.updDev fun d => { d with retained := d.retained.filter (fun r => r.box ≠ some b || keep r) }

/-- What a frame held for a take gives (R276); tier 4 stands for a ZERO tile and 5 for one that cannot be read. -/
def State.takeRead (s : State) (b : Nat) (p : Nat × Nat × Nat) : Option TileData :=
  if p.2.1 = 5 then none
  else s.contents b p.1 (if p.2.1 = 4 then .zero else .at p.2.1 p.2.2)

/-- LOCAL_TAKE (R276, R279): the scene record of the state committed at CLOSE is sealed under SKEY and written to flash.
A take that cannot be made, also for a line that gives no data (12:R304), leaves the committed record in place; in IMPORTED
none is made (R285). -/
def execLocalTake (box : Fin 16) (s : State) : Host.Outcome State Fault Refusal :=
  let b := box.val
  let x := s.box b
  match x.takeDue, x.curtain with
  | some (step, e, fs), some c =>
    if x.st ≠ 3 || x.cst = 5 || !s.dev.on then .next s
    else
      let s := s.dropRecords b (fun r => r.committed)
      let m := fs.foldl (fun (a : State × Bool) (p : Nat × Nat × Nat) =>
        if p.2.1 < 4 then
          let r := a.1.heldRead b p.1 (.at p.2.1 p.2.2) .good 1 5
          (r.1, a.2 && r.2.isSome)
        else a) (s, true)
      let s := m.1
      if !m.2 then .next (s.updBox b fun x => { x with takeDue := none }) else
      let k := s.slot c.skey
      let ts := fs.foldl (fun (acc : Option (List TileData)) p => acc.bind fun l => (s.takeRead b p).map (fun d => l ++ [d])) (some [])
      let s := s.updBox b fun x => { x with takeDue := none }
      if 2 ^ 20 ≤ k.seals then .next (s.updBox b fun x => { x with takeReject := true })
      else match ts with
        | none => .next s
        | some ts =>
          let d := s.draw
          let r : SceneRec := ⟨e, (Config.random56 d.1).toNat, step, c.runs, s.boxIndex b, s.boxGroup b, k.key, ts⟩
          if !s.ownedSlot b c.skey 2 || s.quotaLeft b < r.frames || s.dev.flashRo then .next s
          else .next ((d.2.setSlot c.skey { k with seals := k.seals + 1 }).updDev fun d =>
            { d with retained := d.retained ++ [⟨r, false, false, some b⟩] })
  | _, _ => .next s

/-- LOCAL_TAKE_COMPLETE (R276): the record is in flash, and its step is reported to the lead. -/
def execLocalTakeComplete (box : Fin 16) (s : State) : Host.Outcome State Fault Refusal :=
  let b := box.val
  match s.dev.retained.find? (fun r => r.box == some b && !r.complete) with
  | none => .next s
  | some r =>
    if (s.box b).st ≠ 3 || !s.dev.on then .next s
    else .next ((s.updDev fun d => { d with retained := d.retained.map (fun q => if q = r then { q with complete := true } else q) }).send
      (.localTaken b r.rec0.step))

/-- A report of a take at the lead: whether every device of the group has reported the step, and the reports after it. -/
def takeReports (rs : List (Nat × Nat)) (dev step group : Nat) : Bool × List (Nat × Nat) :=
  let rs := (dev, step) :: rs.filter (fun p => p.1 ≠ dev || p.2 ≠ step)
  if (List.range group).all (fun d => rs.contains (d, step)) then (true, rs.filter (fun p => p.2 ≠ step)) else (false, rs)

/-- LOCAL_TAKE_REPORT (R276): the lead commits a step that every device has taken. -/
def execLocalTakeReport (box : Fin 16) (dev : Fin 64) (step : W64) (s : State) : Host.Outcome State Fault Refusal :=
  let b := box.val
  let x := s.box b
  if x.st ≠ 3 || !s.isLead b || s.boxGroup b ≤ dev.val || !s.dev.on then .next s
  else
    let r := takeReports x.lead.localReports dev.val step.toNat (s.boxGroup b)
    let s := s.updBox b fun x => { x with lead := { x.lead with localReports := r.2 } }
    .next (if r.1 then (List.range (s.boxGroup b)).foldl (fun s d => s.send (.localCommitTo b d step.toNat)) s else s)

/-- LOCAL_COMMIT (R276, R277): the step's record becomes the committed one, the previous one is released, and on a
multiple of S the record is due in the shared store. -/
def execLocalCommit (box : Fin 16) (step : W64) (s : State) : Host.Outcome State Fault Refusal :=
  let b := box.val
  let n := step.toNat
  let mine (r : LocalRec) : Bool := r.rec0.step == n && r.complete
  if (s.box b).st ≠ 3 || !s.dev.on || !s.dev.retained.any (fun r => r.box == some b && mine r && !r.committed) then .next s
  else
    let s := s.updDev fun d => { d with retained := d.retained.map (fun r => if r.box = some b && mine r then { r with committed := true } else r) }
    let s := s.dropRecords b (fun r => mine r || !r.committed)
    let due := match (s.box b).curtain with | some c => c.s ≠ 0 && n % c.s = 0 | none => false
    .next (s.updBox b fun x => { x with localStep := some n, storeDue := if due then some n else x.storeDue })

/-- STORE_TAKE (R277; 12:R322): the committed record goes to the shared store through XSTORE; without every member's
approval a company box skips the take. -/
def execStoreTake (box : Fin 16) (s : State) : Host.Outcome State Fault Refusal :=
  let b := box.val
  let x := s.box b
  match x.storeDue, x.curtain with
  | some n, some c =>
    if x.st ≠ 3 || x.cst = 5 || !s.dev.on then .next s
    else
      let s := s.updBox b fun x => { x with storeDue := none }
      let approved := x.members ≤ 1 || (List.range x.members).all (fun m => x.approvals.any (fun a =>
        a.member == m && a.kind == 2 && a.xfer == c.xstore && decide (n ≤ a.limit)))
      .next (if approved then s.askRun b c.xstore (.store n) else s)
  | _, _ => .next s

/-- STORE_TAKE_REPORT (R277): the lead commits a step that every device has written to the shared store. -/
def execStoreTakeReport (box : Fin 16) (dev : Fin 64) (step : W64) (s : State) : Host.Outcome State Fault Refusal :=
  let b := box.val
  let x := s.box b
  if x.st ≠ 3 || !s.isLead b || s.boxGroup b ≤ dev.val || !s.dev.on then .next s
  else
    let r := takeReports x.lead.storeReports dev.val step.toNat (s.boxGroup b)
    let s := s.updBox b fun x => { x with lead := { x.lead with storeReports := r.2 } }
    .next (if r.1 then (List.range (s.boxGroup b)).foldl (fun s d => s.send (.storeCommitTo b d step.toNat)) s else s)

/-- STORE_COMMIT (R277): STORE_STEP advances, and the next take goes to the other half. -/
def execStoreCommit (box : Fin 16) (step : W64) (s : State) : Host.Outcome State Fault Refusal :=
  let b := box.val
  .next (if (s.box b).st ≠ 3 || !s.dev.on || (s.box b).storeStep = some step.toNat then s
    else s.updBox b fun x => { x with storeStep := some step.toNat, storeHalf := !x.storeHalf })

/-- The frame that a restored tile is written to: the one its mapping gave it, or a fresh one of its tier in place of one
that went out of service (R282; 14:R377). -/
def State.restorePlace (s : State) (b : Nat) (t : Tile) : Option (State × Nat × Nat) :=
  let p := if t.tier = 3 then t.home.getD (1, 0) else (t.tier, t.frame)
  if p.1 = 2 && s.dev.flashRo then none
  else if s.frameOk b p.1 p.2 then some (s, p.1, p.2)
  else ((s.box b).seatList.findSome? (fun k => s.takeFrame b p.1 k)).map (fun r => (r.1, p.1, r.2))

/-- A restored tile is written and becomes RESIDENT (R282). -/
def State.restoreTile (s : State) (b tile : Nat) (d : TileData) : Option State :=
  if (s.subkeys b tile).isNone then none
  else (s.restorePlace b ((s.box b).tile tile)).map (fun r =>
    (r.1.putFrame b tile r.2.1 r.2.2 d).updTile b tile fun t => { t with st := tsResident, tier := r.2.1, frame := r.2.2, home := none })

/-- The local record that a restore reads (R276, R281): the box's own, once claimed. -/
def State.recordOf (s : State) (b : Nat) (r : Restore) : Option SceneRec :=
  (s.dev.retained.find? (fun q => q.box == some b && q.rec0.step == r.step && q.complete)).map LocalRec.rec0

/-- Whether a shared-store record's DIGEST verifies over its header, run list and record tags (R279, R280). -/
def digestOk (h : List Byte) (tags : Tab (List Byte)) : Bool :=
  let n := fieldAt h 0x18 8
  sliceBytes h 0x40 64 == Config.shake 64 (h.take 0x40 ++ sliceBytes h 0xC0 (16 * fieldAt h 0x20 4)
    ++ (List.range n).flatMap (fun i => Tab.get [] tags i))

/-- Verified tiles of a scene record are written, once the whole record has verified (R280, R282): none when one cannot be. -/
def State.writeRestored (s : State) (b : Nat) (ts : List (Nat × TileData)) : Option State :=
  ts.foldl (fun (acc : Option State) p => acc.bind fun s =>
    if ((s.box b).tile p.1).st ≠ tsRestoring then some s else s.restoreTile b p.1 p.2) (some s)

/-- RESTORE_TILE_WRITE (R280, R282): the next tile's data arrives from the source (of a shared-store record, first its
header) and is verified. A tile of the partner's mirror is written at once; those of a scene record are kept until all of it
has verified, and no tile is written from one that fails. A failed check ends the restore in LOST_STATE. -/
def execRestoreTileWrite (box : Fin 16) (bytes : List Byte) (line : LineOutcome) (s : State) : Host.Outcome State Fault Refusal :=
  let b := box.val
  let x := s.box b
  let bad := match line with | .good => false | .corrected _ => false | _ => true
  match x.restore, x.curtain with
  | some r, some c =>
    if x.cst ≠ 3 || x.st ≠ 3 || !s.dev.on then .next s
    else
      let upd (f : Restore → Restore) (s : State) : State := s.updBox b fun x => { x with restore := x.restore.map f }
      let key := (s.slot c.skey).key
      let put (tile : Nat) (rest : List (Nat × Nat)) (d : TileData) : Host.Outcome State Fault Refusal :=
        let s := upd (fun r => { r with todo := rest }) s
        if (x.tile tile).st ≠ tsRestoring then .next s
        else match s.restoreTile b tile d with
          | none => .next (s.failRestore b stHwFault)
          | some s => .next ((upd (fun r => { r with written := r.written + 1 }) s).opProgress b r.opid (r.written + 1))
      let keep (tile : Nat) (rest : List (Nat × Nat)) (d : TileData) (ok : Bool) (s : State) : State :=
        let ts := r.held ++ [(tile, d)]
        if !rest.isEmpty then upd (fun r => { r with todo := rest, held := ts }) s
        else if !ok then s.failRestore b stIntegrity
        else match (upd (fun r => { r with todo := [], held := [], written := ts.length }) s).writeRestored b ts with
          | none => s.failRestore b stHwFault
          | some s => s.opProgress b r.opid ts.length
      if bad then .next (s.failRestore b stIntegrity)
      else if r.src = 2 && r.hdr.isEmpty then
        if !s.ownedSlot b c.skey 2 then .next (s.failRestore b stNotAuth)
        else if !sceneHeaderOk key bytes r.step (s.boxIndex b) c.runs || fieldAt bytes 0x18 8 ≠ r.todo.length then
          .next (s.failRestore b stIntegrity)
        else .next ((upd (fun r => { r with hdr := bytes }) s).send (.rdmaRead b r.xsrc ((r.todo.headD (0, 0)).2)))
      else match r.todo with
        | [] => .next s
        | (tile, j) :: rest =>
          if r.src = 0 then
            if bytes.length ≠ 16448 then .next (s.failRestore b stIntegrity) else put tile rest (TileData.ofBytes bytes)
          else if r.src = 1 then
            match s.recordOf b r with
            | none => .next (s.failRestore b stIntegrity)
            | some q =>
              if !s.ownedSlot b c.skey 2 then .next (s.failRestore b stNotAuth)
              else match q.tiles[j]? with
                | some d => .next (if q.key = key && q.device = s.boxIndex b then keep tile rest d true s else s.failRestore b stIntegrity)
                | none => .next (s.failRestore b stIntegrity)
          else
            match openRecord key r.hdr 0x40 j bytes with
            | none => .next (s.failRestore b stIntegrity)
            | some d =>
              let tags := Tab.set [] r.tags j (bytes.drop 16448)
              let s := keep tile rest d (digestOk r.hdr tags) (upd (fun r => { r with tags := tags }) s)
              .next (match rest with
                | [] => s
                | (_, i) :: _ => s.send (.rdmaRead b r.xsrc i))
  | _, _ => .next s

/-- The counter entries that a data position realigns: the table, entries ahead, entries behind (R283). -/
def realign (r : StepRec) (ncore : Nat) : StepRec × Nat × Nat :=
  let p := r.dstep % 2 ^ 32
  (List.range (ncore * 16)).foldl (fun (a : StepRec × Nat × Nat) i =>
    let g := Tab.get {} a.1.gens i
    let ahead := decide (p < g.step) || (g.step == p && g.draw != 0)
    let behind := decide (g.step < p)
    if ahead || behind then
      ({ a.1 with gens := Tab.set {} a.1.gens i { g with step := p, draw := 0 } }, a.2.1 + bitN ahead, a.2.2 + bitN behind)
    else a) (r, 0, 0)

/-- The result word of a restore (R283). -/
def realignWord (ahead behind : Nat) : Nat := (if 0 < ahead + behind then 2 ^ 31 else 0) + ahead * 65536 + behind

/-- The five step-record tiles as they stand. -/
def State.liveRec (s : State) (b : Nat) : Option StepRec :=
  match (s.box b).curtain with
  | none => none
  | some c =>
    ((List.range 5).foldl (fun (acc : Option (List TileData)) i => acc.bind fun l => (s.readTile b (c.steprec + i)).map (fun d => l ++ [d]))
      (some [])).map StepRec.ofTiles

/-- RESTORE_COMPLETE (R275, R282, R283; 09:R214): every tile is written; the counters are realigned, the step and the
epochs are the record's, the generators are loaded, and the box is OPEN. -/
def execRestoreComplete (box : Fin 16) (s : State) : Host.Outcome State Fault Refusal :=
  let b := box.val
  let x := s.box b
  match x.restore with
  | none => .next s
  | some r =>
    if x.cst ≠ 3 || x.st ≠ 3 || !s.dev.on || !r.todo.isEmpty then .next s
    else
    let s := (s.meetTiles b (match x.curtain with | some c => (List.range 5).map (· + c.steprec) | none => []) 1 5).1
    if (s.box b).frozen then .next (s.failRestore b stIntegrity)
    else match s.liveRec b with
      | none => .next (s.failRestore b stHwFault)
      | some q =>
        if q.step ≠ r.step then .next (s.failRestore b stBadParam)
        else
          let q1 := if r.dpos then { q with dstep := r.dstep, sample := r.sample } else q
          let z := realign q1 x.coreList.length
          let s := match r.src with
            | 1 => (match s.recordOf b r with
              | some q => s.noteLoad b q.recordId (sliceBytes q.bytes.1 0x80 16)
              | none => s)
            | 2 => s.noteLoad b (hdrId r.hdr) (sliceBytes r.hdr 0x80 16)
            | _ => s
          let s := s.updBox b fun x =>
            { x with step := q.step, resolvedE := q.epoch, closed := true, openE := (q.epoch + 1) % 2 ^ 32, cst := 0, restore := none,
                     history := (q.epoch, true) :: x.history,
                     partner := if r.src = 0 && x.partner = 1 then 2 else x.partner }
          let s := if z.1 = q then s.updBox b (fun x => { x with stepRec := q }) else s.putStepRec b z.1
          let s := s.loadGens b z.1
          let s := (s.opResult b r.opid (realignWord z.2.1 z.2.2)).endOp b r.opid stOk
          let s := match (s.box b).runs.find? (fun (q : Run) => q.who == .restore) with
            | some q => s.endRun b q stOk
            | none => s
          let s := s.send (.restored b)
          .next (if r.lostOnly || r.src = 0 then s else s.startBase b)

/-- The tiles that a restore writes, the step record's last, with their numbers at the source (R274, R279, R282): places
in the mirror for the partner, indices of records otherwise. -/
def State.restoreTodo (s : State) (b src : Nat) (lostOnly lazy : Bool) : List (Nat × Nat) :=
  let x := s.box b
  let ps := x.protectedTiles
  let all := ((List.range ps.length).zip ps).map (fun (p : Nat × Nat × Nat) => (p.2.2, if src = 0 then p.2.1 else p.1))
  let want := if src = 2 then all else all.filter (fun p => !lostOnly || (x.tile p.1).st == tsLost)
  let want := if lazy && src = 0 then want.filter (fun p => x.isStepRec p.1) else want
  want.filter (fun p => !x.isStepRec p.1) ++ want.filter (fun p => x.isStepRec p.1)

/-- A tile of a lazy restore lies with the partner at once, its frame kept as its home, and its move home is queued, as soon
as there is room for it (R177, R282). -/
def State.lazyTile (s : State) (b : Nat) (p : Nat × Nat) : State :=
  let t := (s.box b).tile p.1
  let h := if t.tier = 3 then t.home.getD (1, 0) else (t.tier, t.frame)
  let d := s.draw
  let s := d.2.updTile b p.1 fun t => { t with st := tsResident, tier := 3, frame := p.2, home := some h, mapNo := d.1 }
  let seat := (seatOf h.1 h.2).getD (s.box b).seat0
  (s.updBox b fun x => { x with homeDue := x.homeDue ++ [(p.1, h.1, seat)] }).queueHomes b

/-- A restore begins (R281, R282): its targets are RESTORING, and a shared-store record is asked for. -/
def State.beginRestore (s : State) (b : Nat) (r : Restore) : State :=
  let s := (((s.box b).tiles.map Prod.fst).foldl (fun s t => s.normalise b t) s).updBox b fun x => { x with homeDue := [] }
  let todo := s.restoreTodo b r.src r.lostOnly r.lazy
  let ps := (s.box b).protectedTiles.filter (fun (p : Nat × Nat) => !r.lostOnly || ((s.box b).tile p.2).st == tsLost)
  let s := ps.foldl (fun s (p : Nat × Nat) =>
    let s := if ((s.box b).tile p.2).st = tsMigrating then s.abandonMove b p.2 else s
    if r.lazy && r.src = 0 && !(s.box b).isStepRec p.2 then s.lazyTile b (p.2, p.1)
    else s.updTile b p.2 fun t => { t with st := tsRestoring }) s
  let s := s.updBox b fun x => { x with cst := 3, restore := some { r with todo := todo } }
  if r.src = 2 then s.askRun b r.xsrc .restore else s

end Sys2Proof.Machine
end

