-- ==== Sys2Proof/Machine/Rekey.lean ====
section
/-! DEFINITION. The rotation of MEMORY keys: its start and its walker (12:R307 to R310). -/
namespace Sys2Proof.Machine

/-- The walker's next region: the lowest-numbered one that is marked (R309). -/
def Box.nextMarked (x : Box) : Option (Nat × Region) :=
  x.regions.findSome? (fun (p : Nat × Option Region) => match p.2 with
    | some r => if r.rot then some (p.1, r) else none
    | none => none)

/-- The next tile of a region, at or after its CURSOR, that the walker does not skip (R309). -/
def Box.nextWalked (x : Box) (region : Nat) (r : Region) : Option Nat :=
  (x.tiles.find? (fun (p : Nat × Tile) => decide (region * 262144 + r.cursor ≤ p.1) && decide (p.1 < (region + 1) * 262144)
    && (p.2.st == tsResident || p.2.st == tsMigrating || p.2.st == tsRestoring))).map Prod.fst

def State.updRegion (s : State) (b region : Nat) (f : Region → Region) : State :=
  s.updBox b fun x => { x with regions := Tab.upd none x.regions region (fun r => r.map f) }

/-- The rotations whose last marked region has been walked complete, and their previous subkeys are destroyed (R307). -/
def State.rekeyDone (s : State) (b : Nat) : State :=
  let marked (x : Box) (k : Nat) : Bool := x.regions.any (fun (p : Nat × Option Region) => match p.2 with
    | some r => r.rot && r.tumbler == k
    | none => false)
  let s := (s.box b).rekey.jobs.foldl (fun s (j : Nat × Nat × Nat) =>
    if marked (s.box b) j.1 then s
    else
      let k := s.slot j.1
      ((s.setSlot j.1 { k with st := if k.st = 2 then 1 else k.st, prev := none }).updBox b fun x =>
        { x with rekey := { x.rekey with jobs := x.rekey.jobs.filter (· ≠ j) } }).endOp b j.2.1 stOk) s
  if (s.box b).rekey.jobs.isEmpty then s.updBox b fun x => { x with rekey := { x.rekey with active := false } }
  else match (s.box b).nextMarked with
    | some (n, r) => s.updBox b fun x => { x with rekey := { x.rekey with region := n, cursor := r.cursor } }
    | none => s

/-- The walker rewrites one frame of a tile under the current subkeys (R309): it goes on, or has stopped. A frame that is
already under them stays, and so does the frame of a RESTORING tile that holds no line of the previous ones (log 18). In flash
that has become read-only nothing is written (07:R170), and the walk stops. -/
def State.rewriteFrame (s : State) (b tile : Nat) (k : KeySlot) (f : Nat × Nat) (line : LineOutcome) : State × Bool :=
  let restoring := ((s.box b).tile tile).st == tsRestoring
  if f.1 = 3 || !s.frameOk b f.1 f.2 || (s.frame (frameKey f.1 f.2)).kid = k.kid
      || (restoring && some (s.frame (frameKey f.1 f.2)).kid != k.prev) then (s, true)
  else
    let r := s.heldRead b tile (.at f.1 f.2) line 4 3
    match r.2 with
    | some d => if f.1 = 2 && r.1.dev.flashRo then (r.1, false) else (r.1.setFrame (frameKey f.1 f.2) ⟨k.kid, d.data, d.side.write 3 (BitVec.ofNat 8 k.gen), .good⟩, true)
    | none => (r.1, !(r.1.box b).frozen)

/-- The frames of a tile in the walker's order: FRAME, WFRAME, then those held for a local take or a scene change. -/
def Box.walkFrames (x : Box) (tile : Nat) : List (Nat × Nat) :=
  let t := x.tile tile
  let held := match x.takeDue with
    | some (_, _, fs) => (fs.filter (fun p => p.1 == tile && decide (p.2.1 < 4))).map Prod.snd
    | none => []
  let snap := ((List.range x.scene.layers.length).zip x.scene.layers).flatMap (fun (p : Nat × Layer) =>
    let fs := x.scene.snap.filter (fun q => q.1 == p.1)
    (((List.range fs.length).zip fs).filter (fun (q : Nat × Nat × Nat × Nat) => p.2.src + q.1 == tile && decide (q.2.2.1 < 4))).map (fun q => q.2.2))
  (if t.bare then [] else [(t.tier, t.frame)]) ++ (if t.wing && !t.wlost then [(t.wtier, t.wframe)] else []) ++ held ++ snap

/-- REKEY_WALK_TILE (R308 to R310): the walker rewrites the next tile of the box's marked regions and advances CURSOR; a
tile that is MIGRATING makes it wait. The line outcome is that of the first line it reads. -/
def execRekeyWalkTile (box : Fin 16) (line : LineOutcome) (s : State) : Host.Outcome State Fault Refusal :=
  let b := box.val
  let x := s.box b
  if !x.rekey.active || x.st ≠ 3 || x.frozen || !s.dev.on then .next s
  else match x.nextMarked with
    | none => .next (s.rekeyDone b)
    | some (n, r) =>
      match x.nextWalked n r with
      | none => .next ((s.updRegion b n fun r => { r with rot := false }).rekeyDone b)
      | some t =>
        if (x.tile t).st = tsMigrating then .next s
        else
          let k := s.slot r.tumbler
          let fs := x.walkFrames t
          let o := ((List.range fs.length).zip fs).foldl (fun (a : State × Bool) (p : Nat × Nat × Nat) =>
            if a.2 then a.1.rewriteFrame b t k p.2 (if p.1 = 0 then line else .good) else a) (s, true)
          if !o.2 then .next o.1
          else
            let c := t - n * 262144 + 1
            let s := o.1.updRegion b n fun r => { r with cursor := c }
            let step (j : Nat × Nat × Nat) : Nat × Nat × Nat := (j.1, j.2.1, if j.1 = r.tumbler then j.2.2 + 1 else j.2.2)
            let s := s.updBox b fun x =>
              { x with rekey := { x.rekey with region := n, cursor := c, jobs := x.rekey.jobs.map step } }
            let s := match (s.box b).rekey.jobs.find? (fun (j : Nat × Nat × Nat) => j.1 == r.tumbler) with
              | some j => s.opProgress b j.2.1 j.2.2
              | none => s
            .next (match (s.box b).region n with
              | some r => if ((s.box b).nextWalked n r).isNone then (s.updRegion b n fun r => { r with rot := false }).rekeyDone b else s
              | none => s)

/-- REKEY's effect (R307): the current subkeys become the previous ones, new ones are drawn, GEN advances, and the mapped
regions under the slot are marked. -/
def State.startRekey (s : State) (b slot opid : Nat) : State :=
  let k := s.slot slot
  let n := s.dev.kids + 1
  let gen := (k.gen + 1) % 256
  let s := (s.updDev fun d => { d with kids := n }).setSlot slot { k with st := 2, kid := n, prev := some k.kid, gen := gen }
  s.updBox b fun x =>
    let regs : Tab (Option Region) := x.regions.map (fun (p : Nat × Option Region) => (p.1, p.2.map (fun r =>
      if r.tumbler = slot then { r with rot := true, cursor := 0 } else r)))
    let first := match ({ x with regions := regs } : Box).nextMarked with | some (n, r) => (n, r.cursor) | none => (x.rekey.region, x.rekey.cursor)
    { x with regions := regs, rekey := { active := true, halted := false, slot := slot, gen := gen, region := first.1, cursor := first.2,
                                         jobs := x.rekey.jobs ++ [(slot, opid, 0)] } }

end Sys2Proof.Machine
end

