-- ==== Sys2Proof/Machine/Boxes.lean ====
section
/-! DEFINITION. How a box becomes SEATED and how it closes (12:R291, R293; 10:R247; 13:R354). -/
namespace Sys2Proof.Machine

/-- Every key of every slot that a box owns is destroyed (R293). -/
def State.dropKeys (s : State) (b : Nat) : State :=
  { s with ring := s.ring.filter (fun (p : Nat × KeySlot) => !(p.2.owner == b && p.2.st != 0)) }

/-- The first steps of a close (R293): the lead of its group hears of it, an opening that has not ended ends (log 19), cores and streams stop, keys are destroyed, tags are discarded, queues emptied, a
scene change and a rekey walk abandoned. -/
def State.beginClose (s : State) (b : Nat) (op : Option Nat) : State :=
  let was := s.box b
  let s := s.updBox b fun x => { x with st := 4, closeOp := op }
  let s := if was.st = 1 then s.endOp mgmt was.openOp stReject 3 4 else s
  let s := if was.binding.isSome && !s.isLead b then s.send (.boxClosed b) else s
  let s := (s.haltBox b stReject).dropKeys b
  let s := ((s.box b).tags.map Prod.fst).foldl (fun s t => s.failTag b t) s
  let s := ((s.emptyMoves b).movesDone b).failScene b stReject
  let s := match (s.box b).debugJob with | some (o, _, _) => s.endOp mgmt o stReject 3 4 | none => s
  s.updBox b fun x =>
    { x with tags := [], rekey := { x.rekey with active := false, jobs := [] }, loading := [], runs := [], restore := none, takeDue := none,
             storeDue := none, debugJob := none, outcome := none }

/-- The last steps of a close (R293): the seats' cores and cache ways are cleared, frames, quota, channels and local
records released, and the box is FREE. -/
def State.completeClose (s : State) (b : Nat) : State :=
  let x := s.box b
  let mine := s.taken.filter (fun p => p.2 == b + 1)
  let s := { s with
    taken := s.taken.filter (fun p => p.2 ≠ b + 1),
    frames := s.frames.filter (fun (p : Nat × Frame) => !Tab.has mine p.1),
    releasing := s.releasing.filter (fun k => !Tab.has mine k),
    reqs := s.reqs.filter (fun (p : Nat × Option Req) => match p.2 with | some r => r.box != b | none => true),
    flights := s.flights.filter (fun (p : Nat × Option Flight) => match p.2 with | some f => f.c.box.val != b | none => true) }
  let s := x.coreList.foldl (fun s k => s.setCore k (s.core k).opened) s
  let s := x.keyList.foldl (fun s k => s.updSeat k fun y =>
    { y with owner := if y.owner = some b then none else y.owner, capW := if y.owner = some b then 0 else y.capW, cache := [],
             holds := y.holds.filter (fun h => h.c.box.val ≠ b), staged := y.staged.filter (fun g => g.box ≠ b) }) s
  let s := s.updDev fun d => { d with retained := d.retained.filter (fun r => r.box ≠ some b), forwarded := d.forwarded.filter (fun f => f.box ≠ b) }
  let s := (s.setSession b {}).setBox b {}
  match x.closeOp with
  | some o => s.endOp mgmt o stOk
  | none => s

/-- BOX_SEATED (R291): the seats are initialised and the encapsulation key exists. -/
def execBoxSeated (box : Fin 16) (s : State) : Host.Outcome State Fault Refusal :=
  let b := box.val
  let x := s.box b
  if x.st ≠ 1 || !s.dev.on then .next s
  else
    let n := s.dev.kids + 1
    let s := (s.updDev fun d => { d with kids := n }).updBox b fun x => { x with st := 2, kem := some n }
    .next (s.endOp mgmt x.openOp stOk)

/-- BOX_CLOSE_COMPLETE (R293). -/
def execBoxCloseComplete (box : Fin 16) (s : State) : Host.Outcome State Fault Refusal :=
  .next (if (s.box box.val).st = 4 && s.dev.on then s.completeClose box.val else s)

end Sys2Proof.Machine
end

