-- ==== Sys2Proof/Machine/Latch.lean ====
section
/-! DEFINITION. The latch bank and the life cycle, the settings store, the firmware slots, and the wipes
(14:R355 to R363, R368, R372 to R374). -/
namespace Sys2Proof.Machine

/-- The programmed data bits of a physical row, spare rows from 0x400 on. -/
def State.cells (s : State) (h : Nat) : BitVec 256 := Tab.get 0 s.dev.rows h
/-- The physical row that serves a row: the last spare row that records its number, else the row itself (R358). -/
def State.rowHome (s : State) (r : Nat) : Nat :=
  match s.dev.spareRows.reverse.find? (fun p => p.2 == r) with
  | some p => 0x400 + p.1
  | none => r
/-- The rows of the security version, which have no check bits and no spare rows (R358). -/
def svnRow (h : Nat) : Bool := decide (0x10 ≤ h) && decide (h ≤ 0x12)
/-- Whether the check of a physical row failed when B0 read the bank; a row that reads 0 in every bit has none (R357, R358). -/
def State.rowBad (s : State) (h : Nat) : Bool :=
  let f := Tab.get 0 s.dev.rowSeen h
  f != 0 && !svnRow h && (let v := s.cells h ^^^ f.setWidth 256
    let c := Tab.get 0 s.dev.rowChecks h ^^^ (f >>> 256).setWidth 32
    !(v == 0 && c == 0) && Config.rowCheck v != c)
/-- A row as it is read: 0 where its check failed at power-up (R358). -/
def State.row (s : State) (r : Nat) : BitVec 256 :=
  let h := s.rowHome r
  if s.rowBad h then 0 else s.cells h ^^^ (Tab.get 0 s.dev.rowSeen h).setWidth 256

/-- A physical row is programmed with its check bits: bits are only ever set (R357, R358). -/
def State.programCells (s : State) (h : Nat) (v : BitVec 256) : State :=
  s.updDev fun d => { d with rows := Tab.upd 0 d.rows h (fun w => w ||| v),
                             rowChecks := if svnRow h then d.rowChecks else Tab.insert h (Config.rowCheck v) (Tab.erase d.rowChecks h) }
/-- Whether a physical row reads back as it was written. -/
def State.readsBack (s : State) (h : Nat) (v : BitVec 256) : Bool :=
  let f := Tab.get 0 s.dev.rowFaults h
  s.cells h ^^^ f.setWidth 256 == v && f >>> 256 == 0
/-- The next free spare row takes a row's place and value, and the next after it where that fails too; none is left, the row
keeps what it has (R358, R378, log 20). -/
def State.spareRow (s : State) (r : Nat) (v : BitVec 256) : Nat → State
  | 0 => s
  | fuel + 1 =>
    let n := s.dev.spareRows.length
    if 32 ≤ n then s
    else
      let s := (s.updDev fun d => { d with spareRows := d.spareRows ++ [(n, r)] }).programCells (0x400 + n) v
      let s := s.tellEvent 0x0001 0xFF (fun _ => false)
      let s := if n + 1 = 29 then s.tellEvent 0x0106 0xFF (fun _ => false) else s
      if s.readsBack (0x400 + n) v then s else s.spareRow r v fuel
/-- A row is written and read back; where that fails, or its check failed at power-up, a spare row replaces it (R358). -/
def State.programRow (s : State) (r : Nat) (v : BitVec 256) : State :=
  let h := s.rowHome r
  if s.rowBad h then s.spareRow r v 32
  else
    let s := s.programCells h v
    if s.readsBack h v then s else s.spareRow r v 32

/-- Intent row and commit row of the k-th transition (R357, R360). -/
def intentRow (k : Nat) : Nat := 4 + 2 * k
def commitRow (k : Nat) : Nat := 5 + 2 * k
def transWord (head src dst k : Nat) : BitVec 256 := BitVec.ofNat 256 (head + src * 256 + dst * 65536 + k * 16777216)

/-- TRANS: intent rows written (LCS_STATE). -/
def State.transCount (s : State) : Nat := ((List.range 3).filter (fun k => s.row (intentRow k) ≠ 0)).length
/-- The life-cycle state: TO of the last pair with an intent row, BLANK without one (R362). -/
def State.lcs (s : State) : Nat :=
  match ((List.range 3).reverse.find? (fun k => s.row (intentRow k) ≠ 0)) with
  | some k => (s.row (intentRow k)).toNat / 65536 % 256
  | none => 0

/-- Free latch-bank spare rows (R357). -/
def State.spareRowsFree (s : State) : Nat := 32 - s.dev.spareRows.length

/-- Whether level `k` of the security version is set: two of its three bits (R358). -/
def State.svnLevel (s : State) (k : Nat) : Bool :=
  let bit (i : Nat) : Nat := bitN ((s.row (0x10 + i / 256)).getLsbD (i % 256))
  decide (2 ≤ bit (3 * k - 3) + bit (3 * k - 2) + bit (3 * k - 1))
/-- Levels set in an unbroken run from level `k` on. -/
def State.svnRun (s : State) (k : Nat) : Nat → Nat
  | 0 => 0
  | fuel + 1 => if s.svnLevel k then 1 + s.svnRun (k + 1) fuel else 0
/-- MIN_SVN (R357, R358). -/
def State.minSvn (s : State) : Nat := s.svnRun 1 256
/-- The three bits of a level are programmed. -/
def State.programLevel (s : State) (k : Nat) : State :=
  [3 * k - 3, 3 * k - 2, 3 * k - 1].foldl (fun s i => s.programCells (0x10 + i / 256) (BitVec.ofNat 256 (2 ^ (i % 256)))) s
/-- A level is programmed and read back, up to `n` times; whether two of its bits are set (R358). -/
def State.tryLevel (s : State) (k : Nat) : Nat → State × Bool
  | 0 => (s, false)
  | n + 1 =>
    let s := s.programLevel k
    if (s.updDev fun d => { d with rowSeen := d.rowFaults }).svnLevel k then (s, true) else s.tryLevel k n
/-- The levels that are to be added up to `n` are programmed in order, each once and up to three times again, and no others;
a level that stays unset ends it (R358). -/
def State.raiseSvn (s : State) (n : Nat) : State × Bool :=
  let m := s.minSvn
  (List.range (min n 256 - m)).foldl (fun (r : State × Bool) i => if r.2 then r.1.tryLevel (m + 1 + i) 4 else r) (s, true)

/-- The identity seed, the device's public key, and the device certificate (R357; 12:R313, R314). -/
def State.seed (s : State) : BitVec 256 := s.row 0
def certLen : Nat := 29792
def State.cert (s : State) : List Byte :=
  if s.lcs = 2 then (List.range 931).flatMap (fun i => leBytes 32 (s.row (0x20 + i)).toNat) else leBytes certLen 0

/-- Spare cells of the settings store in use, and whether a register's next write needs one (R372). -/
def State.cellUp (s : State) (i : Nat) : Bool := decide (100000 ≤ Tab.get 0 s.dev.nvsWrites i)
/-- Registers of a group that cannot be written: frozen ones, and those whose cells are spent beyond the free spares. -/
def State.nvsStuck (s : State) (is : List Nat) : List Nat :=
  let spent := is.filter (fun i => s.cellUp i && !s.dev.nvsFrozen.contains i)
  is.filter (fun i => s.dev.nvsFrozen.contains i) ++ spent.drop (64 - s.dev.nvsCells)
/-- A register freezes, with the event of its first freeze (R372). -/
def State.nvsFreeze (s : State) (i : Nat) : State :=
  if s.dev.nvsFrozen.contains i then s
  else (s.updDev fun d => { d with nvsFrozen := d.nvsFrozen ++ [i] }).tellEvent 0x0105 0xFF (fun _ => false)
/-- With no spare cell left, every register whose cell is spent freezes (R372). -/
def State.nvsSpent (s : State) : State :=
  if s.dev.nvsCells < 64 then s else ((List.range 256).filter s.cellUp).foldl (fun s i => s.nvsFreeze i) s
/-- One register is written; every write counts, and the one that a spent cell cannot take goes to a spare cell (R372). -/
def State.nvsPut (s : State) (i : Nat) (v : W32) : State :=
  let d0 : W32 := if i = 0 then 0x125C else 0
  let s := if s.cellUp i then (s.tellEvent 0x0001 0xFF (fun _ => false)).updDev fun d =>
      { d with nvsCells := d.nvsCells + 1, nvsMoved := if d.nvsMoved.contains i then d.nvsMoved else d.nvsMoved ++ [i],
               nvsWrites := Tab.set 0 d.nvsWrites i 1 }
    else s.updDev fun d => { d with nvsWrites := Tab.upd 0 d.nvsWrites i (· + 1) }
  s.updDev fun d => { d with nvs := Tab.set d0 d.nvs i v }
/-- A group of registers is committed whole, or not at all when one of them is frozen or freezes (R372, R374). -/
def State.nvsGroup (s : State) (vs : List (Nat × W32)) : State × Bool :=
  match s.nvsStuck (vs.map Prod.fst) with
  | [] => ((vs.foldl (fun s (p : Nat × W32) => s.nvsPut p.1 p.2) s).nvsSpent, true)
  | stuck => (stuck.foldl (fun s i => s.nvsFreeze i) s, false)
/-- Registers that a reset of the store writes (R372). -/
def resetRegs : List Nat := List.range 0x80 ++ (List.range (0x100 - 0x92)).map (· + 0x92)
/-- The settings store is reset: each register apart, a frozen one keeps its value (R361, R372). -/
def State.nvsReset (s : State) : State :=
  let s := resetRegs.foldl (fun s i => (s.nvsGroup [(i, if i = 0 then 0x125C else 0)]).1) s
  s.updDev fun d => { d with caks := [], eth := d.eth.map (fun (p : Nat × EthPort) => (p.1, { p.2 with cak := false })) }
/-- The 16 words of a 64-byte field, and its bytes. -/
def words32 (bs : List Byte) : List W32 := (List.range (bs.length / 4)).map (fun i => BitVec.ofNat 32 (fieldAt bs (4 * i) 4))
def State.nvsBytes (s : State) (lo n : Nat) : List Byte := (List.range n).flatMap (fun i => leBytes 4 (s.nvs (lo + i)).toNat)

/-- A firmware slot, and whether it may boot (R368). -/
def State.fwSlot (s : State) (k : Nat) : Option Firmware := Tab.get none s.dev.fw k
def State.fwBoots (s : State) (k : Nat) : Bool :=
  match s.fwSlot k with | some f => f.good && decide (s.minSvn ≤ f.svn) | none => false
/-- NEXT (register 0x91). -/
def State.fwNext (s : State) : Nat := (s.nvs 0x91).toNat % 2
/-- The SVN of the running firmware. -/
def State.fwSvn (s : State) : Nat := match s.fwSlot s.dev.active with | some f => f.svn | none => 0
/-- The firmware that B0 boots: NEXT, or the other slot with FALLBACK; slot 2 stands for none (R368). -/
def State.boot (s : State) : State :=
  let n := s.fwNext
  if s.fwBoots n then s.updDev fun d => { d with active := n, fallback := false }
  else if s.fwBoots (1 - n) then s.updDev fun d => { d with active := 1 - n, fallback := true }
  else s.updDev fun d => { d with active := 2 }

/-- The wipe of a new state (R361): flash and the model store erased, the settings store reset; END_OF_LIFE programs the
seed and certificate rows to all ones; PRODUCTION clears the debug enables. -/
def State.wipe (s : State) (dst : Nat) : State :=
  let s := if dst = 3 then (0 :: (List.range 931).map (· + 0x20)).foldl (fun s r => s.programRow r (BitVec.allOnes 256)) s else s
  let s := (s.updDev fun d => { d with store := [], installing := none, retained := [] }).nvsReset
  let s := { s with frames := s.frames.filter (fun (p : Nat × Frame) => !(decide (frameKey 2 0 ≤ p.1) && decide (p.1 < frameKey 3 0))) }
  if dst = 2 then s.updDev fun d => { d with tapUnlock := false, tapDebug := false } else s

/-- The device state changes, at a time from power-good (BUP_STATUS). -/
def State.setDstate (s : State) (st ms : Nat) : State :=
  if s.dev.dstate = st then s else s.updDev fun d => { d with dstate := st, msChange := min ms (2 ^ 24 - 1) }

/-- LC_WIPE_DONE (R360 to R362): the wipe ends, the commit row is written, the management session key is destroyed, and
the operation completes; bring-up goes on after a resolution, whose wipe runs from the end of B2 on. -/
def execLcWipeDone (s : State) : Host.Outcome State Fault Refusal :=
  match s.dev.trans with
  | none => .next s
  | some t =>
    if !s.dev.on || (t.op.isNone && !s.dev.waitWipe) then .next s
    else
      let s := (s.wipe t.dst).programRow (commitRow t.k) (transWord 0x43 t.src t.dst t.k)
      let key := t.dst == 1 || t.dst == 2
      let s := s.updDev fun d =>
        { d with trans := none, mgtKey := none, phase := if d.waitWipe then 3 else d.phase, waitWipe := false, keyReady := key,
                 mek := if key then (match d.mek with | some m => some m | none => some (d.kids + 1)) else none, kids := d.kids + 1 }
      .next (match t.op with
        | some o => if t.src = 0 then s.endOp (publicOf 2) o stOk else s.endOp mgmt o stOk
        | none => s)

/-- Whether the test access port is open (R365). -/
def State.tapOpen (s : State) : Bool := s.lcs == 0 || s.lcs == 3 || (s.dev.tapUnlock && s.lcs == 1) || s.dev.tapDebug
/-- Whether the device is in BLANK or END_OF_LIFE, without a device key (R363). -/
def State.keyless (s : State) : Bool := s.lcs == 0 || s.lcs == 3
/-- Whether every box is FREE; otherwise the lowest-numbered one that is not. -/
def State.notFree (s : State) : Option Nat := boxNumbers.find? (fun b => (s.box b).st ≠ 0)
/-- The SHAKE256 digest of a token against a latch-bank row (R356, R365). -/
def State.tokenOk (s : State) (row : Nat) (token : List Byte) : Bool := keyOf (Config.shake 32 token) == s.row row

/-- LC_UNLOCK (R365): a token that does not match counts as failed, in any state; while fewer than three have failed, a
matching one opens the port in TEST, when every box is FREE. -/
def execLcUnlock (token : List Byte) (s : State) : Host.Outcome State Fault Refusal :=
  if !s.dev.on || 3 ≤ s.dev.badTokens then .next s
  else if !s.tokenOk 1 (sliceBytes token 0 32) then .next (s.updDev fun d => { d with badTokens := d.badTokens + 1 })
  else if s.lcs = 1 && s.notFree.isNone then .next (s.updDev fun d => { d with tapUnlock := true })
  else .next s

/-- PROBE_CHANGE (15:R392). -/
def execProbeChange (low : Bool) (s : State) : Host.Outcome State Fault Refusal :=
  .next (s.updDev fun d => { d with probe := low })

end Sys2Proof.Machine
end

