-- ==== Sys2Proof/Machine/Parts.lean ====
section
/-! DEFINITION. Parts that fail, seats that go out of service, and the fabric lanes (14:R375 to R378; 13:R351; 11:R264). -/
namespace Sys2Proof.Machine

/-- Whether any seat is in service, and whether the device is in FAULT, REHEARSAL or beyond (12:R316). -/
def State.anySeat (s : State) : Bool := (List.range 16).any (fun k => (s.seat k).inService)
def dsBringup : Nat := 0
def dsRehearsal : Nat := 1
def dsFull : Nat := 2
def dsDegraded : Nat := 3
def dsFault : Nat := 4

/-- The device enters FAULT, and every box is told (R370, R375, R378). No box can be LIVE there: every box is closed as by
BOX_CLOSE (01:R32, log 68). -/
def State.fault (s : State) : State :=
  if s.dev.dstate = dsFault then s
  else
    (((s.setDstate dsFault s.ms).updDev fun d => { d with phase := 15 }).tellEvent 0x0107 0xFF (fun _ => true)).forBoxes fun s b =>
      let x := s.box b
      if x.st = 1 || x.st = 2 || x.st = 3 then s.beginClose b none else s
/-- A capacity event makes a FULL device DEGRADED; without a seat after bring-up it is in FAULT (R370, R377). -/
def State.degrade (s : State) : State :=
  let s := if s.dev.dstate = dsFull then s.setDstate dsDegraded s.ms else s
  if s.dev.phase = 15 && !s.anySeat then s.fault else s

/-- Retired physical cores of a die (settings register 0x80 + d), and whether one is retired. -/
def State.retiredCores (s : State) (d : Nat) : Nat := (s.nvs (0x80 + d)).toNat
/-- A core is recorded as retired (R373, R375). -/
def State.retireCore (s : State) (d c : Nat) : State :=
  if (s.retiredCores d).testBit c then s
  else (s.nvsGroup [(0x80 + d, BitVec.ofNat 32 (setBitN (s.retiredCores d) c true))]).1
/-- A class of the spare inventory: one spare taken, or one part lost (R379). -/
def State.spUse (s : State) (cls : Nat) : State := s.updDev fun d => { d with spUsed := Tab.upd 0 d.spUsed cls (· + 1) }
def State.spLose (s : State) (cls : Nat) : State := s.updDev fun d => { d with spLost := Tab.upd 0 d.spLost cls (· + 1) }

/-- A seat that a box holds goes out of service (R377): tiles with their live frame there are LOST, an unresolved wing
there is lost, and its frames come back to no pool. -/
def State.loseTiles (s : State) (b k : Nat) : State :=
  let isHere (tier frame : Nat) : Bool := decide (tier < 2) && seatOf tier frame == some k
  let lost (x : Box) (t : Tile) : Tile :=
    if t.st = 0 then t
    else
      let resolved := x.wingDone t
      let t := if t.wing && isHere t.wtier t.wframe && !(resolved && x.closed) then { t with wlost := true } else t
      let liveHere := if resolved && x.closed then isHere t.wtier t.wframe else isHere t.tier t.frame
      if liveHere then { t with st := tsLost } else t
  s.updBox b fun x => { x with tiles := x.tiles.map (fun (p : Nat × Tile) => (p.1, lost x p.2)) }

/-- The frames of a seat that is out of service are in no pool (R377). -/
def State.loseFrames (s : State) (k : Nat) : State :=
  let here (key : Nat) : Bool := seatOf (key / 2 ^ 32) (key % 2 ^ 32) == some k
  { s with taken := s.taken.map (fun p => if here p.1 then (p.1, 17) else p), releasing := s.releasing.filter (fun q => !here q) }

/-- Moves that a seat leaving service ends (07:R182): its own queue's, and those of the box's other seats into it. Each tile's
move counts as dropped, with cause 4. -/
def State.dropSeatMoves (s : State) (b k : Nat) : State :=
  (List.range 16).foldl (fun s j =>
    let out (m : Move) : Bool := decide (j = k) || (m.box == b && decide (m.dtier < 2) && m.dseat == k)
    let gone := (s.seat j).moves.filter out
    let n := (gone.map Move.count).foldl (· + ·) 0
    let s := if n = 0 then s else s.updSeat j fun x =>
      { x with moves := x.moves.filter (fun m => !out m), migDrop := satAdd 28 x.migDrop n, migDropLast := 4 }
    match (s.seat j).moving with
    | some m =>
      if j = k || (m.move.box = b && m.dtier < 2 && seatOf m.dtier m.dframe == some k) then
        (((s.dropDest m).updTile m.move.box m.tile fun t => if t.st = tsMigrating then { t with st := tsResident } else t).updSeat j
          fun x => { x with moving := none }).dropMove j 4
      else s
    | none => s) s

/-- The open tags of a box with a target frame in a seat that leaves service fail (10:R247). -/
def State.failSeatTags (s : State) (b k : Nat) : State :=
  ((s.box b).tags.filter (fun (p : Nat × Tag) => p.2.st == 1 && (s.box b).tiles.any (fun (q : Nat × Tile) =>
      p.2.covers q.1 && (match s.readPlace b q.1 with | .at tier frame => seatOf tier frame == some k | _ => false)))).foldl
    (fun s p => s.failTag b p.1) s

/-- A seat goes out of service at run time (R375, R377): its cores stop, launches on them end with CAPACITY_CHANGED, its
tiles are lost, and the box's open epoch is discarded with CAUSE 0x06. -/
def State.seatOut (s : State) (k : Nat) : State :=
  if !(s.seat k).inService then s
  else
    let owner := (s.seat k).owner
    let s := s.tellEvent 0x0100 k (fun b => owner = some b)
    let s := match owner with | some b => s.failSeatTags b k | none => s
    let s := s.updSeat k fun x => { x with inService := false }
    let s := match owner with
      | none => s
      | some b =>
        let mine := (List.range 8).map (fun i => 8 * k + i)
        let s := (((s.dropSeatMoves b k).updSeat k fun x => { x with holds := [], staged := [], cache := [] })).movesDone b
        let s := (s.loseTiles b k).loseFrames k
        let s := if (s.box b).st ≠ 3 then s
          else
            let nums := ((s.box b).launches.filter (fun (l : Launch) => l.st != LaunchSt.ended
              && ((s.box b).launchCores l).any (fun c => mine.contains c))).map Launch.num
            let s := if s.isLead b then s.decideDiscard b 6 else s.send (.launchFailed b (s.box b).openE 6)
            let s := s.beginDiscard b 6 false
            nums.foldl (fun (s : State) (n : Nat) => mine.foldl (fun (s : State) (c : Nat) =>
              match (s.box b).launch n with
              | some l => if l.st == LaunchSt.running && ((s.box b).launchCores l).contains c then s.haltCore b n c else s
              | none => s) (s.endLaunch b n stCapacity)) s
        let s := s.updSeat k fun x => { x with owner := none, capW := 0 }
        s.updBox b fun x => { x with seats := x.seats &&& ~~~(BitVec.ofNat 16 (2 ^ k)) }
    s.degrade

/-- Retired wires of a spoke's direction (settings register 0x89 + d), and how many are beyond its 16 spares. -/
def State.wiresGone (s : State) (d : Nat) (rx : Bool) : Nat :=
  let w := (s.nvs (0x89 + d)).toNat
  if rx then w / 256 % 256 else w % 256
def State.wiresOver (s : State) (d : Nat) : Nat := (s.wiresGone d false - 16) + (s.wiresGone d true - 16)
def State.retireWires (s : State) (d : Nat) (rx : Bool) (n : Nat) : State :=
  if n = 0 then s
  else
    let w := (s.nvs (0x89 + d)).toNat
    let c := min 255 (s.wiresGone d rx + n)
    (s.nvsGroup [(0x89 + d, BitVec.ofNat 32 (if rx then w % 256 + c * 256 else w / 256 * 256 + c))]).1

/-- A wire of a spoke fails at run time (R375). -/
def State.wireFail (s : State) (d : Nat) (rx : Bool) : State :=
  let s := s.retireWires d rx 1
  let told (b : Nat) : Bool := (s.seat (2 * d)).owner = some b || (s.seat (2 * d + 1)).owner = some b
  if s.wiresOver d = 0 then s.tellEvent 0x0001 (2 * d) told
  else if s.wiresOver d = 1 then
    ((s.updDev fun x => { x with halfSpokes := if x.halfSpokes.contains d then x.halfSpokes else d :: x.halfSpokes }).tellEvent 0x0104 (2 * d) told).degrade
  else (s.seatOut (2 * d)).seatOut (2 * d + 1)

/-- A spare of a class stands in for a failed part, up to `n` per place; the next failure there loses it (R375). -/
def State.spare (s : State) (cls n : Nat) (failed : Nat) (seat : Option Nat) : State :=
  if failed ≤ n then
    (s.spUse cls).tellEvent 0x0001 (seat.getD 0xFF) (fun b => match seat with | some k => (s.seat k).owner = some b | none => false)
  else
    let s := s.spLose cls
    match seat with
    | some k => s.seatOut k
    | none => s.fault

/-- The seat of a rail and of a sensing point: two rails and four points a seat, the others the house's (log 44). -/
def railSeat (r : Nat) : Option Nat := if r < 32 then some (r / 2) else none
def pointSeat (p : Nat) : Option Nat := if p < 64 then some (p / 4) else none

/-- A physical core of a die fails at run time: it is retired, and its seat is out of service until the next bring-up (R375). -/
def State.coreFail (s : State) (d c : Nat) : State :=
  if (s.retiredCores d).testBit c then s
  else
    let unused := Tab.get 0 s.dev.coreMap d
    let used := (List.range 17).filter (fun i => !unused.testBit i)
    let s := (s.retireCore d c).updDev fun x => { x with coreMap := Tab.set 0 x.coreMap d (setBitN unused c true) }
    let s := if 2 ≤ ((List.range 17).filter (fun i => (s.retiredCores d).testBit i)).length then s.spLose 1 else s
    if used.contains c then s.seatOut (2 * d + used.findIdx (· == c) / 8) else s

/-- The two rows or columns of an array that are out of use, lower first (HA_REMAP0, HA_REMAP1). -/
def remapPair (w : W32) (col : Bool) : Nat × Nat :=
  let v := if col then w.toNat % 65536 else w.toNat / 65536
  (v / 256, v % 256)
def withPair (w : W32) (col : Bool) (a b : Nat) : W32 :=
  let v := min a b * 256 + max a b
  BitVec.ofNat 32 (if col then w.toNat / 65536 * 65536 + v else v * 65536 + w.toNat % 65536)
/-- A row or column of an array in use fails (R375; 03:R62): it goes out of use in place of one that is good; with none left
the core counts as failed. The unused rows 0x80 and 0x81 that nothing has replaced are the good ones (log 45). -/
def State.lineFail (s : State) (k arr : Nat) (col : Bool) (line : Nat) : State :=
  let c := s.core k
  let w := if arr = 0 then c.remap0 else c.remap1
  let (a, b) := remapPair w col
  let gone (l : Nat) : Bool := decide (l < 0x80) || s.dev.linesGone.contains (k, arr, col, l)
  let put (a b : Nat) (s : State) : State :=
    let v := withPair w col a b
    (s.setCore k (if arr = 0 then { c with remap0 := v } else { c with remap1 := v })).spUse 2
  let noted := s.updDev fun d => { d with linesGone := (k, arr, col, line) :: d.linesGone }
  let told (q : Nat) : Bool := (s.seat (k / 8)).owner = some q
  if line = a || line = b then noted
  else if !gone b then (put a line noted).tellEvent 0x0001 (k / 8) told
  else if !gone a then (put b line noted).tellEvent 0x0001 (k / 8) told
  else
    let used := (List.range 17).filter (fun i => !(Tab.get 0 s.dev.coreMap (k / 16)).testBit i)
    match used[k % 16]? with
    | some phys => (noted.spLose 2).coreFail (k / 16) phys
    | none => noted.spLose 2

/-- PART_FAIL (R375, R377): a part that fails at run time is spared or retired at once; a failed core's seat is out of
service until the next bring-up. -/
def execPartFail (p : Part) (s : State) : Host.Outcome State Fault Refusal :=
  if !s.dev.on then .next s
  else match p with
  | .core die phys => .next (s.coreFail die.val phys.val)
  | .arrayLine core arr col line => .next (s.lineFail core.val arr.val col line.val)
  | .row r bits => .next (s.updDev fun d => { d with rowFaults := Tab.set 0 d.rowFaults r.val bits })
  | .spokeWire die rx => .next (s.wireFail die.val rx)
  | .flashBlock gone =>
    if gone && !s.dev.flashRo then
      .next (((s.spLose 5).updDev fun x => { x with flashRo := true }).tellEvent 0x0101 0xFF (fun _ => true)).degrade
    else if gone || s.dev.flashRo then .next (s.spLose 5)
    else .next ((s.spUse 5).tellEvent 0x0001 0xFF (fun _ => false))
  | .regulator rail =>
    let s := s.updDev fun x => { x with railsGone := rail.val :: x.railsGone }
    .next (s.spare 8 2 ((s.dev.railsGone.filter (· == rail.val)).length) (railSeat rail.val))
  | .line tier frame outcome =>
    let k := frameKey tier.val frame
    .next (s.setFrame k { s.frame k with upset := outcome })
  | .sensor pt =>
    let s := s.updDev fun x => { x with sensorsGone := pt.val :: x.sensorsGone }
    .next (s.spare 9 1 ((s.dev.sensorsGone.filter (· == pt.val)).length) (pointSeat pt.val))

/-- Events of spares that bring-up takes (R378). -/
def State.tellSpares (s : State) (n seat : Nat) (told : Nat → Bool) : State :=
  (List.range n).foldl (fun s _ => s.tellEvent 0x0001 seat told) s
/-- Cores and spoke wires of a die that spares stand in for (R375). -/
def State.dieSpares (s : State) (d : Nat) : Nat :=
  min 1 ((List.range 17).filter (fun c => (s.retiredCores d).testBit c)).length + min 16 (s.wiresGone d false) + min 16 (s.wiresGone d true)
/-- Fabric lanes and spoke wires among the spares: one per port and direction, 16 per direction (R375; log 45). -/
def State.laneSpares (s : State) : Nat × Nat :=
  let gone (i : Nat) : Nat := ((List.range 3).filter (fun l => (s.nvs 0x88).toNat.testBit (3 * i + l))).length
  (((List.range 8).map (fun i => min 1 (gone i))).foldl (· + ·) 0, ((List.range 8).map (fun i => gone i - 1)).foldl (· + ·) 0)
def State.wireSpares (s : State) : Nat × Nat :=
  let gone (i : Nat) : Nat := s.wiresGone (i / 2) (i % 2 == 1)
  (((List.range 16).map (fun i => min 16 (gone i))).foldl (· + ·) 0, ((List.range 16).map (fun i => gone i - 16)).foldl (· + ·) 0)

/-- Physical lanes of a fabric port that are not retired in either direction (settings register 0x88; log 45). -/
def State.goodLanes (s : State) (p : Nat) : List Nat :=
  let w := (s.nvs 0x88).toNat
  (List.range 3).filter (fun l => !w.testBit (6 * p + l) && !w.testBit (6 * p + 3 + l))
def State.retireLane (s : State) (bit : Nat) : State :=
  if (s.nvs 0x88).toNat.testBit bit then s
  else (s.nvsGroup [(0x88, BitVec.ofNat 32 (setBitN (s.nvs 0x88).toNat bit true))]).1

/-- Whether R264 holds for two devices' feed codes (11:R264; 15:R381). -/
def feedsOk (a b pa pb : Nat) : Bool :=
  let ident (c : Nat) : Bool := c != 0 && c != 15
  ident a && ident b && ident pa && ident pb && a != pa && a != pb && b != pa && b != pb
/-- The partner layer of a box is suspended (11:R264; 13:R351). -/
def State.suspendPartner (s : State) (b : Nat) : State :=
  let x := s.box b
  if x.partner = 1 || x.partner = 2 then
    let s := s.updBox b fun x => { x with partner := 3, baseOp := none, mirrorLeft := 0 }
    match x.baseOp with
    | some o => s.endOp b o stHwFault
    | none => s
  else s
/-- The partner of the device in a box's curtain configuration. -/
def State.partnerOf (s : State) (b : Nat) : Option Nat :=
  match (s.box b).curtain with
  | some c => if c.p = 0 then none else c.map[s.boxIndex b]?
  | none => none
/-- Whether a device is the peer of one of this device's own ports that is up (11:R263; 13:R351). -/
def State.reaches (s : State) (dev : Nat) : Bool :=
  (List.range 4).any (fun p => let f := s.fab p; decide (2 ≤ f.st) && f.peer == dev)
/-- Boxes whose partner can no longer be reached have their partner layer suspended. -/
def State.suspendCut (s : State) : State :=
  s.forBoxes fun s b => match s.partnerOf b with
    | some d => if s.reaches d then s else s.suspendPartner b
    | none => s

end Sys2Proof.Machine
end

