-- ==== Sys2Proof/Machine/Power.lean ====
section
/-! DEFINITION. Power, bring-up and thermal action (14:R362, R369 to R371, R376; 15:R381 to R387; 01:R24). -/
namespace Sys2Proof.Machine

/-- Volatile state is lost, and every box with it (12:R288; 14; 15:R384). What lies in the latch bank, the settings
store, the firmware slots, the model store and complete local records stays, and so do failed parts. -/
def State.powerOff (s : State) : State :=
  let d := s.dev
  { s with
    cores := s.cores.map (fun (p : Nat × Core) => (p.1, { ({} : Core) with fresh := p.2.fresh })),
    seats := [], boxes := [], frames := [], taken := [], releasing := [], ring := [], reqs := [], flights := [], sess := [],
    dev := { refs := d.refs, rows := d.rows, rowChecks := d.rowChecks, spareRows := d.spareRows, rowFaults := d.rowFaults, probe := d.probe, nvs := d.nvs, nvsWrites := d.nvsWrites,
             nvsMoved := d.nvsMoved, nvsFrozen := d.nvsFrozen, nvsCells := d.nvsCells, caks := d.caks, fw := d.fw, active := d.active,
             kids := d.kids, feedA := d.feedA, feedB := d.feedB, spUsed := d.spUsed, spLost := d.spLost, railsGone := d.railsGone,
             sensorsGone := d.sensorsGone, store := d.store,
             eth := d.eth.map (fun (p : Nat × EthPort) => (p.1, { ({} : EthPort) with plugged := p.2.plugged, lowPower := p.2.lowPower })),
             retained := (d.retained.filter (fun r => r.complete)).map (fun r => { r with box := none }) } }

/-- POWER_GOOD (R362, R368, R369): bring-up starts at B0; a transition without its commit row is to be resolved. -/
def execPowerGood (s : State) : Host.Outcome State Fault Refusal :=
  if s.dev.on then .next s
  else
    let s := s.updDev fun d => { d with rowSeen := d.rowFaults }
    let last := (List.range 3).reverse.find? (fun k => s.row (intentRow k) ≠ 0)
    let pend : Option Transition := match last with
      | some k =>
        let w := (s.row (intentRow k)).toNat
        if s.row (commitRow k) = 0 then some ⟨k, w / 256 % 256, w / 65536 % 256, none⟩ else none
      | none => none
    let s := { s with ms := 0 }
    .next ((s.updDev fun d => { d with on := true, trans := pend, resolved := pend.isSome }).boot)

/-- The cores and seats of a die after their tests (R376): failed cores are retired, the lowest good ones mapped. -/
def State.mapDie (s : State) (r : PhaseReport) (d : Nat) (seats : List Nat) : State :=
  let good := (r.goodCores.getD d 0).toNat
  let s := (List.range 17).foldl (fun s c => if good.testBit c then s else s.retireCore d c) s
  let ok := (List.range 17).filter (fun c => good.testBit c && !(s.retiredCores d).testBit c)
  let keep := if 16 ≤ ok.length then 16 else if 8 ≤ ok.length then 8 else 0
  let used := ok.take keep
  let mask := (List.range 17).foldl (fun m c => if used.contains c then m else m + 2 ^ c) 0
  let s := s.updDev fun x => { x with coreMap := Tab.set 0 x.coreMap d mask }
  seats.foldl (fun s k =>
    let up := decide (8 * (k % 2 + 1) ≤ keep) && r.goodSeats.getLsbD k && decide (s.wiresOver d < 2)
    if up then s.updSeat k fun x => { x with inService := true } else s.seatOut k) s

/-- The two lanes that serve a port: those of the present map that are still good keep their logical lane, and a good lane
outside it, the spare, takes the other's (13:R351). A port without a map of two takes its lowest two. -/
def lanePair (g : List Nat) (l0 l1 : Nat) : Nat × Nat :=
  let free := g.filter (fun l => l != l0 && l != l1)
  if l0 = l1 then (g.headD 0, (g.drop 1).headD 0)
  else (if g.contains l0 then l0 else free.headD 3, if g.contains l1 then l1 else if g.contains l0 then free.headD 3 else (free.drop 1).headD 3)
/-- The lanes of a fabric port once their condition is known: map, spare, and state by the lanes that are left (13:R351). -/
def State.laneMap (s : State) (p : Nat) (peer : Bool) : State :=
  let g := s.goodLanes p
  s.updFab p fun f =>
    match g with
    | _ :: _ :: _ =>
      let q := lanePair g f.lane0 f.lane1
      { f with lane0 := q.1, lane1 := q.2, spare := (g.filter (fun l => l != q.1 && l != q.2)).headD 3, st := if peer then 2 else 1 }
    | [a] => { f with lane0 := a, lane1 := a, spare := 3, st := if peer then 3 else 1 }
    | [] => { f with st := 0, spare := 3 }

/-- Spares taken and parts lost among cores and array rows and columns, as B4 finds them (R375, R379; log 45). -/
def State.countSpares (s : State) : State :=
  let gone (d : Nat) : Nat := ((List.range 17).filter (fun c => (s.retiredCores d).testBit c)).length
  let remapped (w : W32) : Nat := ((List.range 4).filter (fun i => w.toNat / 2 ^ (8 * i) % 256 < 0x80)).length
  let used := ((List.range 8).map (fun d => min 1 (gone d))).foldl (· + ·) 0
  let lost := ((List.range 8).map (fun d => gone d - 1)).foldl (· + ·) 0
  let rc := ((List.range 128).map (fun k => remapped (s.core k).remap0 + remapped (s.core k).remap1)).foldl (· + ·) 0
  s.updDev fun d => { d with spUsed := Tab.set 0 (Tab.set 0 d.spUsed 1 used) 2 rc, spLost := Tab.set 0 d.spLost 1 lost }

/-- The end of B5 (R369, R370): ports, flash, and the device's state. -/
def State.endB5 (s : State) (r : PhaseReport) : State :=
  let lanes := s.laneSpares.1
  let s := (List.range 24).foldl (fun s i => if r.goodLanes.getLsbD i then s else s.retireLane i) s
  let s := s.tellSpares (s.laneSpares.1 - lanes) 0xFF (fun _ => true)
  let s := (List.range 4).foldl (fun s p => s.laneMap p (decide (2 ≤ (s.fab p).st))) s
  let s := (List.range 4).foldl (fun s p => if (s.fab p).st = 1 then s.updFab p fun f => { f with peer := 0xFF } else s) s
  let s := (List.range 3).foldl (fun s p => if r.hostPortsUp.getLsbD p then s.updEth p fun e => { e with up := e.plugged && !e.lowPower } else s) s
  let s := s.updDev fun d => { d with flashRo := d.flashRo || r.flashReadOnly, phase := 15 }
  let out := (List.range 16).filter (fun k => !(s.seat k).inService)
  let s := out.foldl (fun s k => s.tellEvent 0x0100 k (fun _ => false)) s
  let s := s.dev.halfSpokes.foldl (fun s d => s.tellEvent 0x0104 (2 * d) (fun _ => false)) s
  let s := if s.dev.flashRo then s.tellEvent 0x0101 0xFF (fun _ => true) else s
  let s := if s.spareRowsFree < 4 then s.tellEvent 0x0106 0xFF (fun _ => false) else s
  let thin := (List.range 4).filter (fun p => (s.goodLanes p).length < 2)
  let s := thin.foldl (fun s p => s.tellEvent (if (s.goodLanes p).isEmpty then 0x0103 else 0x0102) 0xFF (fun _ => true)) s
  if out.length = 16 then s.fault
  else s.setDstate (if out.isEmpty && s.dev.halfSpokes.isEmpty && thin.isEmpty && !s.dev.flashRo then dsFull else dsDegraded) r.ms

/-- BRINGUP_PHASE_END (R369, R370, R376): the phase in progress ends with what its tests found. -/
def execBringupPhaseEnd (r : PhaseReport) (s : State) : Host.Outcome State Fault Refusal :=
  if !s.dev.on || s.dev.dstate = dsFault then .next s
  else
    let s := { s with ms := r.ms }
    let next (n : Nat) (s : State) : State := s.updDev fun d => { d with phase := n }
    match s.dev.phase with
    | 0 => .next (if !r.houseOk then s.fault else if s.dev.active = 2 then s else next 1 s)
    | 1 =>
      if !r.houseOk then .next s.fault
      else
        let s := (s.updDev fun d => { d with nvsLoaded := true, eth := [0, 1, 2].foldl (fun t p => Tab.upd {} t p fun e => { e with cak := Tab.has d.caks p }) d.eth })
        .next (next 2 (s.nvsGroup [(1, s.nvs 1 + 1)]).1)
    | 2 =>
      if s.dev.waitWipe then .next s
      else if !r.houseOk then .next s.fault
      else
        let key := s.lcs = 1 || s.lcs = 2
        let s := s.updDev fun d => { d with keyReady := key, mek := if key then some (d.kids + 1) else none, kids := d.kids + 1 }
        .next (if s.dev.trans.isSome then s.updDev fun d => { d with waitWipe := true } else next 3 s)
    | 3 =>
      let s := s.mapDie r 0 [0]
      .next (next 4 (if (s.seat 0).inService then s.setDstate dsRehearsal r.ms else s))
    | 4 =>
      let had := s
      let s := ((List.range 8).zip r.badWires).foldl (fun s (p : Nat × Nat × Nat) => (s.retireWires p.1 false p.2.1).retireWires p.1 true p.2.2) s
      let s := s.updDev fun d => { d with halfSpokes := (List.range 8).filter (fun k => s.wiresOver k == 1) }
      let s := r.remaps.foldl (fun s (p : Nat × W32 × W32) => if p.1 < 128 then s.setCore p.1 { s.core p.1 with remap0 := p.2.1, remap1 := p.2.2 } else s) s
      let s := (List.range 8).foldl (fun s d => s.mapDie r d [2 * d, 2 * d + 1]) s
      let s := s.countSpares
      let s := (List.range 8).foldl (fun s d => s.tellSpares (s.dieSpares d - had.dieSpares d) (2 * d) (fun b => (s.seat (2 * d)).owner = some b)) s
      .next (next 5 (s.tellSpares (Tab.get 0 s.dev.spUsed 2 - Tab.get 0 had.dev.spUsed 2) 0xFF (fun _ => false)))
    | 5 => .next (s.endB5 r)
    | _ => .next s

/-- REFERENCE_FAIL (01:R24): a reference fails; the PLLs go on from the other. What happens when both have failed the spec
does not say: the device goes on unchanged (DESIGN CHOICE, log 66). -/
def execReferenceFail (ref : Fin 2) (s : State) : Host.Outcome State Fault Refusal :=
  .next (s.updDev fun d => { d with refs := listUpd d.refs ref.val (fun _ => false) })

def State.feed (s : State) (b : Bool) : Feed := if b then s.dev.feedB else s.dev.feedA
def State.updFeed (s : State) (b : Bool) (f : Feed → Feed) : State :=
  s.updDev fun d => if b then { d with feedB := f d.feedB } else { d with feedA := f d.feedA }
/-- The input voltage, in 0.1 V: the higher of the connected feeds'; none, which counts as below 38.0 V, without one (R382). -/
def State.vin (s : State) : Option Nat :=
  match s.dev.feedA.present, s.dev.feedB.present with
  | true, true => some (max s.dev.feedA.volt s.dev.feedB.volt)
  | true, false => some s.dev.feedA.volt
  | false, true => some s.dev.feedB.volt
  | false, false => none
/-- Whether some feed is connected (R382). -/
def State.fed (s : State) : Bool := s.vin.isSome

/-- A sag begins: it is counted, with its start (R384, PWR_SAG_COUNT, PWR_SAG_LAST). -/
def State.sagBegins (s : State) (ms : Nat) : State :=
  if s.dev.sag then s
  else (s.updDev fun d => { d with sag := true, sagCount := satAdd 32 d.sagCount 1, sagLast := some (min ms (2 ^ 32 - 1)) })
/-- A loss begins exactly when the last connected feed is disconnected; the sag rule applies throughout (R382, R384, R385). -/
def State.lossBegins (s : State) : State :=
  if s.dev.on && !s.dev.loss && !s.fed then (s.updDev fun d => { d with loss := true }).sagBegins s.ms else s

/-- The feed codes of a box's partner device (11:R264). -/
def State.partnerCodes (s : State) (b : Nat) : Nat × Nat := Tab.get (0, 0) s.dev.partnerFid b
/-- The codes of the boxes' partner devices on one feed, as the group tells them (11:R264). -/
def tellCodes (t : Tab (Nat × Nat)) (feedB : Bool) (told : List (Fin 16 × BitVec 4)) : Tab (Nat × Nat) :=
  told.foldl (fun t (q : Fin 16 × BitVec 4) =>
    Tab.upd (0, 0) t q.1.val (fun c => if feedB then (c.1, q.2.toNat) else (q.2.toNat, c.2))) t
/-- FID_CODE_CHANGE (R381; 11:R264): a feed's code takes effect, and each box's codes are checked with its partner's, which
the group tells: a box whose feeds no longer meet R264 has its partner layer suspended. -/
def execFidCodeChange (feedB : Bool) (code : BitVec 4) (partnersA partnersB : List (Fin 16 × BitVec 4)) (s : State) :
    Host.Outcome State Fault Refusal :=
  let s := (s.updFeed feedB fun f => { f with fid := code.toNat }).updDev fun d =>
    { d with partnerFid := tellCodes (tellCodes d.partnerFid false partnersA) true partnersB }
  .next (if !s.dev.on then s else s.forBoxes fun s b =>
    let q := s.partnerCodes b
    if (s.partnerOf b).isSome && !feedsOk s.dev.feedA.fid s.dev.feedB.fid q.1 q.2 then s.suspendPartner b else s)

/-- FEED_CONNECT (R382): from 40 V to 60 V a feed connects; a connected one goes on from 38.0 V, at the voltage told. -/
def execFeedConnect (feedB : Bool) (volt : BitVec 10) (s : State) : Host.Outcome State Fault Refusal :=
  let f := s.feed feedB
  .next (if !f.openSw && (if f.present then 380 else 400) ≤ volt.toNat && volt.toNat ≤ 600 then
    s.updFeed feedB fun f => { f with present := true, volt := volt.toNat } else s)

/-- FEED_DISCONNECT (R382): below 38.0 V. -/
def execFeedDisconnect (feedB : Bool) (volt : BitVec 10) (s : State) : Host.Outcome State Fault Refusal :=
  .next (if (s.feed feedB).present && volt.toNat < 380 then
    (s.updFeed feedB fun f => { f with present := false, volt := volt.toNat }).lossBegins else s)

/-- FEED_OVERVOLTAGE (R382): above 60 V for too long, or above 72 V. -/
def execFeedOvervoltage (feedB : Bool) (volt : BitVec 10) (s : State) : Host.Outcome State Fault Refusal :=
  .next (if (s.feed feedB).present && 600 < volt.toNat then
    (s.updFeed feedB fun f => { f with present := false, openSw := true, volt := volt.toNat }).lossBegins else s)

/-- FEED_RECONNECT (R382): 40 V to 60 V for 100 ms. -/
def execFeedReconnect (feedB : Bool) (volt : BitVec 10) (s : State) : Host.Outcome State Fault Refusal :=
  .next (if (s.feed feedB).openSw && 400 ≤ volt.toNat && volt.toNat ≤ 600 then
    s.updFeed feedB fun f => { f with present := true, openSw := false, volt := volt.toNat } else s)

/-- SAG_START (R384). -/
def execSagStart (ms : Nat) (s : State) : Host.Outcome State Fault Refusal :=
  .next (if s.dev.on then { s with ms := ms }.sagBegins ms else s)

/-- SAG_END (R384): not while a loss is in force. -/
def execSagEnd (s : State) : Host.Outcome State Fault Refusal :=
  .next (if s.dev.on && s.dev.sag && !s.dev.loss then s.updDev fun d => { d with sag := false } else s)

/-- LOSS_START (R384, R385): no feed is connected. -/
def execLossStart (s : State) : Host.Outcome State Fault Refusal := .next s.lossBegins

/-- LOSS_RECOVER (R384): a feed is connected again within 1 ms; the sag runs on. -/
def execLossRecover (s : State) : Host.Outcome State Fault Refusal :=
  .next (if s.dev.on && s.dev.loss && s.fed then s.updDev fun d => { d with loss := false } else s)

/-- LOSS_TIMEOUT (R384, R385): the orderly power-loss stop. -/
def execLossTimeout (s : State) : Host.Outcome State Fault Refusal :=
  .next (if s.dev.on && s.dev.loss then s.powerOff else s)

/-- THERMAL_EMERGENCY_START (R387; 12:R296): the event and the boxes' counts; one in force is not counted again. -/
def execThermalEmergencyStart (ms : Nat) (s : State) : Host.Outcome State Fault Refusal :=
  if !s.dev.on || s.dev.therm then .next s
  else
    let s := ({ s with ms := ms }.updDev fun d => { d with therm := true }).tellEvent 0x0200 0xFF (fun _ => true)
    .next (s.forBoxes fun s b => if (s.box b).st = 0 then s
      else s.updBox b fun x => { x with thermCount := satAdd 16 x.thermCount 1, thermLast := some (min (ms - x.openedAt) (2 ^ 32 - 2)) })

/-- THERMAL_EMERGENCY_END (R387). -/
def execThermalEmergencyEnd (s : State) : Host.Outcome State Fault Refusal :=
  .next (s.updDev fun d => { d with therm := false })

/-- THERMAL_TRIP (R387): every box is closed as by BOX_CLOSE, the compute rails go off, and the device is in FAULT. -/
def execThermalTrip (s : State) : Host.Outcome State Fault Refusal :=
  if !s.dev.on || s.dev.tripped then .next s
  else
    let s := ((s.updDev fun d => { d with tripped := true }).forBoxes fun s b =>
      let x := s.box b
      if x.st = 1 || x.st = 2 || x.st = 3 then s.beginClose b none else s)
    .next s.fault

end Sys2Proof.Machine
end

