-- ==== Sys2Proof/Machine/Links.lean ====
section
/-! DEFINITION. Host Ethernet, MACsec and the fabric links (12:R312, R314; 13:R342, R343, R349 to R351, R354; 15:R390). -/
namespace Sys2Proof.Machine

/-- A port's own addresses: the IPv6 address, and the IPv4 one where it has one, as ETH_CFG sets them in network byte order
(13:R342; 14:R373, log 48). -/
def State.ownAddress (s : State) (p : Nat) (addr : List Byte) : Bool :=
  addr == s.nvsBytes (2 + 12 * p) 4 || (addr == s.nvsBytes (7 + 12 * p) 1 && addr != leBytes 4 0)
/-- NEIGHBOUR_ECHO (13:R342): ARP, neighbour discovery and echo are answered for the port's own addresses, once frames
pass (R343); without a device key nothing is (14:R363). -/
def execNeighbourEcho (port : Fin 3) (addr : List Byte) (s : State) : Host.Outcome State Fault Refusal :=
  let e := s.eth port.val
  .next (if s.dev.on && !s.keyless && e.up && e.secured && s.ownAddress port.val addr then s.send (.echo port.val) else s)

/-- MACSEC_FRAME_RECEIVE (13:R343, R354): a frame is checked in its association, the present one or the one before it, whose
packet number must rise (replay window 0). A frame that fails is dropped and counted. M0 without a CAK takes frames as they
are. -/
def execMacsecFrameReceive (port : Fin 3) (n : FrameNo) (ok : Bool) (s : State) : Host.Outcome State Fault Refusal :=
  let p := port.val
  let e := s.eth p
  if !s.dev.on || !e.up || (p = 2 && !e.cak) then .next s
  else if e.secured && ok && n.an.val = e.an && e.pn < n.pn.toNat then .next (s.updEth p fun e => { e with pn := n.pn.toNat })
  else if e.secured && ok && n.an.val ≠ e.an && e.oldAn = some n.an.val && e.oldPn < n.pn.toNat then
    .next (s.updEth p fun e => { e with oldPn := n.pn.toNat })
  else .next (s.updEth p fun e => { e with drop := satAdd 24 e.drop 1 })

/-- MKA_SECURED (13:R343, R354): a SAK is installed as an association of a port with a CAK; the one before it is kept, with its
own packet number, until the peer retires it. -/
def execMkaSecured (port : Fin 3) (sak : Sak) (s : State) : Host.Outcome State Fault Refusal :=
  let e := s.eth port.val
  .next (if s.dev.on && e.up && e.cak then
    s.updEth port.val fun e => { e with secured := true, oldSak := e.sak, oldAn := if e.secured then some e.an else none, oldPn := e.pn,
                                        sak := sak.key, an := sak.an.val, pn := 0, sakAsked := false } else s)

/-- SAK_CHANGE (13:R343): packet number 0xC000_0000_0000_0000 is reached, and a new SAK is asked for. -/
def execSakChange (port : Fin 3) (s : State) : Host.Outcome State Fault Refusal :=
  let e := s.eth port.val
  .next (if s.dev.on && e.secured && !e.sakAsked then
    (s.updEth port.val fun e => { e with sakAsked := true }).send (.sakRequest port.val) else s)

/-- The runs of a port's transfers end with HW_FAULT; the transfers stay registered (13:R354). -/
def State.portLost (s : State) (p : Nat) : State :=
  let s := s.updEth p fun e => { e with up := false, secured := false, pn := 0, oldAn := none, oldPn := 0, sakAsked := false }
  s.forBoxes fun s b =>
    ((s.box b).runs.filter (fun (r : Run) => r.started)).foldl (fun s r =>
      match (s.box b).xfer r.xid, (s.box b).runOf r.xid with
      | some q, some r => if q.port = p then s.endRun b r stHwFault else s
      | _, _ => s) s

/-- HOST_LINK_LOSS (13:R354). -/
def execHostLinkLoss (port : Fin 2) (s : State) : Host.Outcome State Fault Refusal :=
  .next (if s.dev.on then s.portLost port.val else s)

/-- HOST_LINK_UP (13:R342, R343): the physical link comes up, unless a module stays in low-power mode; MKA begins. -/
def execHostLinkUp (port : Fin 3) (s : State) : Host.Outcome State Fault Refusal :=
  let e := s.eth port.val
  .next (if s.dev.on && e.plugged && !e.lowPower then s.updEth port.val fun e => { e with up := true } else s)

/-- OSFP_MODULE_CHANGE (15:R390): a module whose class needs more than 16 W stays in low-power mode and its port down, as on a
removal; another one's port is down until its link comes up (HOST_LINK_UP). -/
def execOsfpModuleChange (port : Fin 2) (present : Bool) (watts : Nat) (s : State) : Host.Outcome State Fault Refusal :=
  let p := port.val
  let low := decide (16 < watts)
  .next ((if s.dev.on && (!present || low) then s.portLost p else s).updEth p fun e =>
    { e with plugged := present, lowPower := present && low })

/-- Whether a peer may be trusted on a link (12:R312, R314): the same life-cycle state, its certificate in PRODUCTION, and
its signature. -/
def State.peerOk (s : State) (q : Peer) : Bool :=
  let l := s.lcs
  (l == 1 || l == 2) && q.lcs == l && (l == 1 || Config.verifyRoot true q.pk q.cert) && Config.verifyFast q.pk q.msg q.sig

/-- A key exchange of a link: this device's encapsulation key and ciphertext, with its certificate and signature, go to the peer,
and the exchange gives the key of each direction (12:R312). Frames are counted afresh. -/
def State.linkExchange (s : State) (p : Nat) : State :=
  let n := s.dev.kids + 1
  let ek := Config.kemPublic n
  let ct := Config.linkCipher n (s.fab p).peerPk
  let s := (s.updDev fun d => { d with kids := n }).send (.linkOffer p ek ct s.cert (Config.deviceSign s.seed (ek ++ ct)))
  s.updFab p fun f => { f with keyId := n, keyOut := Config.linkKey n true, keyIn := Config.linkKey n false, frames := 0 }
/-- Frames of a direction that one exchange may carry, and whether a port waits for the next exchange (12:R312). -/
def frameLimit : Nat := 2 ^ 32
def FabPort.spent (f : FabPort) : Bool := decide (frameLimit ≤ f.frames + 1)

/-- LINK_TRAIN (12:R312, R314; 13:R349): a port with lanes comes up with an attested peer under fresh link keys; with
another peer it stays in training. -/
def execLinkTrain (port : Fin 4) (q : Peer) (s : State) : Host.Outcome State Fault Refusal :=
  let p := port.val
  if !s.dev.on || s.dev.phase < 5 || (s.goodLanes p).isEmpty then .next s
  else if !s.peerOk q then
    .next (((s.laneMap p false).updFab p fun f => { f with peer := 0xFF, peerPk := [], keyId := 0, keyOut := 0, keyIn := 0 }).suspendCut)
  else
    .next ((((s.laneMap p true).updFab p fun f =>
      { f with peer := q.index.toNat, peerPk := q.pk, peerTest := q.lcs == 1, paused := false }).linkExchange p).suspendCut)

/-- LINK_REKEY (12:R312): a new exchange replaces the link keys. -/
def execLinkRekey (port : Fin 4) (s : State) : Host.Outcome State Fault Refusal :=
  .next (if !s.dev.on || (s.fab port.val).st < 2 then s else s.linkExchange port.val)

/-- FABRIC_FRAME_RECEIVE (12:R312; 13:R350): a frame that fails FEC or its tag is resent; it raises no alarm. A port whose keys
have carried all the frames that they may takes none until a new exchange (log 67). -/
def execFabricFrameReceive (port : Fin 4) (ok : Bool) (s : State) : Host.Outcome State Fault Refusal :=
  let p := port.val
  if !s.dev.on || s.keyless || (s.fab p).st < 2 || (s.fab p).spent then .next s
  else if ok then .next (s.updFab p fun f => { f with frames := f.frames + 1 })
  else .next ((s.updFab p fun f => { f with frames := f.frames + 1, resent := f.resent + 1 }).send (.resend p))

/-- FABRIC_CELL_TRANSIT (13:R349): a transit cell goes on in its seat's slots when the seat is held by a box bound to the
same group; otherwise it is discarded and counted. A route of more than 16 hops drops it. -/
def execFabricCellTransit (port : Fin 4) (seat : Fin 16) (leadPk : List Byte) (hops : Nat) (s : State) :
    Host.Outcome State Fault Refusal :=
  let p := port.val
  if !s.dev.on || s.keyless || (s.fab p).st < 2 || 16 < hops then .next s
  else
    let same := match (s.seat seat.val).owner with
      | some b => (match (s.box b).binding with | some g => g.leadPk == leadPk | none => false)
      | none => false
    .next (if same then s.send (.cell p seat.val) else s.updFab p fun f => { f with discard := satAdd 16 f.discard 1 })

/-- LANE_FAIL (13:R351): a degraded lane is retired; the spare trains in its place, or the port runs on one lane, or goes
down and cuts off the partners behind it. -/
def execLaneFail (l : LaneId) (s : State) : Host.Outcome State Fault Refusal :=
  let p := l.port.val
  let bit := 6 * p + (if l.rx then 3 else 0) + l.lane.val
  if !s.dev.on || (s.nvs 0x88).toNat.testBit bit then .next s
  else
    let was := s.goodLanes p
    let f := s.fab p
    let s := s.retireLane bit
    let g := s.goodLanes p
    if g.length = was.length || f.st = 0 then .next s
    else match g with
      | [] =>
        let s := (s.laneMap p false).updFab p fun f => { f with peer := 0xFF, peerPk := [], paused := false }
        .next ((s.tellEvent 0x0103 0xFF (fun _ => true)).degrade.suspendCut)
      | [_] => .next ((((s.laneMap p (decide (2 ≤ f.st))).updFab p fun f => { f with paused := false }).tellEvent 0x0102 0xFF (fun _ => true)).degrade)
      | _ =>
        if f.lane0 = l.lane.val || f.lane1 = l.lane.val then .next (s.updFab p fun f => { f with paused := true })
        else .next (s.laneMap p (decide (2 ≤ f.st)))

/-- LANE_SPARE_TRAINED (13:R351): the port resumes on its new map, and every box is told. -/
def execLaneSpareTrained (port : Fin 4) (s : State) : Host.Outcome State Fault Refusal :=
  let p := port.val
  let f := s.fab p
  .next (if s.dev.on && f.paused then
    ((s.laneMap p (decide (2 ≤ f.st))).updFab p fun f => { f with paused := false }).tellEvent 0x0001 0xFF (fun _ => true) else s)

end Sys2Proof.Machine
end

