-- ==== Sys2Proof/Machine/Packets.lean ====
section
/-! DEFINITION. Command packets: opcodes, authentication, the sequence window, replies and their refusals
(13:R323 to R330, R334; 12:R292, R294; 14:R363, R370). -/
namespace Sys2Proof.Machine

/-- The session that a command is taken from, the box its header names, the port, and the key of its replies. -/
structure Sender where
  k : Nat
  box : Nat
  port : Nat
  key : Option (BitVec 256)
  deriving DecidableEq, Repr

/-- What a command's own rules answer: a refusal without effect, a synchronous reply with the state after it, or an
operation, whose effect is given its OPID (R331). -/
inductive Ans where
  | no (status : Nat) (params : List Byte)
  | sync (s : State) (status : Nat) (params : List Byte)
  | go (f : State → Nat → State)

/-- BAD_PARAM with FIELD and DETAIL, and STATE_REJECT with SKIND and SCODE (R330). -/
def badParam (field : Nat) (detail : Nat := 0) : Ans := .no stBadParam (leBytes 2 field ++ leBytes 8 detail)
def noField : Nat := 0xFFFF
def reject (kind code : Nat) : Ans := .no stReject (leBytes 1 kind ++ leBytes 1 code)
def okSync (s : State) (params : List Byte := []) : Ans := .sync s stOk params

/-- TARGET values that an opcode allows (R334). -/
inductive Tgt where
  | all | any | one | loc
  deriving DecidableEq, Repr

/-- A row of the opcode list (R334): kind A, sources P, B and M, target. -/
structure OpRow where
  code : Nat
  isOp : Bool
  pub : Bool
  box : Bool
  mgt : Bool
  tgt : Tgt
  deriving DecidableEq, Repr

/-- R334, codes below 0x0300. -/
def opRows1 : List OpRow :=
  [⟨0x0000, true, true, true, true, .loc⟩, ⟨0x0001, false, false, true, true, .loc⟩, ⟨0x0002, false, false, true, false, .loc⟩,
   ⟨0x0003, true, true, false, false, .loc⟩, ⟨0x0010, false, true, true, true, .one⟩, ⟨0x0011, false, true, true, true, .one⟩,
   ⟨0x0012, false, false, true, true, .one⟩, ⟨0x0013, false, false, true, true, .one⟩, ⟨0x0014, false, false, true, true, .one⟩,
   ⟨0x0100, true, false, false, true, .loc⟩, ⟨0x0101, true, false, false, true, .loc⟩, ⟨0x0104, false, false, false, true, .loc⟩,
   ⟨0x0110, false, false, false, true, .loc⟩, ⟨0x0111, false, false, false, true, .loc⟩, ⟨0x0120, true, false, false, true, .loc⟩,
   ⟨0x0121, true, false, false, true, .loc⟩, ⟨0x0200, true, false, true, false, .any⟩, ⟨0x0201, true, false, true, false, .any⟩,
   ⟨0x0202, true, false, true, false, .any⟩, ⟨0x0203, true, false, true, false, .any⟩, ⟨0x0210, false, false, true, false, .one⟩,
   ⟨0x0211, false, false, true, false, .one⟩, ⟨0x0212, true, false, true, false, .one⟩, ⟨0x0220, true, false, true, false, .all⟩,
   ⟨0x0221, false, false, true, false, .one⟩, ⟨0x0222, true, false, true, false, .any⟩]
/-- R334, codes from 0x0300 on. CURTAIN_CFG's TARGET depends on RESTORE. -/
def opRows2 : List OpRow :=
  [⟨0x0300, true, false, true, false, .any⟩, ⟨0x0301, true, false, true, false, .any⟩, ⟨0x0400, true, false, true, false, .all⟩,
   ⟨0x0401, false, false, true, false, .one⟩, ⟨0x0403, false, false, true, false, .one⟩, ⟨0x0405, true, false, true, false, .any⟩,
   ⟨0x0407, true, false, true, false, .all⟩, ⟨0x0408, false, false, false, true, .loc⟩, ⟨0x0500, true, true, true, true, .one⟩,
   ⟨0x0501, true, true, false, false, .loc⟩, ⟨0x0502, true, false, true, false, .one⟩, ⟨0x0503, false, false, true, false, .one⟩,
   ⟨0x0504, true, false, true, false, .one⟩, ⟨0x0505, false, false, true, false, .one⟩, ⟨0x0506, true, false, true, false, .one⟩,
   ⟨0x0507, false, false, true, false, .one⟩, ⟨0x0600, false, false, false, true, .loc⟩, ⟨0x0601, true, false, false, true, .loc⟩,
   ⟨0x0610, true, false, false, true, .loc⟩, ⟨0x0620, false, false, false, true, .loc⟩, ⟨0x0700, false, false, true, true, .one⟩,
   ⟨0x0701, false, false, true, true, .one⟩, ⟨0x0702, true, false, false, true, .loc⟩]
def opRow (op : Nat) : Option OpRow := (opRows1 ++ opRows2).find? (fun r => r.code == op)

/-- The bytes of a packet before its tag, and the nonce of its tag (R324, R325). -/
def packetHead (box seq op flags len target frag : Nat) : List Byte :=
  leBytes 2 0x4E43 ++ leBytes 1 1 ++ leBytes 1 box ++ leBytes 4 seq ++ leBytes 2 op ++ leBytes 2 flags ++ leBytes 2 len
    ++ leBytes 1 target ++ leBytes 1 frag
def commandBytes (h : Hdr) (op : Nat) (p : List Byte) : List Byte :=
  packetHead h.box.toNat h.seq.toNat op h.flags.toNat p.length h.target.toNat h.frag.toNat ++ p
def packetNonce (dir box frag seq : Nat) : List Byte :=
  leBytes 1 dir ++ leBytes 1 box ++ leBytes 1 frag ++ leBytes 1 0 ++ leBytes 4 seq ++ leBytes 4 0

/-- The session key of a box, in its slot 64s0 (12:R298). -/
def State.boxKey (s : State) (b : Nat) : Option (BitVec 256) :=
  let k := s.slot (64 * (s.box b).keySeat0)
  if (s.box b).st = 3 && k.st ≠ 0 && k.kind = 3 && k.owner = b then some k.key else none

/-- Whether commands are answered: from the end of B1 on, and in FAULT (14:R369, R370). -/
def State.answers (s : State) : Bool := s.dev.on && s.dev.active != 2 && (decide (2 ≤ s.dev.phase) || s.dev.dstate == dsFault)
/-- Commands that may carry a tag of sixteen zero bytes, by header (R328; 14:R363); ATTEST on M0 only with SCOPE 0. In FAULT
without a management session, which cannot be made there, M0 serves its commands so (14:R370, log 68). -/
def State.publicOk (s : State) (h : Hdr) (op : Nat) (p : List Byte) : Bool :=
  let seated := decide (h.box.toNat < 16) && (s.box h.box.toNat).st == 2
  let devBox := h.box == 0xFF
  let m0 := h.port.val == 2
  if s.keyless then devBox && m0 && (op == 0x0000 || op == 0x0600 || (s.lcs == 0 && op == 0x0601) || (s.lcs == 3 && op == 0x0620))
  else (op == 0x0000 && devBox) || ((op == 0x0500 || op == 0x0501) && seated)
    || (op == 0x0500 && devBox && m0 && fieldAt p 0 1 == 0) || (op == 0x0003 && devBox && m0)
    || ((op == 0x0010 || op == 0x0011) && devBox && (s.publicHolder (fieldAt p 0 4)).isSome)
    || (s.dev.dstate == dsFault && s.dev.mgtKey.isNone && devBox && m0 && (op == 0x0600 || op == 0x0620 || op == 0x0702))
/-- The session that a public command belongs to: the one that holds the operation it names, or its port's (R328, R332). -/
def State.publicSender (s : State) (h : Hdr) (op : Nat) (p : List Byte) : Sender :=
  let own := publicOf h.port.val
  ⟨if (op = 0x0010 || op = 0x0011) && h.box = 0xFF then (s.publicHolder (fieldAt p 0 4)).getD own else own, h.box.toNat, h.port.val, none⟩

/-- How a packet is taken at its port: not at all (as one to another UDP port than ETH_CMD_PORT, R323), dropped with a count of ETH_AUTH_FAIL, or from a sender (R325, R328,
R343; 12:R292). A command for a SEATED box that R292 refuses is answered in clear (log 46). -/
inductive Admit where
  | silent
  | authFail
  | from (w : Sender)
  deriving DecidableEq, Repr
def State.screened (s : State) (h : Hdr) (op : Nat) (p : List Byte) : Admit :=
  let port := h.port.val
  let b := h.box.toNat
  let zero := h.tag == 0
  let pub := zero && s.publicOk h op p
  let e := s.eth port
  let open0 := port == 2 && !e.cak
  if h.dst.toNat ≠ (s.nvs 0).toNat then .silent
  else if !s.answers || !(e.secured || open0) || (open0 && !e.secured && !pub) then .silent
  else if s.keyless && !pub then (if port = 2 then .authFail else .silent)
  else if pub then .from (s.publicSender h op p)
  else if b = 0xFF then
    if port ≠ 2 then .authFail
    else match s.dev.mgtKey with
      | none => .authFail
      | some k => if Config.gcmTag k (packetNonce 0 b h.frag.toNat h.seq.toNat) (commandBytes h op p) = h.tag then .from ⟨mgmt, b, port, some k⟩ else .authFail
  else if b < 16 then
    if zero && (s.box b).st = 2 then .from ⟨publicOf port, b, port, none⟩
    else match s.boxKey b with
      | none => .authFail
      | some k => if Config.gcmTag k (packetNonce 0 b h.frag.toNat h.seq.toNat) (commandBytes h op p) = h.tag then .from ⟨b, b, port, some k⟩ else .authFail
  else .authFail

def State.dropEth (s : State) : State := s.updDev fun d => { d with ethDrop := satAdd 32 d.ethDrop 1 }
def State.dropAuth (s : State) : State := s.updDev fun d => { d with authFail := satAdd 32 d.authFail 1 }

/-- What the sequence window says of a SEQ (R326). -/
inductive SeqAns where
  | take
  | again (r : Reply)
  | drop
  deriving DecidableEq, Repr
def Session.seqOf (x : Session) (seq op : Nat) : SeqAns :=
  if seq = 0 then .drop
  else if x.seen.contains seq then (match x.replies.find? (fun r => r.seq == seq) with | some r => .again r | none => .drop)
  else if x.h < seq then .take
  else if x.h = 0xFFFFFFFF && op ≠ 1 then .drop
  else if x.h < seq + 1024 then .take
  else .drop
/-- A SEQ is accepted: the window keeps H − 1,023 to H. -/
def Session.accept (x : Session) (seq : Nat) : Session :=
  let h := max x.h seq
  { x with h := h, seen := (seq :: x.seen).filter (fun n => decide (h < n + 1024)) }

/-- The group index that a reply carries. -/
def State.devIndex (s : State) (k : Nat) : Nat := if k < 16 then s.boxIndex k else if s.groupSize = 0 then 0 else s.groupIndex

/-- The bytes of a reply packet (R329): the command's header with REPLY set and MORE clear, the prefix, and the parameters, sealed
under the session key, or in clear with a tag of sixteen zero bytes. -/
def Reply.packet (r : Reply) : List Byte :=
  let head := packetHead r.box r.seq r.opcode 1 (8 + r.params.length) r.target r.frag
    ++ leBytes 1 r.status ++ leBytes 1 r.dev ++ leBytes 1 r.rflags ++ leBytes 1 0 ++ leBytes 4 r.opid
  head ++ match r.key with
    | some k => Config.gcmSeal k (packetNonce 1 r.box r.frag r.seq) head r.params
    | none => r.params ++ leBytes 16 0
/-- A reply goes to the source of a command, by the port it came by and from ETH_CMD_PORT (R323). -/
def Reply.toSource (r : Reply) (s : State) (h : Hdr) : Reply :=
  { r with port := h.port.val, addr := h.src, udp := h.srcPort.toNat, sport := (s.nvs 0).toNat }

/-- A reply is sent and, under a session key, stored among the session's last 64 (R326, R329). -/
def State.answer (s : State) (w : Sender) (h : Hdr) (op dev status opid : Nat) (params : List Byte) (store : Bool := true) : State :=
  let ev := w.key.isSome && !(s.session w.k).events.isEmpty
  let r : Reply := ⟨w.port, h.box.toNat, h.seq.toNat, op, h.target.toNat, h.frag.toNat, status, dev, bitN ev, opid, params, w.key,
    h.src, h.srcPort.toNat, (s.nvs 0).toNat⟩
  let s := s.send (.reply r)
  if w.key.isSome && store then s.updSession w.k fun x => { x with replies := (x.replies ++ [r]).drop (x.replies.length + 1 - 64) } else s

/-- Commands that a frozen box's session may still give (12:R294), and those that a device in FAULT serves (14:R370);
the operation commands go with the operations served (log 46). -/
def frozenServes (op : Nat) : Bool := [0x0500, 0x0507, 0x0401, 0x0700, 0x0010, 0x0011, 0x0013, 0x0014].contains op
def faultServes (op : Nat) : Bool := [0x0000, 0x0600, 0x0620, 0x0702, 0x0010, 0x0011, 0x0013, 0x0014].contains op

/-- The status record of an operation (R333), and the group's status at the lead (R346): running while a part runs, then
that of the lowest-indexed device whose part did not end OK. -/
def opRecordBytes (r : OpRecord) : List Byte :=
  leBytes 2 r.opcode.toNat ++ leBytes 1 r.ostatus.toNat ++ leBytes 1 r.skind.toNat ++ leBytes 1 r.scode.toNat ++ leBytes 3 0
    ++ leBytes 8 r.progress.toNat ++ leBytes 8 r.result.toNat ++ leBytes 4 r.avail.toNat ++ leBytes 4 0
def Op.partsRunning (o : Op) : Bool := o.ostatus == 1 || o.parts.any (fun p => p.2.ostatus == 1) || !o.waitDevs.isEmpty
def Op.groupRecord (o : Op) (self : Nat) : OpRecord :=
  let all := sortBy (fun (p : Nat × OpRecord) => p.1) ((self, o.record) :: o.parts)
  if o.partsRunning then { o.record with ostatus := 1, skind := 0, scode := 0 }
  else match all.find? (fun p => p.2.ostatus != 0) with
    | some p => { o.record with ostatus := p.2.ostatus, skind := p.2.skind, scode := p.2.scode,
                                result := if p.2.ostatus.toNat = stBadParam then p.2.result else o.record.result }
    | none => o.record

end Sys2Proof.Machine
end

