-- ==== Sys2Proof/Machine/HostKeys.lean ====
section
/-! DEFINITION. Host commands for identity, sessions, attestation and keys (12:R298 to R301, R307, R313 to R322;
13:R326, R343, R352, R353). -/
namespace Sys2Proof.Machine

/-- The bytes of an ASCII label, and a SHAKE256 digest of 512 bits (log 47). -/
def ascii (t : String) : List Byte := t.toList.map (fun c => BitVec.ofNat 8 c.toNat)
def digest (bs : List Byte) : List Byte := Config.shake 64 bs
def sigLen : Nat := 49856
def pkLen : Nat := 64

/-- A command whose LENGTH is not the one its parameters take is refused (log 46). -/
def needLen (p : List Byte) (n : Nat) (a : Ans) : Ans := if p.length ≠ n then badParam noField else a

/-- DEVICE_PK, zero while there is no device key. -/
def State.devicePk (s : State) : List Byte := if s.dev.keyReady && !s.keyless then Config.devicePk s.seed else leBytes pkLen 0
def State.deviceSign (s : State) (m : List Byte) : List Byte := if s.dev.keyReady && !s.keyless then Config.deviceSign s.seed m else leBytes sigLen 0
def State.certSig (s : State) : List Byte := if s.keyless then leBytes certLen 0 else s.cert
def State.mekPk (s : State) : List Byte := match s.dev.mek with | some m => Config.kemPublic m | none => leBytes 1568 0

/-- INFO (13:R353): the identity record, with MEK on M0, where its nonce is kept for MGT_SESSION (R352). -/
def cmdInfo (w : Sender) (p : List Byte) : Ans :=
  needLen p 32 <| .go fun s o =>
    let mek := if w.port = 2 && !s.keyless then s.mekPk else leBytes 1568 0
    let head := leBytes 4 0x4E474700 ++ leBytes 4 0x00000100 ++ leBytes 1 s.lcs ++ leBytes 7 0 ++ p ++ s.devicePk ++ mek ++ s.certSig
    let s := if w.port = 2 then s.updDev fun d => { d with mekNonce := p } else s
    (s.opBytes w.k o (head ++ s.deviceSign head)).endOp w.k o stOk

/-- SESSION_ROLL (13:R326): the session key is replaced by its derivative; H is 0 and the reply store empty. -/
def cmdRoll (w : Sender) (p : List Byte) (s : State) : Ans :=
  needLen p 0 <|
    match w.key with
    | none => .no stNotAuth []
    | some k =>
      let n := keyOf (Config.shake 32 (ascii "NGM4700-ROLL" ++ keyBytes k))
      let s := if w.k < 16 then let t := 64 * (s.box w.k).keySeat0; s.setSlot t { s.slot t with key := n } else s.updDev fun d => { d with mgtKey := some n }
      okSync (s.updSession w.k fun x => { x with h := 0, seen := [], replies := [] })

/-- Whether a forwarded operation of a box runs on this device (13:R354). -/
def State.forwardedRuns (s : State) (b : Nat) : Bool :=
  s.dev.forwarded.any (fun f => f.box == b) || !(s.box b).reserved.isEmpty
    || (s.session b).ops.any (fun o => o.partsRunning && (!o.parts.isEmpty || !o.waitDevs.isEmpty || o.opid / 2 ^ 26 != s.opidHi))

/-- GROUP_BIND (13:R345, R354; 14:R371). -/
def cmdGroupBind (w : Sender) (p : List Byte) (s : State) : Ans :=
  needLen p 72 <|
    let f := fieldAt p
    if (s.box w.k).rehearsal then reject 2 s.dev.dstate
    else if s.forwardedRuns w.k then reject 5 1
    else if s.groupSize = 0 then badParam noField
    else if f 1 1 = 0 || 64 < f 1 1 then badParam 1
    else if f 1 1 ≤ f 0 1 then badParam 0
    else if f 2 2 ≠ (s.box w.k).seats.toNat then badParam 2
    else if 16 ≤ f 4 1 then badParam 4
    else if !zeroAt p 5 3 then badParam 5
    else okSync (s.updBox w.k fun x => { x with binding := some ⟨f 0 1, f 1 1, f 4 1, sliceBytes p 8 64⟩ })

/-- MGT_SESSION (13:R352): a management session under a fresh key; MEK is replaced whatever the outcome. -/
def cmdMgtSession (w : Sender) (p : List Byte) : Ans :=
  needLen p (0x680 + sigLen) <| .go fun s o =>
    let pk := sliceBytes p 0 64
    let mek := s.mekPk
    let n := s.dev.kids + 1
    let nonce := s.dev.mekNonce
    let pair := s.dev.mek
    let s := s.updDev fun d => { d with kids := n, mek := if d.mek.isSome then some n else none, mekNonce := [] }
    let cred := digest pk
    let held := s.nvsBytes 0x5F 16
    if !Config.verifyFast pk (digest mek ++ p.take 0x680) (p.drop 0x680) then s.endOp w.k o stIntegrity
    else if nonce.isEmpty || sliceBytes p 0x660 32 ≠ nonce then s.endOp w.k o stBadParam
    else if held ≠ leBytes 64 0 && held ≠ cred then s.endOp w.k o stNotAuth
    else
      let g := if held = cred then (s, true) else s.nvsGroup ((List.range 16).map (fun i => (0x5F + i, BitVec.ofNat 32 (fieldAt cred (4 * i) 4))))
      if !g.2 then g.1.endOp w.k o stCapacity
      else
        let ss := match pair with | some m => Config.kemOpen m (sliceBytes p 0x40 1568) | none => []
        let key := keyOf (Config.shake 32 (ascii "NGM4700-MGT" ++ ss ++ digest mek ++ pk))
        let s := (g.1.updDev fun d => { d with mgtKey := some key }).updSession mgmt fun x => { x with h := 0, seen := [], replies := [], asm := none }
        s.endOp w.k o stOk

/-- The digest inputs of a report that name no layout: spare remap and slot tables (12:R316, log 47). -/
def State.configDigest (s : State) : List Byte :=
  digest ((List.range 8).flatMap (fun d => leBytes 4 (Tab.get 0 s.dev.coreMap d)) ++ s.nvsBytes 0x80 17)

/-- An attestation report (12:R316), for a box or, with none, for the device. -/
def State.report (s : State) (b : Option Nat) (nonce : List Byte) : List Byte :=
  let x : Box := match b with | some n => s.box n | none => {}
  let f (n v : Nat) : List Byte := leBytes n v
  let fw := match s.fwSlot s.dev.active with | some q => q.digest | none => []
  let ek := match x.kem with | some m => Config.kemPublic m | none => leBytes 1568 0
  let digs := (x.digests.reverse.take 8).flatten
  let lds := (x.loads.reverse.take 64).flatMap (fun (q : Nat × List Byte) => f 8 q.1 ++ sliceBytes q.2 0 16)
  let flags := bitN (decide (1 < x.members)) + 2 * bitN x.frozen + 4 * bitN x.debugged
  let head := f 2 0x4152 ++ f 2 1 ++ f 4 0x14870 ++ f 1 s.lcs ++ f 1 s.dev.dstate ++ f 1 (b.getD 0xFF) ++ f 1 x.st ++ f 2 0x0100 ++ f 2 flags
    ++ sliceBytes nonce 0 32 ++ s.devicePk ++ sliceBytes fw 0 64 ++ f 4 s.fwSvn ++ f 1 (bitN x.expert) ++ f 1 x.channels ++ f 1 x.members ++ f 1 0
    ++ f 2 x.seats.toNat ++ f 2 0 ++ f 4 x.flashq ++ f 8 x.models.toNat ++ f 8 0 ++ s.configDigest
    ++ (List.range 16).flatMap (fun i => f 2 (x.caps.getD i 0)) ++ (List.range 8).flatMap (fun i => sliceBytes (x.pks.getD i []) 0 64)
    ++ ek ++ sliceBytes digs 0 512 ++ sliceBytes lds 0 1536 ++ s.certSig
  head ++ s.deviceSign head

/-- ATTEST (12:R315): the operation runs until its report is complete. -/
def cmdAttest (w : Sender) (p : List Byte) (s : State) : Ans :=
  needLen p 36 <|
    let scope := fieldAt p 0 1
    let b := fieldAt p 1 1
    if !zeroAt p 2 2 then badParam 2
    else if 1 < scope then badParam 0
    else if !s.dev.keyReady then reject 2 s.dev.dstate
    else if w.box < 16 && (scope ≠ 1 || b ≠ w.box) then .no stNotAuth []
    else if scope = 1 && 16 ≤ b then badParam 1
    else if scope = 1 && (s.box b).st = 0 then reject 3 0
    else .go fun s o => s.updOp w.k o fun q => { q with arg := p }

/-- ATTEST_COMPLETE (12:R315): the signed report stands in section 0. -/
def execAttestComplete (session : Fin 20) (opid : W32) (s : State) : Host.Outcome State Fault Refusal :=
  let k := session.val
  match (s.session k).op opid.toNat with
  | none => .next s
  | some o =>
    if o.opcode ≠ 0x0500 || o.ostatus ≠ 1 || o.arg.isEmpty || !s.dev.on then .next s
    else
      let r := s.report (if fieldAt o.arg 0 1 = 1 then some (fieldAt o.arg 1 1) else none) (sliceBytes o.arg 4 32)
      .next ((s.opBytes k o.opid r).endOp k o.opid stOk)

/-- Whether a keyring slot belongs to a box, and the EMPTY ones among them (12:R298). -/
def Box.hasSlot (x : Box) (k : Nat) : Bool := decide (k < 1024) && x.keySeats.getLsbD (k / 64)
def State.emptySlot (s : State) (b k : Nat) : Bool := (s.box b).hasSlot k && (s.slot k).st == 0
/-- A package entry (12:R318): slot, kind, key. -/
structure PkgEntry where
  slot : Nat
  kind : Nat
  zero : Bool
  key : BitVec 256
  deriving DecidableEq, Repr
def pkgEntry (m : List Byte) (i : Nat) : PkgEntry :=
  let o := 36 * i
  ⟨fieldAt m o 2, fieldAt m (o + 2) 1, zeroAt m (o + 3) 1, keyOf (sliceBytes m (o + 4) 32)⟩
/-- EK of a box, and a member's signature over its digest and some bytes. -/
def State.ek (s : State) (b : Nat) : List Byte := match (s.box b).kem with | some m => Config.kemPublic m | none => []
def State.memberSigned (s : State) (b m : Nat) (bs sig : List Byte) : Bool :=
  Config.verifyFast ((s.box b).pks.getD m []) (digest (s.ek b) ++ bs) sig

/-- The entries of a package, once its signature (of a company box or a release) and its tag verify (12:R317 to R319). -/
def State.openPackage (s : State) (b : Nat) (p : List Byte) (signed : Bool) : Option (List PkgEntry) :=
  let m := fieldAt p 0 1
  let n := fieldAt p 1 1
  let ek := s.ek b
  let ss := match (s.box b).kem with | some q => Config.kemOpen q (sliceBytes p 4 1568) | none => []
  let kek := keyOf (Config.shake 32 (ascii "NGM4700-KR" ++ ss ++ digest ek ++ (s.box b).pks.getD m []))
  let top := 0x624 + 36 * n + 16
  if signed && !s.memberSigned b m (p.take top) (p.drop top) then none
  else match Config.gcmOpen kek (leBytes 12 0) (p.take 0x624) (sliceBytes p 0x624 (36 * n + 16)) with
    | none => none
    | some bs => if bs.length = 36 * n then some ((List.range n).map (pkgEntry bs)) else none

/-- Whether every entry names an EMPTY slot of the box, no slot twice, with an allowed kind (12:R318). -/
def State.entriesOk (s : State) (b : Nat) (es : List PkgEntry) (kinds : List Nat) : Bool :=
  es.all (fun e => s.emptySlot b e.slot && kinds.contains e.kind && e.zero) && decide ((es.map PkgEntry.slot).eraseDups.length = es.length)
def State.installKeys (s : State) (b member : Nat) (es : List PkgEntry) : State :=
  es.foldl (fun s e => s.setSlot e.slot { st := 1, kind := e.kind, owner := b, member := member, key := e.key }) s

/-- The keys that the last release of a company box derives (12:R320); the shares are destroyed. -/
def State.deriveCompany (s : State) (b : Nat) : State :=
  let x := s.box b
  let z := 64 * x.keySeat0
  let share (i : Nat) : List Byte := keyBytes (s.slot (z + i)).key
  let ss := (List.range x.members).flatMap (fun m => share (1 + m))
  let ts := (List.range x.members).flatMap (fun m => share (9 + m))
  let sess := keyOf (Config.shake 32 (ascii "NGM4700-SESS" ++ leBytes 1 b ++ digest (s.ek b) ++ ss))
  let model := keyOf (Config.shake 32 (ascii "NGM4700-MODEL" ++ leBytes 1 x.members ++ ts))
  let s := (List.range x.members).foldl (fun s m => (s.setSlot (z + 1 + m) {}).setSlot (z + 9 + m) {}) s
  (s.setSlot z { st := 1, kind := 3, owner := b, member := 15, derived := true, key := sess }).setSlot (z + 17)
    { st := 1, kind := 2, owner := b, member := 15, derived := true, key := model }

/-- Whether a release holds the entries that R318 asks for. -/
def releaseOk (x : Box) (m : Nat) (es : List PkgEntry) : Bool :=
  let z := 64 * x.keySeat0
  if x.members = 1 then es.any (fun e => e.kind == 3 && e.slot == z)
  else es.any (fun e => e.kind == 4 && e.slot == z + 1 + m) && es.any (fun e => e.kind == 4 && e.slot == z + 9 + m)
    && !es.any (fun e => e.kind == 3) && !es.any (fun e => e.slot == z || e.slot == z + 17)

/-- KEY_RELEASE (12:R317, R318, R320): a member's keys; with the last member's the box is LIVE. -/
def cmdKeyRelease (w : Sender) (p : List Byte) (s : State) : Ans :=
  let b := w.box
  let x := s.box b
  let m := fieldAt p 0 1
  let n := fieldAt p 1 1
  if n = 0 || 64 < n then badParam 1
  else needLen p (0x624 + 36 * n + 16 + sigLen) <|
    if x.members ≤ m then badParam 0
    else if x.released.getLsbD m then reject 3 x.st
    else if !zeroAt p 2 2 then badParam 2
    else match s.openPackage b p true with
      | none => .no stIntegrity []
      | some es =>
        if !s.entriesOk b es [2, 3, 4] || !releaseOk x m es then badParam 0x624
        else .go fun s o =>
          let s := s.installKeys b (if x.members = 1 then 15 else m) es
          let rel := x.released ||| BitVec.ofNat 8 (2 ^ m)
          let s := s.updBox b fun x => { x with released := rel }
          let last := rel.toNat = 2 ^ x.members - 1
          let s := if last && 1 < x.members then s.deriveCompany b else s
          (if last then s.updBox b fun x => { x with st := 3 } else s).endOp w.k o stOk

/-- KEY_PUT (12:R319): further DATA or SHARE keys into EMPTY slots of a LIVE box. -/
def cmdKeyPut (w : Sender) (p : List Byte) (s : State) : Ans :=
  let b := w.k
  let x := s.box b
  let m := fieldAt p 0 1
  let n := fieldAt p 1 1
  let company := decide (1 < x.members)
  if n = 0 || 64 < n then badParam 1
  else needLen p (0x624 + 36 * n + 16 + if company then sigLen else 0) <|
    if x.members ≤ m then badParam 0
    else if !zeroAt p 2 2 then badParam 2
    else match s.openPackage b p company with
      | none => .no stIntegrity []
      | some es =>
        if !s.entriesOk b es [2, 4] then badParam 0x624
        else .go fun s o => (s.installKeys b (if company then m else 15) es).endOp w.k o stOk

/-- KEY_GEN (12:R301). -/
def cmdKeyGen (w : Sender) (p : List Byte) (s : State) : Ans :=
  needLen p 3 <|
    let k := fieldAt p 0 2
    let kind := fieldAt p 2 1
    if !(s.box w.k).hasSlot k then .no stNotAuth []
    else if kind ≠ 1 && kind ≠ 2 then badParam 2
    else if (s.slot k).st ≠ 0 then badParam 0
    else
      let d := s.draw
      let n := s.dev.kids + 1
      okSync ((d.2.updDev fun v => { v with kids := n }).setSlot k
        { st := 1, kind := kind, owner := w.k, member := 15, kid := if kind = 1 then n else 0, key := if kind = 2 then Config.randomKey d.1 else 0 })

/-- Whether a slot is in use, so that it cannot be destroyed (12:R301). -/
def State.slotBusy (s : State) (b k : Nat) : Bool :=
  let x := s.box b
  x.regions.any (fun (p : Nat × Option Region) => match p.2 with | some r => r.tumbler == k | none => false)
    || (match x.curtain with | some c => c.mtumbler == k || c.skey == k | none => false)
    || x.loading.any (fun l => l.keyslot == k) || (x.scene.active && decide (x.scene.srcKind ≠ 0) && x.scene.keyslot == k)
    || x.runs.any (fun r => match x.xfer r.xid with | some q => q.slot == k | none => false)
    || (s.slot k).st == 2

/-- KEY_DESTROY (12:R301, R319). In a company box a member's signature follows, and acts only on that member's slots
(log 47). -/
def cmdKeyDestroy (w : Sender) (p : List Byte) (s : State) : Ans :=
  let b := w.k
  let x := s.box b
  let k := fieldAt p 0 2
  let m := fieldAt p 2 1
  needLen p (if x.members ≤ 1 then 2 else 4 + sigLen) <|
    if !x.hasSlot k then .no stNotAuth []
    else if k = 64 * x.keySeat0 then badParam 0
    else if 1 < x.members && x.members ≤ m then badParam 2
    else if 1 < x.members && !s.memberSigned b m (p.take 4) (p.drop 4) then .no stIntegrity []
    else if 1 < x.members && (s.slot k).st ≠ 0 && (s.slot k).member ≠ m then .no stNotAuth []
    else if s.slotBusy b k then reject 6 (s.slot k).st
    else okSync (s.setSlot k {})

/-- REKEY (12:R307). -/
def cmdRekey (w : Sender) (p : List Byte) (s : State) : Ans :=
  needLen p 2 <|
    let k := fieldAt p 0 2
    if !s.ownedSlot w.k k 1 || (s.slot k).st ≠ 1 then reject 6 (if (s.box w.k).hasSlot k then (s.slot k).st else 0)
    else .go fun s o => s.startRekey w.k k o

/-- APPROVE (12:R321). -/
def cmdApprove (w : Sender) (p : List Byte) (s : State) : Ans :=
  needLen p (0x50 + sigLen) <|
    let b := w.k
    let x := s.box b
    let f := fieldAt p
    if x.members ≤ 1 then reject 3 x.st
    else if x.members ≤ f 0 1 then badParam 0
    else if f 1 1 ≠ 1 && f 1 1 ≠ 2 then badParam 1
    else if f 1 1 = 1 && f 2 2 ≠ 0 then badParam 2
    else if !zeroAt p 4 4 then badParam 4
    else if f 1 1 = 1 && f 8 8 ≠ 0 then badParam 8
    else if f 1 1 = 2 && !zeroAt p 0x10 64 then badParam 0x10
    else if !s.memberSigned b (f 0 1) (p.take 0x50) (p.drop 0x50) then .no stIntegrity []
    else .go fun s o =>
      (s.updBox b fun x => { x with approvals := x.approvals ++ [⟨f 0 1, f 1 1, f 2 2, f 8 8, sliceBytes p 0x10 64⟩] }).endOp w.k o stOk

/-- ALARM_READ (12:R306). -/
def cmdAlarmRead (w : Sender) (p : List Byte) (s : State) : Ans :=
  needLen p 0 <|
    let x := s.box w.k
    let f (n v : Nat) : List Byte := leBytes n v
    let r := match x.alarm with
      | some a => f 1 a.cause ++ f 1 x.alarms ++ f 1 a.seat ++ f 1 a.tier ++ f 4 a.time ++ f 8 a.tile ++ f 2 a.line ++ f 1 a.unit
      | none => f 1 0 ++ f 1 0 ++ f 1 0 ++ f 1 0xFF ++ f 4 0 ++ f 8 (2 ^ 64 - 1) ++ f 2 0 ++ f 1 0
    okSync s (r ++ f 13 0)

end Sys2Proof.Machine
end

