-- ==== Sys2Proof/Machine/HostDevice.lean ====
section
/-! DEFINITION. Host commands for operations, boxes, ports, the model store, the life cycle, firmware, spares and
diagnosis (09:R215; 12:R289 to R293; 13:R333, R335, R342, R343, R345; 14:R356 to R379). -/
namespace Sys2Proof.Machine

/-- The launch of a LAUNCH operation. -/
def State.opLaunch (s : State) (k : Nat) (o : Op) : Option Launch := o.launch.bind fun n => (s.box k).launch n
/-- An operation's status record, AVAIL of a LAUNCH being RLEN (13:R333, R337). -/
def State.opRecordOf (s : State) (k : Nat) (o : Op) : OpRecord :=
  let r := if k < 16 && s.isLead k then o.groupRecord (s.devIndex k) else o.record
  match s.opLaunch k o with
  | some l => { r with avail := BitVec.ofNat 32 l.rlen }
  | none => r

/-- OP_STATUS (13:R333, R346). `dev` is the device of the group whose part is asked for, none for the whole. -/
def cmdOpStatus (w : Sender) (dev : Option Nat) (p : List Byte) (s : State) : Ans :=
  needLen p 4 <|
    let s := s.sceneNow w.k (fieldAt p 0 4)
    match (s.session w.k).op (fieldAt p 0 4) with
    | none => badParam 0
    | some o =>
      match dev with
      | none => okSync s (opRecordBytes (s.opRecordOf w.k o))
      | some d =>
        if d = s.devIndex w.k then okSync s (opRecordBytes { s.opRecordOf w.k o with ostatus := BitVec.ofNat 8 o.ostatus, skind := BitVec.ofNat 8 o.skind, scode := BitVec.ofNat 8 o.scode })
        else match o.parts.find? (fun q => q.1 == d) with
        | some q => okSync s (opRecordBytes q.2)
        | none => badParam 0

/-- OP_READ (13:R333, R335, R337; 06:R149): bytes of a section as it now stands. -/
def cmdOpRead (w : Sender) (p : List Byte) (s : State) : Ans :=
  needLen p 0x12 <|
    let f := fieldAt p
    match (s.session w.k).op (f 0 4) with
    | none => badParam 0
    | some o =>
      if 1 < f 4 1 then badParam 4
      else if !zeroAt p 5 3 then badParam 5
      else if f 0x10 2 = 0 || 8000 < f 0x10 2 then badParam 0x10
      else
        let st := if o.partsRunning then stPartial else stOk
        let off := f 8 8
        let cut (n : Nat) : Nat := min (f 0x10 2) (n - off)
        match s.opLaunch w.k o with
        | some l =>
          let base := if f 4 1 = 0 then l.resAddr else l.log
          let n := cut (if f 4 1 = 0 then l.rlen else if l.under then 16 * l.logged else 0)
          match s.rangeRead w.k (base + off) n with
          | some bs => .sync s st bs
          | none => .no stHwFault []
        | none => .sync s st (if f 4 1 = 0 then sliceBytes o.sec0 off (cut o.sec0.length) else [])

/-- Operations that OP_ABORT applies to (13:R335). -/
def abortable (opcode : Nat) : Bool := [0x0301, 0x0300, 0x0220, 0x0212, 0x0203].contains opcode

/-- An operation is aborted: it ends with STATE_REJECT, SKIND 0x05, SCODE 0x03 (13:R333). -/
def State.abortOp (s : State) (k : Nat) (o : Op) : State :=
  let s := s.endOp k o.opid stReject 5 3
  match o.opcode with
  | 0x0301 => (match o.launch with | some n => s.endLaunch k n stReject 5 3 | none => s)
  | 0x0220 =>
    let s := s.endLoad k o.opid stReject
    let s := s.updBox k fun x => { x with runs := x.runs.filter (fun (r : Run) => r.who != .shardMap o.opid && r.who != .load o.opid) }
    s.startRuns k (s.box k).runs.length
  | 0x0212 =>
    let s := s.updBox k fun x => { x with runs := x.runs.filter (fun (r : Run) => r.who != .op o.opid) }
    s.startRuns k (s.box k).runs.length
  | 0x0203 => (List.range 16).foldl (fun s q => s.updSeat q fun x =>
      { x with moves := x.moves.filter (fun m => !(m.box == k && m.op == some o.opid)) }) s
  | _ => s

/-- The state of an operation as STATE_REJECT tells it (13:R330): a LAUNCH is queued until it starts, and preempted while a core of
it is; another operation runs until it ends. -/
def State.opState (s : State) (k : Nat) (o : Op) : Nat :=
  if !o.partsRunning then
    let r := o.groupRecord (s.devIndex k)
    if r.ostatus.toNat = stReject && r.skind = 5 && r.scode = 3 then 3 else 4
  else match s.opLaunch k o with
    | some l => if l.st = .queued then 0 else if l.saved.isEmpty then 1 else 2
    | none => 1

/-- A group operation's other parts are aborted from the lead (13:R333, R346): what is still reserved is cancelled, and the abort
is forwarded to the devices whose parts run. -/
def State.abortParts (s : State) (k : Nat) (o : Op) : State :=
  let ds := o.parts.filter (fun q => q.2.ostatus == 1)
  let s := if (s.box k).reserved.any (fun r => r.1 == o.opid) then
      ds.foldl (fun s q => s.send (.cancelTo q.1 k o.opid)) (s.updBox k fun x => { x with reserved := x.reserved.filter (fun r => r.1 ≠ o.opid) })
    else ds.foldl (fun s q => s.send (.forward q.1 k 0 0x0012 (leBytes 4 o.opid))) s
  s.updOp k o.opid fun o =>
    { o with waitDevs := [], parts := o.parts.map (fun q => if q.2.ostatus = 1 then (q.1, { q.2 with ostatus := 0x10, skind := 5, scode := 3 }) else q) }

/-- OP_ABORT (13:R333, R335, R346, R354). -/
def cmdOpAbort (w : Sender) (p : List Byte) (s : State) : Ans :=
  needLen p 4 <|
    match (s.session w.k).op (fieldAt p 0 4) with
    | none => badParam 0
    | some o =>
      if !o.partsRunning || !abortable o.opcode then reject 5 (s.opState w.k o)
      else
        let s := if o.ostatus = 1 then s.abortOp w.k o else s
        okSync (if o.parts.isEmpty then s else s.abortParts w.k o)

/-- An operation's slot is freed, and with it a launch that has ended (13:R332, R333). -/
def State.dropOp (s : State) (k : Nat) (o : Op) : State :=
  let s := s.updSession k fun x => { x with ops := x.ops.filter (fun q => q.opid ≠ o.opid) }
  match o.launch with
  | some n => if k < 16 then s.updBox k fun x => { x with launches := x.launches.filter (fun (l : Launch) => !(l.num == n && l.st == LaunchSt.ended)) } else s
  | none => s

/-- OP_RELEASE (13:R333, R354). -/
def cmdOpRelease (w : Sender) (p : List Byte) (s : State) : Ans :=
  needLen p 4 <|
    let n := fieldAt p 0 4
    if n / 2 ^ 26 ≠ s.opidHi then .no stNotAuth []
    else match (s.session w.k).op n with
      | none => badParam 0
      | some o => if o.partsRunning then reject 5 (s.opState w.k o) else okSync (s.dropOp w.k o)

/-- EVENT_READ (13:R333). -/
def cmdEventRead (w : Sender) (p : List Byte) (s : State) : Ans :=
  needLen p 4 <|
    if fieldAt p 0 4 ≠ 0 then badParam 0
    else
      let es := (s.session w.k).events
      let bytes := (es.take 16).flatMap (fun e => leBytes 2 e.code ++ leBytes 1 e.seat ++ leBytes 5 0 ++ leBytes 8 e.time)
      okSync (s.updSession w.k fun x => { x with events := es.drop 16 }) bytes

/-- The seats, caps and member keys of BOX_OPEN's parameters (12:R289). -/
def openCaps (p : List Byte) : List Nat := (List.range 16).map (fun i => fieldAt p (0x20 + 2 * i) 2)
def openPks (p : List Byte) : List (List Byte) := (List.range 8).map (fun i => sliceBytes p (0x40 + 64 * i) 64)

/-- BOX_OPEN's effect (12:R290, R291; 01:R28; 03:R63; 05:R126; 11:R265). -/
def State.openBox (s : State) (p : List Byte) (o : Nat) : State :=
  let f := fieldAt p
  let b := f 0 1
  let seats := BitVec.ofNat 16 (f 2 2)
  let caps := openCaps p
  let x : Box :=
    { st := 1, expert := f 1 1 == 1, seats := seats, keySeats := seats, flashq := f 4 4, models := BitVec.ofNat 64 (f 8 8), channels := f 0x10 1,
      members := f 0x11 1, caps := caps, pks := (openPks p).take (f 0x11 1), openedAt := s.ms, openOp := o, openE := 1,
      rehearsal := s.dev.dstate == dsRehearsal, chans := (List.range (f 0x10 1)).map (fun c => (c, { granted := true })) }
  let s := (s.setSession b {}).setBox b x
  let s := x.seatList.foldl (fun s k =>
    let y := s.seat k
    s.setSeat k { inService := y.inService, owner := some b, capW := caps.getD k 0, rehearsal := x.rehearsal }) s
  let s := x.coreList.foldl (fun s k => s.setCore k (s.core k).opened) s
  { s with ring := s.ring.filter (fun (q : Nat × KeySlot) => !seats.getLsbD (q.1 / 64)) }

/-- BOX_OPEN (12:R289, R290; 14:R365; 15:R386). -/
def cmdBoxOpen (p : List Byte) (s : State) : Ans :=
  needLen p 0x240 <|
    let f := fieldAt p
    let b := f 0 1
    let seats := BitVec.ofNat 16 (f 2 2)
    let caps := openCaps p
    let others := boxNumbers.filter (fun n => n ≠ b && (s.box n).st ≠ 0)
    let quota := (others.map (fun n => (s.box n).flashq)).foldl (· + ·) 0 + s.recordFrames none
    let chans := (others.map (fun n => (s.box n).channels)).foldl (· + ·) 0
    let ds := s.dev.dstate
    let badCap := (List.range 16).find? (fun i => let c := caps.getD i 0; if seats.getLsbD i then c < 70 || 160 < c else c ≠ 0)
    let badPk := (List.range 8).find? (fun i => let z := zeroAt p (0x40 + 64 * i) 64; if i < f 0x11 1 then z else !z)
    if 16 ≤ b then badParam 0
    else if s.lcs ≠ 1 && s.lcs ≠ 2 then reject 1 s.lcs
    else if s.tapOpen then reject 1 s.lcs
    else if !(ds = dsFull || ds = dsDegraded || (ds = dsRehearsal && seats = 1)) then reject 2 ds
    else if (s.box b).st ≠ 0 then reject 3 (s.box b).code
    else if 1 < f 1 1 then badParam 1
    else if seats = 0 || (List.range 16).any (fun k => seats.getLsbD k && ((s.seat k).owner.isSome || !(s.seat k).inService)) then badParam 2
    else if 2 ^ 29 ≤ f 4 4 || flashFrames < quota + f 4 4 then badParam 4
    else if 4 < f 0x10 1 + chans then badParam 0x10
    else if f 0x11 1 = 0 || 8 < f 0x11 1 then badParam 0x11
    else if !zeroAt p 0x12 14 then badParam 0x12
    else match badCap, badPk with
      | some i, _ => badParam (0x20 + 2 * i)
      | none, some i => badParam (0x40 + 64 * i)
      | none, none => .go fun s o => s.openBox p o

/-- BOX_CLOSE (12:R293), whose parameter is BOX (log 47). -/
def cmdBoxClose (p : List Byte) (s : State) : Ans :=
  needLen p 1 <|
    let b := fieldAt p 0 1
    if 16 ≤ b then badParam 0
    else if (s.box b).st = 0 || (s.box b).st = 4 then okSync s
    else .go fun s o => s.beginClose b (some o)

/-- A commit to the settings store: CAPACITY_CHANGED when a register of it is frozen (14:R372). -/
def commitNvs (s : State) (vs : List (Nat × W32)) (f : State → State) : Ans :=
  let g := s.nvsGroup vs
  if g.2 then okSync (f g.1) else .sync g.1 stCapacity []

/-- GROUP_CFG (13:R345). -/
def cmdGroupCfg (p : List Byte) (s : State) : Ans :=
  needLen p 68 <|
    let f := fieldAt p
    match boxNumbers.find? (fun b => (s.box b).st = 3) with
    | some b => reject 3 (s.box b).code
    | none =>
      let bad := (List.range 64).find? (fun d => let r := f (4 + d) 1
        if d < f 1 1 && d ≠ f 0 1 then 3 < r else r ≠ 0xFF)
      let size := decide (1 ≤ f 1 1 && f 1 1 ≤ 64)
      if 64 ≤ f 0 1 || (size && decide (f 1 1 ≤ f 0 1)) then badParam 0
      else if !size then badParam 1
      else if !zeroAt p 2 2 then badParam 2
      else match bad with
        | some d => badParam (4 + d)
        | none => commitNvs s ((0x6F, BitVec.ofNat 32 (f 0 1 + 256 * f 1 1)) :: (List.range 16).map (fun i => (0x70 + i, BitVec.ofNat 32 (f (4 + 4 * i) 4)))) id

/-- ETH_CFG (13:R342; 14:R373): PORT, 24 reserved bits, then the port's 12 registers (log 48). -/
def cmdEthCfg (p : List Byte) (s : State) : Ans :=
  needLen p 52 <|
    let port := fieldAt p 0 1
    if 2 < port then badParam 0
    else if !zeroAt p 1 3 then badParam 1
    else commitNvs s ((List.range 12).map (fun i => (2 + 12 * port + i, BitVec.ofNat 32 (fieldAt p (4 + 4 * i) 4)))) id

/-- LINK_CAK (13:R343; 14:R373). -/
def cmdLinkCak (p : List Byte) (s : State) : Ans :=
  needLen p 76 <|
    let f := fieldAt p
    let port := f 0 1
    if 2 < port then badParam 0
    else if f 1 1 = 0 || 32 < f 1 1 then badParam 1
    else if !zeroAt p 2 2 then badParam 2
    else
      let kek := keyOf (Config.shake 32 (ascii "NGM4700-CAK" ++ (match s.dev.mgtKey with | some k => keyBytes k | none => [])))
      match Config.keyUnwrap kek (sliceBytes p 0x24 40) with
      | none => .no stIntegrity []
      | some cak =>
        commitNvs s ((0x26 + 9 * port, BitVec.ofNat 32 (f 1 1)) :: (List.range 8).map (fun i => (0x27 + 9 * port + i, BitVec.ofNat 32 (f (4 + 4 * i) 4)))
          ++ (List.range 10).map (fun i => (0x41 + 10 * port + i, 0)))
          (fun s => (s.updDev fun d => { d with caks := Tab.insert port cak (Tab.erase d.caks port) }).updEth port fun e => { e with cak := true })

/-- Whether a seat is held by no box, for the model store's writes (09:R215). -/
def State.seatFree (s : State) : Bool := (List.range 16).any (fun k => (s.seat k).inService && (s.seat k).owner.isNone)

/-- The installed-model store's size, 1 TB (09:R215; 01:R22; decimal, as the flash pool of 07:R167 is), and the bytes of its
images. -/
def storeSize : Nat := 10 ^ 12
def State.storeBytes (s : State) : Nat :=
  (s.dev.store.map (fun (q : Nat × Option Model) => match q.2 with | some m => m.bytes.length | none => 0)).foldl (· + ·) 0

/-- MODEL_INSTALL (09:R215): the number, then the image (log 48), which must fit in the store; an install that finds every
seat held waits. -/
def cmdModelInstall (p : List Byte) (s : State) : Ans :=
  let m := fieldAt p 0 1
  let img := p.drop 8
  if p.length < 8 + 64 then badParam noField
  else if 63 < m then badParam 0
  else if !zeroAt p 1 7 then badParam 1
  else if s.dev.dstate ≠ dsFull && s.dev.dstate ≠ dsDegraded then reject 2 s.dev.dstate
  else if s.dev.flashRo then .no stHwFault []
  else if s.dev.installing.isSome then reject 5 1
  else if (Tab.get none s.dev.store m).isSome then badParam 0
  else if fieldAt img 0 2 ≠ 0x4957 || img.length ≠ 64 + 16464 * hdrTiles img || storeSize < s.storeBytes + img.length then badParam 8
  else .go fun s o => s.updDev fun d => { d with installing := some (o, m, ⟨img⟩, s.seatFree) }

/-- MODEL_INSTALL_RESUME (09:R215). -/
def execModelInstallResume (s : State) : Host.Outcome State Fault Refusal :=
  .next (match s.dev.installing with
    | some (o, m, q, false) => if s.dev.on && s.seatFree then s.updDev fun d => { d with installing := some (o, m, q, true) } else s
    | _ => s)

/-- MODEL_INSTALL_COMPLETE (09:R215): the model is in the store, read-only. An install that has every seat held meanwhile
waits again. -/
def execModelInstallComplete (s : State) : Host.Outcome State Fault Refusal :=
  .next (match s.dev.installing with
    | some (o, m, q, true) =>
      if !s.dev.on then s
      else if s.dev.flashRo then (s.updDev fun d => { d with installing := none }).endOp mgmt o stHwFault
      else if !s.seatFree then s.updDev fun d => { d with installing := some (o, m, q, false) }
      else (s.updDev fun d => { d with installing := none, store := Tab.set none d.store m (some q) }).endOp mgmt o stOk
    | _ => s)

/-- MODEL_STORE_ERASE (09:R215). -/
def cmdModelStoreErase (p : List Byte) (s : State) : Ans :=
  needLen p 0 <|
    match boxNumbers.find? (fun b => (s.box b).st = 3) with
    | some b => reject 3 (s.box b).code
    | none =>
      if s.dev.installing.isSome then reject 5 1
      else .go fun s o => (s.updDev fun d => { d with store := [] }).endOp mgmt o stOk

/-- LOCAL_RELEASE (11:R276): one retained record, or all of them. -/
def cmdLocalRelease (p : List Byte) (s : State) : Ans :=
  needLen p 8 <|
    let n := fieldAt p 0 8
    let hit (r : LocalRec) : Bool := r.box.isNone && (n == 2 ^ 64 - 1 || r.rec0.step == n)
    if n ≠ 2 ^ 64 - 1 && !s.dev.retained.any hit then badParam 0
    else okSync (s.updDev fun d => { d with retained := d.retained.filter (fun r => !hit r) })

/-- LCS_STATE (14 registers). -/
def State.lcsWord (s : State) : Nat :=
  joinFields [(4, s.lcs), (1, bitN s.dev.resolved), (1, bitN s.dev.tapDebug), (1, bitN s.tapOpen), (1, bitN s.dev.probe), (4, s.transCount),
    (6, s.spareRowsFree), (5, 0), (9, s.minSvn)] 32

/-- LC_STATUS (14:R364). -/
def cmdLcStatus (p : List Byte) (s : State) : Ans :=
  needLen p 0 <|
    let dg (k : Nat) : List Byte := match s.fwSlot k with | some q => sliceBytes q.digest 0 64 | none => leBytes 64 0
    okSync s (leBytes 4 s.lcsWord ++ leBytes 4 s.fwSvn ++ leBytes 1 s.dev.active ++ leBytes 1 s.fwNext ++ leBytes 1 (bitN s.dev.fallback) ++ leBytes 5 0
      ++ dg 0 ++ dg 1)

/-- The rows that a transition writes before its intent, or the status that ends it (14:R360). -/
def State.transRows (s : State) (p : List Byte) : State × Option Nat :=
  let dst := fieldAt p 0 1
  if dst = 1 then
    let d := s.draw
    let s := if s.row 0 = 0 then d.2.programRow 0 (Config.randomKey d.1) else s
    ((List.range 3).foldl (fun s i => s.programRow (1 + i) (keyOf (sliceBytes p (0x28 + 32 * i) 32))) s, none)
  else if dst = 2 then
    if !s.tokenOk 2 (sliceBytes p 8 32) then (s, some stNotAuth)
    else if !Config.verifyRoot true s.devicePk (p.drop 0x88) then (s, some stIntegrity)
    else
      let v (i : Nat) : BitVec 256 := keyOf (sliceBytes p (0x88 + 32 * i) 32)
      if (List.range 931).any (fun i => s.row (0x20 + i) ≠ 0 && s.row (0x20 + i) ≠ v i) then (s, some stBadParam)
      else ((List.range 931).foldl (fun s i => s.programRow (0x20 + i) (v i)) s, none)
  else (s, none)

/-- LC_TRANSITION (14:R356, R359, R360): rows, intent row; the wipe then runs. -/
def cmdLcTransition (w : Sender) (p : List Byte) (s : State) : Ans :=
  let dst := fieldAt p 0 1
  let src := s.lcs
  needLen p (if dst = 2 then 0x88 + certLen else 0x88) <|
    match s.notFree with
    | some b => reject 3 (s.box b).code
    | none =>
      if !((src = 0 && (dst = 1 || dst = 3)) || (src = 1 && (dst = 2 || dst = 3)) || (src = 2 && dst = 3)) then reject 1 src
      else if s.dev.trans.isSome then reject 5 1
      else if !zeroAt p 1 7 then badParam 1
      else if dst ≠ 2 && !zeroAt p 8 32 then badParam 8
      else if dst ≠ 1 && !zeroAt p 0x28 96 then badParam 0x28
      else if s.spareRowsFree < (if dst = 3 then 2 else 4) then .no stHwFault []
      else .go fun s o =>
        let r := s.transRows p
        match r.2 with
        | some st => r.1.endOp w.k o st
        | none =>
          let k := r.1.transCount
          (r.1.programRow (intentRow k) (transWord 0x49 src dst k)).updDev fun d => { d with trans := some ⟨k, src, dst, some o⟩ }

/-- FW_UPDATE (14:R358, R368). -/
def cmdFwUpdate (p : List Byte) (s : State) : Ans :=
  let ph := fieldAt p 0 1
  let off := fieldAt p 4 4
  if p.length < 8 || (ph ≠ 1 && p.length ≠ 8) || 8008 < p.length then badParam noField
  else if 3 < ph then badParam 0
  else if !zeroAt p 1 3 then badParam 1
  else match ph with
    | 0 => if 2 ^ 25 < off then badParam 4
      else .go fun s o => (s.updDev fun d => { d with staging := [], stageLen := off }).endOp mgmt o stOk
    | 1 => if s.dev.stageLen < off + (p.length - 8) then badParam 4
      else .go fun s o => (s.updDev fun d => { d with staging := d.staging.store off (p.drop 8) }).endOp mgmt o stOk
    | 2 =>
      match s.notFree with
      | some b => reject 3 (s.box b).code
      | none => .go fun s o =>
        let img := s.dev.staging.bytes 0 s.dev.stageLen
        if !Config.verifyRoot false img (Config.firmwareSig img) then s.endOp mgmt o stIntegrity
        else if Config.firmwareSvn img < s.minSvn then s.endOp mgmt o stBadParam
        else
          let k := 1 - s.dev.active
          let g := s.nvsGroup [(0x91, BitVec.ofNat 32 k)]
          if !g.2 then g.1.endOp mgmt o stCapacity
          else (g.1.updDev fun d => { d with fw := Tab.set none d.fw k (some ⟨digest img, Config.firmwareSvn img, true⟩) }).endOp mgmt o stOk
    | _ => .go fun s o => let r := s.raiseSvn s.fwSvn; r.1.endOp mgmt o (if r.2 then stOk else stHwFault)

/-- SPARE_REPORT (14:R375, R379). -/
def cmdSpareReport (p : List Byte) (s : State) : Ans :=
  needLen p 0 <|
    let t (c : Nat) : Nat × Nat := (Tab.get 0 s.dev.spUsed c, Tab.get 0 s.dev.spLost c)
    let rows : List (Nat × Nat × Nat) := [(8, t 1), (1088, t 2), (8, s.laneSpares), (256, s.wireSpares), (915527, t 5),
      (32, (s.dev.spareRows.length, 0)), (64, (s.dev.nvsCells, s.dev.nvsFrozen.length)), (68, t 8), (72, t 9)]
    okSync s (((List.range 9).zip rows).flatMap (fun (q : Nat × Nat × Nat × Nat) =>
      let gone := if q.1 = 4 then s.dev.flashRo else decide (q.2.1 ≤ q.2.2.1)
      leBytes 1 (q.1 + 1) ++ leBytes 1 (bitN gone) ++ leBytes 2 0 ++ leBytes 4 q.2.1 ++ leBytes 4 q.2.2.1 ++ leBytes 4 q.2.2.2))

/-- BOX_DEBUG's effect (14:R366, R367): cores that run no launch give their images at once, the others at their next
preemption point (log 49). -/
def State.beginDebug (s : State) (b out o : Nat) : State :=
  let x := s.box b
  let cores := x.coreList.filter (fun k => s.boxOfCore k == some b)
  let s := s.updBox b fun x => { x with debugged := true, debugJob := some (o, out, cores) }
  cores.foldl (fun s k => match (s.box b).runsOn k with
    | none => s.debugImage b k
    | some l => s.putCore b l.num k ((s.core k).atPoint ((s.box b).env l k))) s

/-- DIAG_RUN (14:R367). -/
def cmdDiagRun (w : Sender) (p : List Byte) (s : State) : Ans :=
  let f := fieldAt p
  let kind := f 0 1
  let b := f 1 1
  let n := if kind = 2 && b < 16 then (s.box b).members else 0
  if kind = 0 || 4 < kind then badParam 0
  else needLen p (0x30 + sigLen * n) <|
    if !zeroAt p 4 4 then badParam 4
    else match kind with
      | 1 =>
        let seats := BitVec.ofNat 16 (f 2 2)
        if seats = 0 then badParam 2
        else if s.dev.selftest.isSome then reject 5 1
        else if (List.range 16).any (fun k => seats.getLsbD k && ((s.seat k).owner.isSome || !(s.seat k).inService)) then reject 2 s.dev.dstate
        else .go fun s o => s.updDev fun d => { d with selftest := some (w.k, o, seats) }
      | 2 =>
        let sigs := (List.range n).all (fun m => s.memberSigned b m (p.take 0x30) (sliceBytes p (0x30 + sigLen * m) sigLen))
        if 16 ≤ b then badParam 1
        else if (s.box b).st ≠ 3 then reject 3 (s.box b).code
        else if (s.box b).debugJob.isSome then reject 5 1
        else if f 0x28 8 % 16384 ≠ 0 || 2 ^ 50 < f 0x28 8 + (s.box b).coreList.length * imageSize then badParam 0x28
        else if !sigs then .no stIntegrity []
        else .go fun s o => s.beginDebug b (f 0x28 8) o
      | 3 =>
        if s.lcs ≠ 1 && s.lcs ≠ 2 then reject 1 s.lcs
        else match s.notFree with
          | some b => reject 3 (s.box b).code
          | none =>
            if 3 ≤ s.dev.badTokens then .no stNotAuth []
            else if !s.tokenOk (if s.lcs = 1 then 1 else 3) (sliceBytes p 8 32) then
              .sync (s.updDev fun d => { d with badTokens := d.badTokens + 1 }) stNotAuth []
            else .go fun s o => (s.updDev fun d => { d with tapDebug := true }).endOp w.k o stOk
      | _ => .go fun s o => (s.updDev fun d => { d with tapDebug := false }).endOp w.k o stOk

/-- SELFTEST_COMPLETE (14:R367, R375): section 0 holds the results and the failed parts are retired. A failed core, HBM3E stack or
LPDDR5X package takes its seat out of service; an array line, regulator phase or sensor does where no spare remains. -/
def execSelftestComplete (results : List (Fin 16 × Byte)) (parts : List Part) (s : State) : Host.Outcome State Fault Refusal :=
  match s.dev.selftest with
  | none => .next s
  | some (k, o, seats) =>
    if !s.dev.on then .next s
    else
      let rs := (List.range 16).filterMap (fun k => if seats.getLsbD k then
        some (k, match results.find? (fun r => r.1.val == k) with | some r => r.2.toNat | none => 0) else none)
      let s := s.updDev fun d => { d with selftest := none }
      let s := s.opBytes k o (rs.flatMap (fun (r : Nat × Nat) => leBytes 1 r.1 ++ leBytes 1 r.2 ++ leBytes 6 0))
      let s := parts.foldl (fun s q => match execPartFail q s with | .next s => s | _ => s) s
      let s := rs.foldl (fun s (r : Nat × Nat) => if r.2 = 1 || r.2 = 3 || r.2 = 4 then s.seatOut r.1 else s) s
      .next (s.endOp k o stOk)

end Sys2Proof.Machine
end

