-- ==== Sys2Proof/Machine/HostMemory.lean ====
section
/-! DEFINITION. Host commands for the tile map, transfers, weights and scenes (07:R162, R163, R180 to R185; 09:R216 to
R225; 13:R338 to R340; 12:R300; 14:R371). -/
namespace Sys2Proof.Machine

/-- The lowest offset among the fields that are at fault (R330: the first field at fault). -/
def firstBad (xs : List (Bool × Nat)) : Option Nat :=
  xs.foldl (fun acc q => if q.1 then some (match acc with | some n => min n q.2 | none => q.2) else acc) none
/-- BAD_PARAM for the first field at fault, else the rest of the command. -/
def fields (xs : List (Bool × Nat)) (a : Ans) : Ans :=
  match firstBad xs with
  | some f => badParam f
  | none => a

/-- A run of REGION_MAP (R338). -/
structure MapRun where
  index : Nat
  count : Nat
  tier : Nat
  seat : Nat
  clean : Bool
  rest : Bool
  deriving DecidableEq, Repr
def mapRun (p : List Byte) (k : Nat) : MapRun :=
  let o := 0x0C + 16 * k
  ⟨fieldAt p o 4, fieldAt p (o + 4) 4, fieldAt p (o + 8) 1, fieldAt p (o + 9) 1, zeroAt p (o + 10) 1, zeroAt p (o + 11) 5⟩
def mapRuns (p : List Byte) : List MapRun := (List.range (fieldAt p 8 4)).map (mapRun p)
/-- Whether two runs take frames of one pool. -/
def MapRun.samePool (a b : MapRun) : Bool := a.tier == b.tier && (a.tier == 2 || a.seat == b.seat)

/-- Map blocks of a seat that a box uses: its directory's block 0 in the lowest seat, and its regions' (R163). -/
def Box.blocksUsed (x : Box) (m : Nat) : List Nat :=
  (if m = x.keySeat0 then [0] else []) ++ x.regions.filterMap (fun (q : Nat × Option Region) => match q.2 with
    | some r => if r.mseat = m then some r.block else none
    | none => none)
/-- A free map block of a seat: the search begins at a free value (log 8). -/
def Box.freeBlock (x : Box) (m hint : Nat) : Option Nat :=
  ((List.range 512).map (fun i => (hint + i) % 512)).find? (fun k => !(x.blocksUsed m).contains k)

/-- A region without tiles is mapped; none when every map block of the seat is in use. -/
def State.mapRegion (s : State) (b region tumbler mseat : Nat) : Option State :=
  let d := s.draw
  ((s.box b).freeBlock mseat (Config.frameHint d.1)).map fun k =>
    d.2.updBox b fun x => { x with regions := Tab.set none x.regions region (some ⟨tumbler, mseat, k, false, 0, d.1⟩) }
/-- The tiles of a run take their frames and are ZERO (R172, R338). -/
def State.mapTiles (s : State) (b region : Nat) (q : MapRun) : Option State :=
  (List.range q.count).foldl (fun (acc : Option State) i => acc.bind fun s =>
    (s.takeFrame b q.tier q.seat).map fun r =>
      let d := r.1.draw
      d.2.updTile b (region * 262144 + q.index + i) fun _ => { st := tsZero, tier := q.tier, frame := r.2, mapNo := d.1 }) (some s)

/-- What is wrong with run `k` of REGION_MAP (R338; 14:R371). -/
def State.badRun (s : State) (b : Nat) (qs : List MapRun) (k : Nat) : List (Bool × Nat) :=
  match qs[k]? with
  | none => []
  | some q =>
    let o := 0x0C + 16 * k
    let earlier := qs.take k
    let need := (((earlier.filter (fun r => r.samePool q)).map MapRun.count).foldl (· + ·) 0) + q.count
    let free := if q.tier = 2 then (if s.dev.flashRo then 0 else s.quotaLeft b) else s.freeIn q.tier q.seat
    [(earlier.any (fun r => decide (r.index < q.index + q.count) && decide (q.index < r.index + r.count)), o),
     (decide (q.count = 0) || decide (262144 < q.index + q.count), o + 4),
     (decide (2 < q.tier) || ((s.box b).rehearsal && q.tier != 1) || decide (free < need), o + 8),
     (decide (q.tier < 2) && !(decide (q.seat < 16) && s.seatServes b q.seat), o + 9), (!q.clean, o + 10), (!q.rest, o + 11)]

/-- REGION_MAP (R338; 07:R162, R163; 12:R300). -/
def cmdRegionMap (b : Nat) (p : List Byte) (s : State) : Ans :=
  let f := fieldAt p
  let x := s.box b
  let n := f 8 4
  if p.length < 0x0C || 1024 < n || n = 0 then (if p.length < 0x0C then badParam noField else badParam 8)
  else needLen p (0x0C + 16 * n) <|
    let qs := mapRuns p
    fields ([(decide (262144 ≤ f 0 4) || (x.region (f 0 4)).isSome, 0),
        (!(decide (f 6 1 < 16) && s.seatServes b (f 6 1)) || (x.freeBlock (f 6 1) 0).isNone, 6), (f 7 1 != 0, 7)]
      ++ (List.range n).flatMap (s.badRun b qs)) <|
    if !s.ownedSlot b (f 4 2) 1 then .no stNotAuth []
    else .go fun s o =>
      match (s.mapRegion b (f 0 4) (f 4 2) (f 6 1)).bind (fun s => qs.foldl (fun (a : Option State) q => a.bind fun s => s.mapTiles b (f 0 4) q) (some s)) with
      | some s => s.endOp b o stOk
      | none => s.endOp b o stBadParam

/-- The tiles of a region that are mapped. -/
def Box.regionTiles (x : Box) (region : Nat) : List (Nat × Tile) :=
  x.tiles.filter (fun (q : Nat × Tile) => regionOf q.1 == region && q.2.st != 0)
/-- Whether a tile is a source of a scene change's layers that are still to be replaced (09:R225). -/
def Box.sceneSource (x : Box) (tile : Nat) : Bool :=
  x.scene.active && x.scene.srcKind == 0 && (x.scene.layers.drop x.scene.done).any (fun y => decide (y.src ≤ tile) && decide (tile < y.src + y.count))

/-- The frames that an entry holds: FRAME, a wing's, and a home kept for a tile that lies with the partner. -/
def Tile.held (t : Tile) : List (Nat × Nat) :=
  (if t.tier < 3 then [(t.tier, t.frame)] else []) ++ (if t.wing && !t.wlost then [(t.wtier, t.wframe)] else [])
    ++ (match t.home with | some h => [h] | none => [])

/-- A region is unmapped: its frames are released, a move in progress is given up, its directory entry cleared (R338;
07:R173). A rotation with no marked region left ends with it (12:R307). -/
def State.unmapRegion (s : State) (b region : Nat) : State :=
  let ts := (s.box b).regionTiles region
  let s := (List.range 16).foldl (fun (s : State) k => match (s.seat k).moving with
    | some m => if m.move.box = b && regionOf m.tile = region then (s.dropDest m).updSeat k fun y => { y with moving := none } else s
    | none => s) s
  let s := ts.foldl (fun s (q : Nat × Tile) => q.2.held.foldl (fun s h => s.release h.1 h.2) s) s
  let s := s.updBox b fun x => { x with tiles := x.tiles.filter (fun (q : Nat × Tile) => regionOf q.1 ≠ region), regions := Tab.set none x.regions region none }
  (if (s.box b).rekey.active then s.rekeyDone b else s).movesDone b

/-- REGION_UNMAP (R338, R330). A region with an understudy of a tile outside it is not unmapped (07:R185, log 50). -/
def cmdRegionUnmap (b : Nat) (p : List Byte) (s : State) : Ans :=
  needLen p 4 <|
    let r := fieldAt p 0 4
    let x := s.box b
    let ts := (x.regionTiles r).map Prod.fst
    if (x.region r).isNone then badParam 0
    else if ts.any x.tagTarget then reject 8 1
    else if ts.any x.sceneSource then reject 8 2
    else if (match x.curtain with | some c => c.runs.any (fun q => decide (q.1 ≤ r) && decide (r < q.1 + q.2)) | none => false) then reject 8 3
    else if x.tiles.any (fun (q : Nat × Tile) => q.2.und && q.2.st != 0 && regionOf q.2.utile == r && regionOf q.1 != r) then badParam 0
    else .go fun s o => (s.unmapRegion b r).endOp b o stOk

/-- TILE_UND (R338; 07:R185). -/
def cmdTileUnd (b : Nat) (p : List Byte) (s : State) : Ans :=
  needLen p 16 <|
    let t := fieldAt p 0 8
    let u := fieldAt p 8 8
    let x := s.box b
    let y := x.tile u
    let clear := u == 2 ^ 64 - 1
    fields [(decide (2 ^ 36 ≤ t) || (x.tile t).st == 0, 0),
        (!clear && (decide (2 ^ 36 ≤ u) || y.st != tsResident || y.tier != 0 || !y.pin), 8)] <|
    .go fun s o => (s.updTile b t fun z => if clear then { z with und := false, utile := 0 } else { z with und := true, utile := u }).endOp b o stOk

/-- TILE_MOVE (R338; 07:R180). A full queue takes no move (log 36). -/
def cmdTileMove (b : Nat) (p : List Byte) (s : State) : Ans :=
  needLen p 15 <|
    let f := fieldAt p
    let x := s.box b
    let m (o : Option Nat) : Move := ⟨b, f 0 8, f 8 4, f 0x0C 1, f 0x0D 1, (f 0x0E 1).testBit 0, (f 0x0E 1).testBit 1, o, false, false⟩
    fields [(decide (2 ^ 36 ≤ f 0 8), 0), (decide (f 8 4 = 0) || decide (65536 < f 8 4) || decide (2 ^ 36 < f 0 8 + f 8 4), 8),
        (decide (2 < f 0x0C 1) || (x.rehearsal && f 0x0C 1 == 2), 0x0C), (!(decide (f 0x0D 1 < 16) && x.seats.getLsbD (f 0x0D 1)), 0x0D),
        (decide (3 < f 0x0E 1), 0x0E)] <|
    match s.queueMove (m none) with
    | none => reject 3 x.st
    | some _ => .go fun s o => match s.queueMove (m (some o)) with
      | some s => s
      | none => s.endOp b o stReject 3 x.st

/-- The GID of a host port: its IPv6 address (R339, R342). -/
def State.portGid (s : State) (port : Nat) : List Byte := s.nvsBytes (2 + 12 * port) 4

/-- XFER_REG (R339; 12:R300): the reply is LQPN in 32 bits, and the GID (log 51). -/
def cmdXferReg (b : Nat) (p : List Byte) (s : State) : Ans :=
  needLen p 0x48 <|
    let f := fieldAt p
    let x := s.box b
    fields [(f 0 2 == 0 || (x.xfer (f 0 2)).isSome, 0), (f 2 1 == 0 || decide (2 < f 2 1), 2), (decide (1 < f 3 1), 3), (f 6 2 != 0, 6),
        (decide (2 ^ 36 ≤ f 8 8), 8), (f 0x10 8 == 0 || decide (2 ^ 40 ≤ f 0x10 8), 0x10), (decide (2 ^ 24 ≤ f 0x24 4), 0x24),
        (decide (2 ^ 24 ≤ f 0x38 4), 0x38), (f 0x3C 4 != 0, 0x3C)] <|
    if !s.ownedSlot b (f 4 2) 2 then .no stNotAuth []
    else if 64 * x.seatList.length ≤ x.xfers.length then reject 3 x.st
    else
      let d := s.draw
      let q := (Config.queuePair d.1).toNat
      let z : Xfer := ⟨f 2 1, f 3 1, f 4 2, f 8 8, f 0x10 8, f 0x18 8, f 0x20 4, f 0x24 4, sliceBytes p 0x28 16, f 0x38 4, f 0x40 8, q⟩
      okSync (d.2.updBox b fun x => { x with xfers := Tab.set none x.xfers (f 0 2) (some z) })
        (leBytes 4 q ++ s.portGid (f 3 1))

/-- XFER_DROP (R339). -/
def cmdXferDrop (b : Nat) (p : List Byte) (s : State) : Ans :=
  needLen p 2 <|
    let id := fieldAt p 0 2
    if ((s.box b).xfer id).isNone then badParam 0
    else if (s.box b).runs.any (fun (r : Run) => r.xid == id) then reject 5 1
    else okSync (s.updBox b fun x => { x with xfers := Tab.set none x.xfers id none })

/-- XFER_RUN (R340): the run begins, or waits for the transfer's present one. -/
def cmdXferRun (b : Nat) (p : List Byte) (s : State) : Ans :=
  needLen p 2 <|
    let id := fieldAt p 0 2
    if ((s.box b).xfer id).isNone then badParam 0
    else .go fun s o => s.askRun b id (.op o)

/-- A registered transfer that reads its object. -/
def Box.reader (x : Box) (id : Nat) : Bool := match x.xfer id with | some q => q.dir == 1 | none => false
/-- A registered transfer that writes its object. -/
def Box.writer (x : Box) (id : Nat) : Bool := match x.xfer id with | some q => q.dir == 2 | none => false
/-- Whether a model was granted to the box (09:R215). -/
def Box.grants (x : Box) (m : Nat) : Bool := decide (m < 64) && x.models.getLsbD m
/-- The highest-numbered EMPTY slot of a box, for a model key (12:R300). -/
def State.topEmpty (s : State) (b : Nat) : Option Nat := ((List.range 1024).reverse).find? (fun k => s.emptySlot b k)

/-- The key of a load or scene change (09:R213, R215; 12:R300): the slot named, or a fresh MODEL_LOAD slot with the model's
key. -/
def State.sourceKey (s : State) (b kind keyslot source : Nat) : State × Nat :=
  if kind = 2 then
    match s.topEmpty b, Tab.get none s.dev.store source with
    | some k, some m => (s.setSlot k { st := 1, kind := 5, owner := b, member := 15, key := Config.modelKey m.bytes }, k)
    | _, _ => (s, keyslot)
  else (s, keyslot)
/-- What forbids a load or scene change from its source: none when it may go on (09:R215, R216; 12:R300; 14:R371). -/
def State.sourceBad (s : State) (b kind keyslot source : Nat) : Option Ans :=
  let x := s.box b
  if kind = 1 then
    if !x.reader source then some (badParam 4) else if !s.ownedSlot b keyslot 2 then some (.no stNotAuth []) else none
  else if kind = 2 then
    if !x.grants source then some (.no stNotAuth [])
    else if x.rehearsal then some (reject 2 s.dev.dstate)
    else if (Tab.get none s.dev.store source).isNone then some (badParam 4)
    else if (s.topEmpty b).isNone then some (reject 6 1) else none
  else none
/-- The header of an installed model. -/
def State.modelHdr (s : State) (m : Nat) : List Byte := match Tab.get none s.dev.store m with | some q => sliceBytes q.bytes 0 64 | none => []

/-- WT_LOAD (09:R216 to R218; 11:R266; 12:R300). -/
def cmdWtLoad (b : Nat) (p : List Byte) (s : State) : Ans :=
  needLen p 0x0C <|
    let f := fieldAt p
    let x := s.box b
    fields [(f 0 1 != 1 && f 0 1 != 2, 0), (f 1 1 != 0, 1), (decide (1024 ≤ f 2 2) || (f 0 1 == 2 && f 2 2 != 0), 2),
        (!x.reader (f 6 2), 6), (f 8 4 == 0 || decide (65536 < f 8 4), 8)] <|
    if x.cst = 3 || x.cst = 4 then reject 4 x.cst
    else match s.sourceBad b (f 0 1) (f 2 2) (f 4 2) with
    | some a => a
    | none => .go fun s o =>
      let k := s.sourceKey b (f 0 1) (f 2 2) (f 4 2)
      let hdr := if f 0 1 = 2 then s.modelHdr (f 4 2) else []
      let s := k.1.updBox b fun x => { x with loading := x.loading ++ [⟨o, f 0 1, k.2, f 4 2, f 6 2, f 8 4, [], hdr, [], 0, false⟩] }
      if f 0 1 = 2 && !headerOk (s.slot k.2).key hdr then s.endLoad b o stIntegrity else s.askRun b (f 6 2) (.shardMap o)

/-- A tier's bandwidth for one seat, in units of 0.1 GB/s (09:R219). -/
def tierRate (tier : Nat) : Nat := if tier = 0 then 12288 else if tier = 1 then 1536 else 60

/-- WT_CHANNEL (09:R219). -/
def cmdWtChannel (b : Nat) (p : List Byte) (s : State) : Ans :=
  needLen p 0x0C <|
    let f := fieldAt p
    let x := s.box b
    let others := (x.chans.filter (fun (q : Nat × Chan) => q.1 ≠ f 0 1 && q.2.active && q.2.tier == f 2 1)).map (fun q => q.2.rate)
    let total := others.foldl (· + ·) 0 + (if f 1 1 = 1 then f 8 4 else 0)
    if x.channels ≤ f 0 1 then .no stNotAuth []
    else fields [(decide (1 < f 1 1), 1), (decide (2 < f 2 1), 2), (decide (127 < f 3 1), 3), (decide (127 < f 4 1) || decide (f 4 1 < f 3 1), 4),
        (!zeroAt p 5 3, 5), (decide (2 ^ 18 ≤ f 8 4) || decide (9 * x.seatList.length * tierRate (f 2 1) < 10 * total), 8)] <|
    okSync (s.updBox b fun x => { x with chans := Tab.upd {} x.chans (f 0 1) fun c =>
      { c with active := f 1 1 == 1, tier := f 2 1, lo := f 3 1, hi := f 4 1, rate := f 8 4 } })

/-- A layer entry of SCENE_CHANGE (09:R222), and whether its fields are in range. -/
def layerEntry (m : List Byte) (i : Nat) : Layer := let o := 32 * i; ⟨fieldAt m o 8, fieldAt m (o + 8) 8, fieldAt m (o + 0x10) 4, fieldAt m (o + 0x14) 2⟩
def layerOk (m : List Byte) (i kind : Nat) : Bool :=
  let y := layerEntry m i
  zeroAt m (32 * i + 0x16) 10 && decide (y.dest + y.count ≤ 2 ^ 36) && decide (y.src + y.count ≤ if kind = 0 then 2 ^ 36 else 2 ^ 40)
    && decide (1 ≤ y.count) && decide (y.count ≤ 65536)

/-- The checks of the layer table (09:R222; the limit on source tiles is taken for sources in the range, log 52). -/
def State.layersOk (s : State) (b kind : Nat) (m : List Byte) (n : Nat) : Bool :=
  let x := s.box b
  let ys := (List.range n).map (layerEntry m)
  (List.range n).all (fun i => layerOk m i kind)
  && (List.range (n - 1)).all (fun i => match ys[i]?, ys[i + 1]? with | some y, some z => decide (y.pass < z.pass) | _, _ => false)
  && (List.range n).all (fun i => (List.range i).all (fun j => match ys[i]?, ys[j]? with
      | some y, some z => decide (y.dest + y.count ≤ z.dest) || decide (z.dest + z.count ≤ y.dest)
      | _, _ => true))
  && ys.all (fun y => (List.range y.count).all (fun k => let t := x.tile (y.dest + k); t.st == tsResident && decide (t.tier < 2)))
  && (kind != 0 || (ys.all (fun y => (List.range y.count).all (fun k => (x.tile (y.src + k)).st == tsResident))
      && decide ((ys.map Layer.count).foldl (· + ·) 0 ≤ 2 ^ 22)))

/-- The snapshot of a layer's source tiles (09:R225); tier 4 stands for a tile that reads as zeros. -/
def State.snapLayer (s : State) (b i : Nat) (y : Layer) : List (Nat × Nat × Nat) :=
  (List.range y.count).map (fun k => match s.readPlace b (y.src + k) with
    | .at tier f => (i, tier, f)
    | .zero => (i, 4, 0)
    | .bad => (i, 5, 0))

/-- A scene change is accepted: the old set and the snapshot are taken (09:R223, R225). -/
def State.beginScene (s : State) (b o : Nat) (p : List Byte) (m : List Byte) : State :=
  let f := fieldAt p
  let k := s.sourceKey b (f 0 1) (f 2 2) (f 4 2)
  let ys := (List.range (f 6 2)).map (layerEntry m)
  let hdr := if f 0 1 = 2 then s.modelHdr (f 4 2) else []
  let ok := f 0 1 ≠ 2 || headerOk (k.1.slot k.2).key hdr
  let fits := f 0 1 ≠ 2 || ys.all (fun y => decide (y.src + y.count ≤ hdrTiles hdr))
  if !ok || !fits then s.endOp b o (if ok then stBadParam else stIntegrity)
  else
    let snap := if f 0 1 = 0 then ((List.range ys.length).zip ys).flatMap (fun (q : Nat × Layer) => s.snapLayer b q.1 q.2) else []
    let old := ((s.box b).launches.filter (fun (l : Launch) => l.scene && l.st != LaunchSt.ended)).map Launch.num
    let s := k.1.updScene b fun _ =>
      { st := 1, opid := o, srcKind := f 0 1, keyslot := k.2, source := f 4 2, layers := ys, old := old, snap := snap, hdr := hdr }
    (if f 0 1 = 2 then s.noteLoad b (hdrId hdr) (hdr.drop 0x30) else s).sceneResult b

/-- SCENE_CHANGE (09:R221 to R223; 13:R331): the checks of the table end the operation. -/
def cmdSceneChange (b : Nat) (p : List Byte) (s : State) : Ans :=
  needLen p 0x10 <|
    let f := fieldAt p
    fields [(decide (2 < f 0 1), 0), (f 1 1 != 0, 1), (decide (1024 ≤ f 2 2) || (f 0 1 != 1 && f 2 2 != 0), 2), (f 0 1 == 0 && f 4 2 != 0, 4),
        (f 6 2 == 0 || decide (1024 < f 6 2), 6), (f 8 8 % 32 != 0 || decide (2 ^ 50 ≤ f 8 8), 8)] <|
    if (s.box b).scene.active then reject 5 1
    else match s.sourceBad b (f 0 1) (f 2 2) (f 4 2) with
    | some a => a
    | none => .go fun s o =>
      match s.rangeRead b (f 8 8) (32 * f 6 2) with
      | none => s.endOp b o stBadParam
      | some m => if s.layersOk b (f 0 1) m (f 6 2) then s.beginScene b o p m else s.endOp b o stBadParam

end Sys2Proof.Machine
end

