-- ==== Sys2Proof/Machine/HostCurtain.lean ====
section
/-! DEFINITION. Host commands for the curtain and for restores (11:R258, R263, R264, R271, R272, R276, R281, R285; 12:R320;
14:R371). -/
namespace Sys2Proof.Machine

/-- Whether a launch of the box is running, queued or preempted, or sealed and still open (R263, R281). -/
def Box.busy (x : Box) : Bool := x.launches.any (fun (l : Launch) => l.st != LaunchSt.ended) || x.outcome.isSome
/-- Whether the open epoch holds a wing (R263). -/
def Box.hasWings (x : Box) : Bool := x.tiles.any (fun (q : Nat × Tile) => x.wingOpen q.2)
/-- A refusal for the curtain's state (R330). -/
def Box.curtainReject (x : Box) : Ans := reject 4 x.cst

/-- The devices that a MAP names, and whether it is allowed (R263). -/
def mapOk (m : List Nat) (p size : Nat) : Bool :=
  if p = 0 || size = 1 then m.all (· == 0xFF)
  else
    let own := m.take size
    (List.range size).all (fun d => own.contains d && (m[d]? != some d)) && (m.drop size).all (· == 0xFF)

/-- The parameters of CURTAIN_CFG (R263); the protected runs are those of the list that PLIST names. -/
def curtainCfg (p : List Byte) (runs : List (Nat × Nat)) : CurtainCfg :=
  let f := fieldAt p
  ⟨f 0 2, f 2 2, f 4 2, runs, f 0x10 8, f 0x18 4, f 0x1C 2, f 0x1E 1, (f 0x1F 1).testBit 0, f 0x20 4, f 0x24 4, f 0x28 2, f 0x2A 2,
    (List.range 64).map (fun d => fieldAt p (0x30 + d) 1)⟩

/-- Fields of CURTAIN_CFG that break their range, or a rule that needs no data from memory (R263, R264; 12:R320; 14:R371). -/
def State.curtainFields (s : State) (b : Nat) (p : List Byte) : List (Bool × Nat) :=
  let f := fieldAt p
  let x := s.box b
  let c := curtainCfg p []
  let size := s.boxGroup b
  let self := s.boxIndex b
  let dev := c.map.getD self 0xFF
  let reh := x.rehearsal
  let slotBad (k : Nat) : Bool := !x.hasSlot k
  [((size == 1 || reh) && c.p != 0, 0), (decide (c.f % max 1 c.p ≠ 0) || (reh && c.f != 0), 2),
   ((if c.f = 0 then c.s != 0 else decide (c.s % c.f ≠ 0)) || (reh && c.s != 0), 4), (f 6 2 == 0 || decide (256 < f 6 2), 6),
   (f 8 8 % 8 != 0 || decide (2 ^ 50 ≤ f 8 8), 8), (decide (2 ^ 36 < c.steprec + 5), 0x10), (decide (262144 ≤ c.mbase), 0x18),
   (slotBad c.mtumbler, 0x1C), (decide (2 < c.mtier), 0x1E), (decide (1 < f 0x1F 1), 0x1F), (c.batch == 0, 0x20),
   (decide (c.timeout < 100) || decide (600000 < c.timeout), 0x24), (if c.s = 0 then c.xstore != 0 else !x.writer c.xstore, 0x28),
   (slotBad c.skey || (decide (1 < x.members) && c.skey != 64 * x.keySeat0 + 17), 0x2A), (f 0x2C 4 != 0, 0x2C),
   (!mapOk c.map c.p size || (c.p != 0 && (!s.reaches dev || !feedsOk s.dev.feedA.fid s.dev.feedB.fid (s.partnerCodes b).1 (s.partnerCodes b).2)), 0x30)]

/-- The regions that the protected runs name, in list order. -/
def runRegions (rs : List (Nat × Nat)) : List Nat := rs.flatMap (fun r => (List.range r.2).map (fun i => r.1 + i))
/-- The mirror regions of a configuration: none when the partner layer is off (log 53). -/
def CurtainCfg.mirrorRegions (c : CurtainCfg) : List Nat :=
  (List.range c.mirrorCount).map (fun i => c.mbase + i)
/-- Whether the regions of a protected list are in range, mapped, and few enough (R263). -/
def State.protectable (s : State) (b : Nat) (rs : List (Nat × Nat)) : Bool :=
  rs.all (fun r => decide (r.1 + r.2 ≤ 262144)) && decide ((rs.map Prod.snd).foldl (· + ·) 0 * 262144 ≤ 2 ^ 32)
  && (runRegions rs).all (fun r => ((s.box b).region r).isSome)
/-- The rules of R263 that need the protected list. -/
def State.curtainListOk (s : State) (b : Nat) (c : CurtainCfg) : Bool :=
  s.protectable b c.runs
  && (List.range 5).all (fun i => (runRegions c.runs).contains (regionOf (c.steprec + i)))
  && decide (c.mbase + (runRegions c.runs).length ≤ 262144)
  && (List.range (runRegions c.runs).length).all (fun i => ((s.box b).region (c.mbase + i)).isNone)

/-- The mirror regions are mapped, without tiles until data arrives (R274, log 38); none when a map block is missing. -/
def State.mapMirror (s : State) (b : Nat) (c : CurtainCfg) : Option State :=
  c.mirrorRegions.foldl (fun (a : Option State) r => a.bind fun s =>
    ((s.box b).seatList.find? (fun k => ((s.box b).freeBlock k 0).isSome)).bind fun k => s.mapRegion b r c.mtumbler k) (some s)

/-- The mirror regions of a configuration that is replaced are unmapped (log 53). -/
def State.dropMirror (s : State) (b : Nat) : State :=
  match (s.box b).curtain with
  | some c => c.mirrorRegions.foldl (fun s r => s.unmapRegion b r) s
  | none => s

/-- A configuration is taken (R263, R275): the base mirror is begun, or with RESTORE the box enters LOST_STATE. -/
def State.takeCurtain (s : State) (b o : Nat) (p : List Byte) : State :=
  let f := fieldAt p
  match s.rangeRead b (f 8 8) (8 * f 6 2) with
  | none => s.endOp b o stBadParam
  | some m =>
    let c := curtainCfg p ((List.range (f 6 2)).map (fun i => (fieldAt m (8 * i) 4, fieldAt m (8 * i + 4) 4)))
    let s0 := s.dropMirror b
    if !s0.curtainListOk b c then s.endOp b o stBadParam
    else match s0.mapMirror b c with
      | none => s.endOp b o stBadParam
      | some s =>
        let s := s.updBox b fun x =>
          { x with curtain := some c, partner := if c.p = 0 then 0 else 1, baseOp := none, takeReject := false, mirrorStep := none,
                   mirrorBase := false, baseSent := 0 }
        if c.restore then (s.updBox b fun x => { x with cst := 4 }).endOp b o stOk
        else if c.p = 0 then s.endOp b o stOk
        else (s.updBox b fun x => { x with baseOp := some o }).startBase b

/-- CURTAIN_CFG (R263; 12:R300; log 50 for a slot that R263 and R300 answer differently). -/
def cmdCurtainCfg (b : Nat) (p : List Byte) (s : State) : Ans :=
  needLen p 0x70 <|
    let x := s.box b
    let c := curtainCfg p []
    fields (s.curtainFields b p) <|
    if !s.ownedSlot b c.mtumbler 1 || !s.ownedSlot b c.skey 2 then .no stNotAuth []
    else if !(x.cst = 0 || x.cst = 4) || x.busy || x.hasWings || (c.restore && x.launched ≠ 0) then x.curtainReject
    else .go fun s o => s.takeCurtain b o p

/-- A step number of CURTAIN_STATUS: all ones for none. -/
def stepOrOnes (n : Option Nat) : List Byte := leBytes 8 (n.getD (2 ^ 64 - 1))

/-- CURTAIN_STATUS (R272, R279): the take that found its scene key exhausted is reported once in its place (log 54). -/
def cmdCurtainStatus (b : Nat) (p : List Byte) (s : State) : Ans :=
  needLen p 0 <|
    let x := s.box b
    if x.takeReject then
      .sync (s.updBox b fun x => { x with takeReject := false }) stReject
        (leBytes 1 6 ++ leBytes 1 (match x.curtain with | some c => (s.slot c.skey).st | none => 0))
    else
      okSync s (leBytes 1 x.cst ++ leBytes 1 x.last ++ leBytes 1 x.cause ++ leBytes 1 x.partner ++ leBytes 4 x.openE ++ leBytes 4 x.resolvedE
        ++ leBytes 4 0 ++ leBytes 8 x.step ++ stepOrOnes x.mirrorStep ++ stepOrOnes x.localStep ++ stepOrOnes x.storeStep)

/-- CURTAIN_RESOLVE (R271, R269): an outcome from the host. A CLOSE is applied in READY alone, the one state that R266
leaves by CLOSE (log 55). -/
def cmdCurtainResolve (b : Nat) (p : List Byte) (s : State) : Ans :=
  needLen p 5 <|
    let e := fieldAt p 0 4
    let close := fieldAt p 4 1 = 1
    let x := s.box b
    if 1 < fieldAt p 4 1 then badParam 4
    else if e ≠ x.openE then (match x.history.find? (fun q => q.1 == e) with
      | some q => if q.2 = close then okSync s else x.curtainReject
      | none => x.curtainReject)
    else if x.outcome.isSome then (if close then x.curtainReject else okSync s)
    else if close then (if x.cst = 2 then okSync (s.applyClose b) else x.curtainReject)
    else okSync (s.beginDiscard b 4 false)

/-- The local record that a restore would read: the box's own, else a retained one, one that its SKEY sealed first (R276). -/
def State.localSource (s : State) (b step : Nat) : Option LocalRec :=
  let key := match (s.box b).curtain with | some c => (s.slot c.skey).key | none => 0
  let rs := s.dev.retained.filter (fun r => r.complete && r.rec0.step == step && (r.box == some b || r.box.isNone))
  match rs.find? (fun r => r.box == some b) with
  | some r => some r
  | none => match rs.find? (fun r => r.rec0.key == key) with
    | some r => some r
    | none => rs.head?

/-- A retained record is claimed by a box (R276). -/
def State.claim (s : State) (b : Nat) (r : LocalRec) : State :=
  if r.box.isSome then s
  else
    let s := s.updDev fun d => { d with retained := d.retained.map (fun q => if q = r then { q with box := some b } else q) }
    if r.committed then s.updBox b fun x => { x with localStep := some r.rec0.step } else s

/-- SCENE_RESTORE (R281, R276). -/
def cmdSceneRestore (b : Nat) (p : List Byte) (s : State) : Ans :=
  needLen p 0x20 <|
    let f := fieldAt p
    let x := s.box b
    let src := f 0 1
    let rst (o : Nat) : Restore :=
      ⟨o, src, (f 1 1).testBit 0, (f 1 1).testBit 1, (f 1 1).testBit 2, f 8 8, f 0x10 8, f 0x18 8, f 2 2, [], 0, [], [], []⟩
    fields [(decide (2 < src), 0), (decide (7 < f 1 1), 1), (src == 2 && !x.reader (f 2 2), 2), (f 4 4 != 0, 4)] <|
    match x.curtain with
    | none => x.curtainReject
    | some c =>
      if !(x.cst = 4 || (x.cst = 0 && !x.busy && !x.hasWings)) then x.curtainReject
      else match src with
        | 0 => if c.p = 0 then badParam 8 else .go fun s o => s.beginRestore b (rst o)
        | 1 =>
          if x.rehearsal then reject 2 s.dev.dstate
          else match s.localSource b (f 8 8) with
          | none => badParam 8
          | some r =>
            if r.rec0.runs ≠ c.runs then badParam 8
            else if r.box.isNone && s.quotaLeft b < r.rec0.frames then badParam 8
            else .go fun s o => (s.claim b r).beginRestore b (rst o)
        | _ => .go fun s o => s.beginRestore b (rst o)

/-- IFEALE_IMPORT (R285): the step record is written live and the box enters IMPORTED. The step counter is the
checkpoint's, and the generators of a box without a running launch are loaded (log 56). -/
def cmdIfealeImport (b : Nat) (p : List Byte) (s : State) : Ans :=
  needLen p 0x28 <|
    let f := fieldAt p
    let x := s.box b
    let t := signedOf 8 (f 0 1)
    fields [(!(t == 0 || (decide (-24 ≤ t) && decide (t ≤ -1))), 0), (!zeroAt p 1 3, 1), (f 8 8 % 4 != 0 || decide (2 ^ 50 ≤ f 8 8), 8)] <|
    if x.cst ≠ 0 || x.hasWings || x.curtain.isNone || x.outcome.isSome then x.curtainReject
    else .go fun s o =>
      let dstep := f 0x18 8
      let cs := x.coreList
      let r : StepRec :=
        { epoch := x.resolvedE, step := f 0x10 8, dstep := dstep, sample := f 0x20 8, batch := (match x.curtain with | some c => c.batch | none => 0),
          flags := 1, gens := ((List.range cs.length).zip cs).foldl (fun t (q : Nat × Nat) => (List.range 16).foldl (fun t g =>
            Tab.set {} t (q.1 * 16 + g) { (s.core q.2).gen g with step := dstep % 2 ^ 32, draw := 0 }) t) [] }
      let s := (s.updBox b fun x => { x with step := r.step, cst := 5, imp := some ⟨if t = 0 then -7 else t, f 4 4, f 8 8⟩, impPassed := none }).putStepRec b r
      (if x.launches.any (fun (l : Launch) => l.st == LaunchSt.running) then s else s.loadGens b r).endOp b o stOk

end Sys2Proof.Machine
end

