-- ==== Sys2Proof/Machine/LoaderScript.lean ====
section
/-! DEFINITION. The script loader's checks of one bundle or stream instruction at a time (06:R137, R397; 08:R189;
13:R336): descriptors, addresses fixed in the script, loops and branches, and the stream section. -/
namespace Sys2Proof.Machine

/-- Reject codes of R137. -/
def rejOccupancy : Nat := 3
def rejShadow : Nat := 4
def rejJoin : Nat := 5
def rejStandby : Nat := 6
def rejPreempt : Nat := 7
def rejSize : Nat := 8
def rejAltPair : Nat := 9
def rejDeadline : Nat := 11
def rejImage : Nat := 12
def rejLoop : Nat := 13

/-- A core's script as the loader reads it: its bundles, a NOP in place of a slot that does not decode, and its
descriptors. -/
structure Script where
  bundles : Array (List Instr)
  descs : Array (List Byte)
  deriving Repr

def Script.n (v : Script) : Nat := v.bundles.size
def Script.at (v : Script) (p : Nat) : List Instr := v.bundles.getD p []
/-- A descriptor, none at or beyond the core's count (R137 SIZE). -/
def Script.desc (v : Script) (k : Nat) : Option (List Byte) := v.descs[k]?

/-- RANGE for an address fixed in the script that breaks its alignment or runs past the end of stage memory (R132,
R137). -/
def badSpan (fixed : Bool) (addr align n : Nat) : List Nat :=
  if fixed && (addr % align ≠ 0 || decide (stageSize < addr + n)) then [rejRange] else []
/-- A code where a rule is broken. -/
def rejUnless (code : Nat) (ok : Bool) : List Nat := if ok then [] else [code]
/-- A stride is a multiple of 64 bytes (R66, R75, R77). -/
def badStride (v : Nat) : List Nat := rejUnless rejRange (v % 64 = 0)
/-- The bytes from the first row to the end of the last. -/
def rowsSpan (rows stride n : Nat) : Nat := (rows - 1) * stride + n

/-- BSCL against its format (R64, R66). -/
def bsclOk (f : Fmt) (b : Nat) : Bool :=
  if f.isBlockOnly then b = 1 else if f = .e4m3 || f = .e5m2 then true else b = 0
/-- The formats of the stationary and the streaming edge (R34, R35), fewer in a rehearsal box (16:R371). -/
def stationary (rehearsal : Bool) (f : Fmt) : Bool :=
  if rehearsal then f.isWide8 else match f with
    | .fp32 | .bi32 | .int16 | .int32 | .acc64 => false
    | _ => true
def streaming (rehearsal : Bool) (f : Fmt) : Bool :=
  stationary rehearsal f && !(f = .int4 || f = .int2)

/-- HLOAD's descriptor (R64). -/
def checkHload (reh fixed : Bool) (d : HloadD) : List Nat :=
  rejUnless rejRange (d.arr ≤ 1 && d.plane ≤ 1 && d.orient ≤ 1 && d.xmode ≤ 1 && d.group ≤ 2 && d.bscl ≤ 1)
    ++ match Fmt.ofCode d.fmt with
      | none => [rejFormat]
      | some f =>
        if !stationary reh f then [rejFormat]
        else
          let sp := hloadSpan d
          rejUnless rejFormat (bsclOk f d.bscl) ++ badSpan fixed d.src 64 sp.1
            ++ (if sp.2 = 0 then [] else badSpan fixed d.sclSrc 64 sp.2)

/-- HMUL's descriptor (R66). -/
def checkHmul (reh fixed : Bool) (d : HmulD) : List Nat :=
  rejUnless rejRange (1 ≤ d.arrs && d.arrs ≤ 3 && d.plane ≤ 1 && 1 ≤ d.rows && d.rows ≤ 512 && d.accRow ≤ 511
      && d.accMode ≤ 1 && d.bscl ≤ 1)
    ++ badStride d.stride
    ++ match Fmt.ofCode d.fmt with
      | none => [rejFormat]
      | some f =>
        if !streaming reh f then [rejFormat]
        else
          rejUnless rejFormat (bsclOk f d.bscl)
            ++ badSpan fixed d.src 64 (rowsSpan d.rows d.stride (f.klen * f.width / 8))
            ++ (if d.bscl = 1 then badSpan fixed d.xscl 1 (d.rows * (f.klen / 32)) else [])

/-- PRELOAD's descriptor (R75). -/
def checkPreload (fixed : Bool) (d : PreloadD) : List Nat :=
  rejUnless rejRange (d.arr ≤ 1 && d.accRow ≤ 511 && 1 ≤ d.rows && d.rows ≤ 512 && d.kind ≤ 1)
    ++ (if d.kind = 1 then badStride d.stride else [])
    ++ match Fmt.ofCode d.fmt with
      | some f =>
        if f = .fp32 || f = .bf16 || f = .fp16 || f = .acc64 then
          badSpan fixed d.src 64 (if d.kind = 1 then rowsSpan d.rows d.stride (16 * f.width) else 16 * f.width)
        else [rejFormat]
      | none => [rejFormat]

/-- HSAVE's and HRESTORE's descriptor (R85, R86). -/
def checkHsave (fixed : Bool) (d : HsaveD) : List Nat :=
  rejUnless rejRange (1 ≤ d.arrs && d.arrs ≤ 3 && d.firstRow ≤ 511 && 1 ≤ d.rows && d.rows ≤ 512)
    ++ badSpan fixed d.addr 0x400 ((arrsOf d.arrs).length * d.rows * 0x400)

/-- The output formats of the top-k stage (R80). -/
def topkFmt : Fmt → Bool
  | .fp32 | .bf16 | .fp16 | .e4m3 | .e5m2 | .int8 | .int16 | .int32 => true
  | _ => false

/-- HDRAIN's descriptor (R77, R80, R92, R93). Whether operands that the instruction does not use are checked too, the spec
does not say: DST, DST_STRIDE's span and SCL_DST under TOPK_ONLY, EW_SRC, EW_STRIDE and EW_FMT with EW_OP = 0, TOPK_DST
with TOPK = 0, and DERIV_SRC and DERIV_STRIDE with DERIV = 0 are not (DESIGN CHOICE, log 66). -/
def checkHdrain (fixed : Bool) (d : HdrainD) : List Nat :=
  rejUnless rejRange (d.arr ≤ 1 && d.accRow ≤ 511 && 1 ≤ d.rows && d.rows ≤ 512 && d.sat ≤ 1 && d.ovf ≤ 1
      && d.sp ≤ 31 && d.sq ≤ 31 && d.se ≤ 31 && d.ewOp ≤ 2 && d.topk ≤ 16 && d.topkOnly ≤ 1 && d.rnd ≤ 3
      && d.deriv ≤ 15)
    ++ badStride d.dstStride
    ++ rejUnless rejFormat (d.rnd ≠ 3 && !(decide (10 ≤ d.deriv) && decide (d.deriv ≤ 15)))
    ++ (match Fmt.ofCode d.fmt with
      | none => [rejFormat]
      | some f =>
        rejUnless rejFormat (f ≠ .acc64 && (d.topk = 0 || topkFmt f))
          ++ (if d.topkOnly = 1 then [] else badSpan fixed d.dst 64 (rowsSpan d.rows d.dstStride (16 * f.width)))
          ++ (if f.isBlockOnly && d.topkOnly ≠ 1 then badSpan fixed d.sclDst 1 (d.rows * 4) else []))
    ++ (if d.ewOp = 0 then []
      else badStride d.ewStride ++ match Fmt.ofCode d.ewFmt with
        | some f =>
          if f = .fp32 || f = .bf16 || f = .fp16 then
            badSpan fixed d.ewSrc 64 (rowsSpan d.rows d.ewStride (16 * f.width))
          else [rejFormat]
        | none => [rejFormat])
    ++ (if d.deriv = 0 then []
      else
        let (per, nb) := derivRow d.deriv
        badStride d.derivStride
          ++ badSpan fixed d.derivSrc 64 ((d.rows - 1) / per * d.derivStride + (d.rows - 1) % per * nb + nb))
    ++ (if d.topk = 0 then [] else badSpan fixed d.topkDst 128 (d.rows * 128))

/-- A descriptor by its index: SIZE when there is none, ENCODING when a byte after its last field is set. -/
def Script.withDesc {δ : Type} (v : Script) (k : Nat) (parse : List Byte → Option δ) (f : δ → List Nat) : List Nat :=
  match v.desc k with
  | none => [rejSize]
  | some b => match parse b with
    | none => [rejEncoding]
    | some d => f d

/-- The descriptor that an HLOAD with ALT may take in place of its own: ALT_PAIR when it differs in a field that must
agree (R137). -/
def Script.checkAlt (v : Script) (reh fixed : Bool) (k : Nat) (d : HloadD) : List Nat :=
  v.withDesc (k + 1) hloadD fun e =>
    rejUnless rejAltPair (d.arr = e.arr && d.plane = e.plane && d.orient = e.orient) ++ checkHload reh fixed e

/-- What one decoded slot breaks by itself (R137). -/
def Script.checkSlot (v : Script) (reh : Bool) : Instr → List Nat
  | .hload _ k ba alt _ => v.withDesc k.toNat hloadD fun d =>
    checkHload reh (ba = 0) d ++ (if alt then v.checkAlt reh (ba = 0) k.toNat d else [])
  | .hmul _ k ba _ => v.withDesc k.toNat hmulD (checkHmul reh (ba = 0))
  | .preload _ k ba _ => v.withDesc k.toNat preloadD (checkPreload (ba = 0))
  | .hsave _ k ba _ => v.withDesc k.toNat hsaveD (checkHsave (ba = 0))
  | .hrestore _ k ba _ => v.withDesc k.toNat hsaveD (checkHsave (ba = 0))
  | .hdrain _ k ba _ => v.withDesc k.toNat hdrainD (checkHdrain (ba = 0))
  | .jmp _ t | .brz _ _ t | .brnz _ _ t | .loop _ _ t | .loopr _ _ t | .sbreg _ _ t =>
    rejUnless rejSize (decide (t.toNat < v.n))
  | _ => []

/-- A loop of the script: its own bundle, its END, and its count where the script fixes it. -/
structure LoopAt where
  own : Nat
  last : Nat
  count : Option Nat
  deriving DecidableEq, Repr

/-- The loop that a bundle opens, if its END lies after it and inside the script. -/
def Script.loopAt (v : Script) (p : Nat) : Option LoopAt :=
  let keep (l : LoopAt) : Option LoopAt := if l.own < l.last && decide (l.last < v.n) then some l else none
  (v.at p).findSome? (fun i => match i with
    | .loop _ c t => keep ⟨p, t.toNat, some c.toNat⟩
    | .loopr _ _ t => keep ⟨p, t.toNat, none⟩
    | _ => none)

def Script.loops (v : Script) : List LoopAt := (List.range v.n).filterMap v.loopAt

/-- The loops whose bodies hold a bundle, innermost first. -/
def enclosing (ls : List LoopAt) (p : Nat) : List LoopAt :=
  (ls.filter (fun l => decide (l.own < p) && decide (p ≤ l.last))).reverse

/-- What the loops and branches of a bundle break (R397, R137 LOOP and SIZE). -/
def Script.checkControl (v : Script) (ls : List LoopAt) (p : Nat) : List Nat :=
  let branch (t : Nat) : List Nat :=
    if t < v.n then rejUnless rejLoop (enclosing ls p == enclosing ls t) else []
  let body (t : Nat) : List Nat :=
    if v.n ≤ t then []
    else if t ≤ p then [rejLoop]
    else rejUnless rejSize ((enclosing ls p).length < 4)
      ++ rejUnless rejLoop ((enclosing ls p).all (fun l => decide (t ≤ l.last)))
  (v.at p).flatMap (fun i => match i with
    | .jmp _ t | .brz _ _ t | .brnz _ _ t => branch t.toNat
    | .loop _ _ t | .loopr _ _ t => body t.toNat
    | _ => [])

/-- The codes of a list at one index. -/
def failsAt (p : Nat) (codes : List Nat) : List (Nat × Nat) := codes.map (fun c => (p, c))

/-- The script that a section's bundles and descriptors spell, with the codes of the slots that do not decode. -/
def readScript (core : Fin 128) (bundles : List (List Byte)) (descs : List (List Byte)) : Script × List (Nat × Nat) :=
  let slot (k : Nat) (b : List Byte) : Except Nat Instr := decodeSlot ⟨core, false⟩ k (fieldAt b (8 * k) 8)
  let row (b : List Byte) : List Instr := (List.range 8).filterMap (fun k => match slot k b with
    | .ok (.nop _) => none
    | .ok i => some i
    | .error _ => none)
  let bad (b : List Byte) : List Nat := (List.range 8).filterMap (fun k => match slot k b with
    | .ok _ => none
    | .error e => some e)
  (⟨(bundles.map row).toArray, descs.toArray⟩,
    (bundles.zip (List.range bundles.length)).flatMap (fun (p : List Byte × Nat) => failsAt p.2 (bad p.1)))

/-- The first failure of the bundles taken one by one, as (index, code) pairs (R137). -/
def Script.localFails (v : Script) (reh : Bool) : List (Nat × Nat) :=
  let ls := v.loops
  (List.range v.n).flatMap (fun p => failsAt p ((v.at p).flatMap (v.checkSlot reh) ++ v.checkControl ls p))

/-- What one stream instruction breaks (R189). -/
def checkStream (core : Fin 128) (n : Nat) (b : List Byte) : List Nat :=
  match decodeStream ⟨core, 0⟩ (fieldAt b 0 8) with
  | .error e => [e]
  | .ok (.streamJmp _ t) | .ok (.djnz _ _ t) => rejUnless rejRange (decide (t.toNat < n))
  | .ok _ => []

/-- The fields of a context record that the loader reads (R188). -/
structure CtxRec where
  state : Nat
  pol : Nat
  fkind : Nat
  pc : Nat
  held : Nat
  abnd : Nat
  nbuf : Nat
  nbank : Nat
  bank0 : Nat
  /-- A reserved bit is set. -/
  spare : Bool
  /-- CUES0, CUES1 with ARMED, or the conversion record is not 0. -/
  used : Bool
  deriving DecidableEq, Repr

def ctxRec (b : List Byte) : CtxRec :=
  let st0 := fieldAt b 0 4
  let st1 := fieldAt b 4 4
  { state := bitsOf st0 31 28, pol := bitsOf st0 27 26, fkind := bitsOf st0 19 16, pc := bitsOf st0 11 0
    held := bitsOf st1 31 24, abnd := bitsOf st1 23 16, nbuf := bitsOf st1 15 13, nbank := bitsOf st1 9 6
    bank0 := bitsOf st1 5 0
    spare := bitsOf st0 15 12 ≠ 0 || bitsOf (fieldAt b 8 4) 31 30 ≠ 0 || bitsOf (fieldAt b 12 4) 31 26 ≠ 0
      || bitsOf (fieldAt b 20 4) 31 18 ≠ 0 || bitsOf (fieldAt b 28 4) 31 18 ≠ 0
    used := bitsOf (fieldAt b 8 4) 29 0 ≠ 0 || bitsOf (fieldAt b 12 4) 25 0 ≠ 0 || !zeroAt b 0x2C 20 }

/-- The banks of every buffer of a record, in order. -/
def CtxRec.banks (r : CtxRec) : List Nat := (List.range ((r.nbuf + 1) * (r.nbank + 1))).map (· + r.bank0)

/-- What a context record breaks by itself (R189); a record of zeros is an idle context with no buffers. -/
def checkCtx (n : Nat) (b : List Byte) : List Nat :=
  if zeroAt b 0 64 then []
  else
    let r := ctxRec b
    rejUnless rejEncoding (!r.spare)
      ++ rejUnless rejRange (r.state ≤ 1 && r.fkind = 0 && r.abnd = 0 && !r.used
        && (decide (r.pc < n) || (r.state = 0 && r.pc = 0)) && r.held / 2 ^ (r.nbuf + 1) = 0 && r.pol ≠ 3
        && !(r.pol = 2 && r.nbuf % 2 = 0) && r.banks.all (fun k => decide (k < 64)))

/-- RANGE at each record one of whose banks an earlier record has (R189). -/
def sharedBanks : Nat → List Nat → List (List Byte) → List (Nat × Nat)
  | _, _, [] => []
  | x, used, b :: t =>
    let bs := if zeroAt b 0 64 then [] else (ctxRec b).banks
    failsAt x (rejUnless rejRange (bs.all (fun k => !used.contains k))) ++ sharedBanks (x + 1) (used ++ bs) t

/-- The failures of a stream section (R189). -/
def streamFails (core : Fin 128) (prog recs : List (List Byte)) : List (Nat × Nat) :=
  let n := prog.length
  (prog.zip (List.range n)).flatMap (fun (p : List Byte × Nat) => failsAt p.2 (checkStream core n p.1))
    ++ (recs.zip (List.range recs.length)).flatMap (fun (p : List Byte × Nat) => failsAt p.2 (checkCtx n p.1))
    ++ sharedBanks 0 [] recs

end Sys2Proof.Machine
end

