-- ==== Sys2Proof/Machine/LoaderPaths.lean ====
section
/-! DEFINITION. The script loader's tracking of every path (06:R134, R135, R137, R147, R397; 03:R396): unit occupancy,
pending writes and reads in flight in script cycles (log 57), plane formats, preemption-free lengths, fixed deadlines
and stand-by segments. -/
namespace Sys2Proof

/-- The registers that operand forms read. -/
def BOp.sregs : BOp → List Nat
  | .reg r => [r.val]
  | .imm _ => []
def VB.sregs : VB → List Nat
  | .scal r => [r.val]
  | .vec _ => []
def VB.vregs : VB → List Nat
  | .vec r => [r.val]
  | .scal _ => []
def VEn.mregs (e : VEn) : List Nat := if e.masked then [e.m.val] else []
def Dl.sregs : Dl → List Nat
  | .reg r => [r.val]
  | .off _ => []

end Sys2Proof

namespace Sys2Proof.Machine

/-- Accesses of one instruction, row by row: row j covers `len` places from `lo + j × stride` of a space, `off` +
j × `step` cycles after issue; for a write that is the cycle from which its result is there. -/
structure RowAcc where
  sp : Nat
  lo : Nat
  len : Nat
  off : Nat
  stride : Nat := 0
  count : Nat := 1
  step : Nat := 0
  deriving DecidableEq, Repr

/-- The spaces: scalar, vector and mask registers, planes (array × 2 + plane), accumulator rows (array × 512 + row),
stage memory at addresses fixed in the script; and, with a base register, stage memory and accumulator rows whose
place is not fixed. -/
def spS : Nat := 0
def spV : Nat := 1
def spM : Nat := 2
def spPlane : Nat := 3
def spAcc : Nat := 4
def spStage : Nat := 5
/-- Stream contexts (R147). -/
def spCtx : Nat := 6
def spStageBase (ba : Nat) : Nat := if ba = 0 then spStage else 64 + ba
def spAccBase (bb : Nat) : Nat := if bb = 0 then spAcc else 128 + bb

/-- What an instruction occupies, reads and writes. Units are numbered: 0 and 1 plane loaders, 2 and 3 row issue, 4
and 5 accumulator write ports, 6 and 7 accumulator read ports, 8 VX, 9 VL, 10 VS (R105, R106, R135). -/
structure Effect where
  units : List (Nat × Nat) := []
  reads : List RowAcc := []
  writes : List RowAcc := []
  deriving DecidableEq, Repr

/-- Register reads at issue. -/
def readsOf (sp : Nat) (rs : List Nat) : List RowAcc := rs.map (fun r => ⟨sp, r, 1, 0, 0, 1, 0⟩)
/-- A register result after a latency. -/
def wr (sp r lat : Nat) : RowAcc := ⟨sp, r, 1, lat, 0, 1, 0⟩
/-- An effect on registers alone. -/
def regs (s v m : List Nat) (w : List RowAcc) : Effect :=
  { reads := readsOf spS s ++ readsOf spV v ++ readsOf spM m, writes := w }

/-- A base register, which S0 cannot be (R132). -/
def baseRegs (bs : List (Fin 32)) : List Nat := (bs.filter (· ≠ 0)).map (·.val)

def scal2 (lat : Nat) (d a : Fin 32) (b : BOp) : Effect := regs (a.val :: b.sregs) [] [] [wr spS d.val lat]
def vec2E (lat : Nat) (e : VEn) (d a : Fin 32) (b : VB) : Effect :=
  regs b.sregs (a.val :: b.vregs) e.mregs [wr spV d.val lat]
def vec1E (lat : Nat) (e : VEn) (d a : Fin 32) : Effect := regs [] [a.val] e.mregs [wr spV d.val lat]

/-- The vector unit an instruction takes, and for how many cycles (R105, R106). -/
def vecUnits : Instr → List (Nat × Nat)
  | .vdiv .. | .vsqrt .. | .vrsqrt .. | .vrecip .. | .vexp2 .. | .vlog2 .. => [(8, 4)]
  | .vmov .. | .vbcast .. | .viota .. | .vand .. | .vor .. | .vxor .. | .vnot .. | .vshl .. | .vshr .. | .vsra .. | .vsmv ..
  | .vmvs .. | .vsetlen .. | .viadd .. | .visub .. | .vimin .. | .vimax .. | .vimul .. | .vcmp .. | .vmand .. | .vmor ..
  | .vmxor .. | .vmnot .. | .vpopc .. | .vadd .. | .vsub .. | .vmul .. | .vfma .. | .vmin .. | .vmax .. | .vabs .. | .vneg ..
  | .vcvt .. | .vperm .. | .vcompress .. | .vexpand .. | .vcidx .. | .vrsum .. | .vrssq .. | .vrmax .. | .vrmin ..
  | .vrtopk .. | .vrand .. | .vrand4 .. | .vrandu .. | .vrandm .. | .vadamw .. | .vamax .. | .vgset .. | .vgget ..
  | .vgbind .. => [(8, 1)]
  | .vld .. | .vldm .. => [(9, 1)]
  | .vldt _ _ _ _ _ _ n => [(9, n.val + 1)]
  | .vst .. | .vstm .. => [(10, 1)]
  | _ => []

/-- Registers read and written by an instruction that touches no descriptor, with the fixed stage-memory accesses of
the vector loads and stores and of the records, and a CRET's context (R105, R108, R114, R131, R133, R134, R147). -/
def regEffect : Instr → Effect
  | .brz _ a _ | .brnz _ a _ | .loopr _ a _ => regs [a.val] [] [] []
  | .cret _ x _ _ d =>
    let r := regs d.sregs [] [] [wr spCtx x.val 1]
    { r with reads := ⟨spCtx, x.val, 1, 0, 0, 1, 0⟩ :: r.reads }
  | .carm _ _ _ d => regs d.sregs [] [] []
  | .cpost _ _ _ r => regs [r.val, r.val + 1] [] [] []
  | .sli _ d _ => regs [] [] [] [wr spS d.val 1]
  | .smov _ d a => regs [a.val] [] [] [wr spS d.val 1]
  | .sadd _ d a b | .ssub _ d a b | .sand _ d a b | .sor _ d a b | .sxor _ d a b | .sshl _ d a b | .sshr _ d a b
  | .ssra _ d a b | .scmp _ _ d a b => scal2 1 d a b
  | .smul _ d a b => scal2 3 d a b
  | .sfadd _ d a b | .sfsub _ d a b | .sfmul _ d a b | .sfmin _ d a b | .sfmax _ d a b => scal2 4 d a b
  | .sffma _ d a b => regs (d.val :: a.val :: b.sregs) [] [] [wr spS d.val 4]
  | .sld _ d a _ => regs [a.val] [] [] [wr spS d.val 4]
  | .sst _ d a _ => regs [d.val, a.val] [] [] [⟨spStageBase 32, 0, 4, 3, 0, 1, 0⟩]
  | .scyc _ d => regs [] [] [] [wr spS d.val 1]
  | .hamax _ _ _ d | .vamax _ _ d _ => { writes := [⟨spStage, d.toNat, 32, 2, 0, 1, 0⟩] }
  | .hdparam _ _ s => regs [s.val] [] [] []
  | .vmov _ e d s => vec1E 2 e d s
  | .vbcast _ e d a => regs [a.val] [] e.mregs [wr spV d.val 2]
  | .viota _ e d => regs [] [] e.mregs [wr spV d.val 2]
  | .vand _ e d a b | .vor _ e d a b | .vxor _ e d a b | .vshl _ e d a b | .vshr _ e d a b | .vsra _ e d a b
  | .viadd _ e d a b _ | .visub _ e d a b _ | .vimin _ e d a b | .vimax _ e d a b => vec2E 2 e d a b
  | .vnot _ e d a => vec1E 2 e d a
  | .vsmv _ e d a _ => regs [a.val] [] e.mregs [wr spV d.val 2]
  | .vmvs _ _ d s _ => regs [] [s.val] [] [wr spS d.val 2]
  | .vsetlen _ im a _ => regs (if im then [] else [a.val]) [] [] []
  | .vimul _ e d a b _ => vec2E 4 e d a b
  | .vcmp _ e d a b _ _ => regs b.sregs (a.val :: b.vregs) e.mregs [wr spM d.val 2]
  | .vmand _ e d a b | .vmor _ e d a b | .vmxor _ e d a b => regs [] [] (a.val :: b.val :: e.mregs) [wr spM d.val 2]
  | .vmnot _ e d a => regs [] [] (a.val :: e.mregs) [wr spM d.val 2]
  | .vpopc _ e d a => regs [] [] (a.val :: e.mregs) [wr spS d.val 2]
  | .vadd _ e d a b _ _ | .vsub _ e d a b _ _ | .vmul _ e d a b _ _ | .vmin _ e d a b _ _ | .vmax _ e d a b _ _ =>
    vec2E 4 e d a b
  | .vfma _ e d a b k _ _ => regs [] [a.val, b.val, k.val] e.mregs [wr spV d.val 4]
  | .vabs _ e d a _ | .vneg _ e d a _ => vec1E 4 e d a
  | .vdiv _ e d a b _ _ => vec2E 14 e d a b
  | .vsqrt _ e d a _ _ | .vrsqrt _ e d a _ _ | .vrecip _ e d a _ _ | .vexp2 _ e d a _ _ | .vlog2 _ e d a _ _ =>
    vec1E 14 e d a
  | .vcvt _ e o =>
    regs ([o.sp.val, o.sq.val] ++ (if o.fmtS = .bi32 || o.fmtD = .bi32 then [o.se.val] else [])) [o.vs.val] e.mregs
      [wr spV o.vd.val 4]
  | .vperm _ e d s x => regs [] [s.val, x.val] e.mregs [wr spV d.val 6]
  | .vcompress _ e d s m k => regs [] [s.val] (m.val :: e.mregs) [wr spV d.val 6, wr spS k.val 6]
  | .vexpand _ e d s m => regs [] [s.val] (m.val :: e.mregs) [wr spV d.val 6]
  | .vcidx _ e d m k => regs [] [] (m.val :: e.mregs) [wr spV d.val 6, wr spS k.val 6]
  | .vrsum _ e d s f _ _ wd | .vrssq _ e d s f _ _ wd =>
    regs [] [s.val] e.mregs (wr spS d.val 10 :: (if wd && !f.isFloat then [wr spS (d.val + 1) 10] else []))
  | .vrmax _ e d s _ | .vrmin _ e d s _ => regs [] [s.val] e.mregs [wr spS d.val 8, wr spS (d.val + 1) 8]
  | .vrtopk _ e d s _ _ k _ => regs [] [s.val] e.mregs [wr spV d.val 12, wr spS k.val 12]
  | .vrand _ e d _ | .vrandu _ e d _ => regs [] [] e.mregs [wr spV d.val 6]
  | .vrand4 _ e d _ => regs [] [] e.mregs ((List.range 4).map (fun j => wr spV (d.val + j) 6))
  | .vrandm _ e d _ s => regs [s.val] [] e.mregs [wr spM d.val 6]
  | .vadamw _ e o =>
    regs ((List.range 11).map (· + o.sb.val)) [o.va.val, o.vb.val, o.vc.val] e.mregs
      (wr spV o.va.val 24 :: wr spV o.vc.val 24 :: (if o.fmtC.isSome then [wr spV o.vd.val 24] else []))
  | .vgset _ _ f a b => regs (if f.toNat = 0 || f.toNat = 3 then [a.val, b.val] else [a.val]) [] [] []
  | .vgget _ _ a b => regs [] [] [] [wr spS a.val 1, wr spS b.val 1]
  | .vld _ e d a =>
    let r := regs [] [] e.mregs [wr spV d.val 4]
    { r with reads := ⟨spStage, a.toNat, 512, 0, 0, 1, 0⟩ :: r.reads }
  | .vldt _ e d _ s _ n =>
    regs [s.val] [] e.mregs ((List.range (n.val + 1)).map (fun j => wr spV (d.val + j) (n.val + 5)))
  | .vldm _ e d a =>
    let r := regs [] [] e.mregs [wr spM d.val 4]
    { r with reads := ⟨spStage, a.toNat, e.w.lmax / 8, 0, 0, 1, 0⟩ :: r.reads }
  | .vst _ e s a => regs [] [s.val] e.mregs [⟨spStage, a.toNat, 512, 3, 0, 1, 0⟩]
  | .vstm _ e m a => regs [] [] (m.val :: e.mregs) [⟨spStage, a.toNat, e.w.lmax / 8, 3, 0, 1, 0⟩]
  | _ => {}

/-- Rows of an accumulator from a row on, modulo 512: the rows before and after the wrap. -/
def accRows (bb arr row rows off step : Nat) : List RowAcc :=
  let k := min rows (512 - row)
  let base := arr * 512
  ⟨spAccBase bb, base + row, 1, off, 1, k, step⟩ ::
    (if rows ≤ k then [] else [⟨spAccBase bb, base, 1, off + k * step, 1, rows - k, step⟩])

/-- What each plane holds on a path: the bundle of the HLOAD that loaded it and the format or, under ALT, formats it
may have (R396). -/
abbrev PlaneFacts := List (Nat × (Nat × List Fmt))

def planeFact (fs : PlaneFacts) (k : Nat) : Option (Nat × List Fmt) := (fs.find? (fun p => p.1 == k)).map (·.2)

/-- The formats the loader checks an HMUL against, plane by plane, none where no HLOAD of the path loaded the plane. -/
def mulFacts (fs : PlaneFacts) (d : HmulD) : List (Option (Nat × List Fmt)) :=
  (arrsOf d.arrs).map (fun a => planeFact fs (a * 2 + d.plane))

/-- The mode the loader finds for a streaming format and an HLOAD's FMT_W (R35, R396): INT4 and INT2 pair only with the
formats that R35 lists for them. -/
def loaderMode (x w : Fmt) : Option HMode :=
  if w = .int4 || w = .int2 then (if x.isWide8 then some .single else none) else hmode x w

/-- The modes a plane may set for a streaming format. -/
def factModes (x : Fmt) : Option (Nat × List Fmt) → List (Option HMode)
  | some (_, fs) => fs.map (loaderMode x)
  | none => [hmodeAlone x]

/-- The mode the loader takes for an HMUL (R396). -/
def mulModeAt (fs : PlaneFacts) (d : HmulD) : HMode :=
  match ((mulFacts fs d).map (factModes (fmtOf d.fmt))).headD [] with
  | some m :: _ => m
  | _ => .single

/-- FORMAT at the HMUL, and ALT_PAIR at the HLOAD, for the pairing and mode on this path (R137, R396). Where ARRS = 0b11
and the path loads one of the two planes, which R396 leaves open, that plane's mode must be the one that FMT_X gives for
the other (DESIGN CHOICE, log 66). -/
def mulFails (fs : PlaneFacts) (p : Nat) (d : HmulD) : List (Nat × Nat) :=
  let x := fmtOf d.fmt
  let ms := (mulFacts fs d).map (fun f => (f, factModes x f))
  let first := (ms.map (fun m => m.2.headD none)).headD none
  failsAt p (rejUnless rejFormat (ms.all (fun m => m.2.all Option.isSome && m.2.headD none == first)))
    ++ ms.flatMap (fun m => match m.1 with
      | some (h, _) => if m.2.all Option.isSome && m.2.any (· != m.2.headD none) then [(h, rejAltPair)] else []
      | none => [])

/-- Array instructions (R64, R66, R73, R75, R77, R78, R85, R134, R135). -/
def Script.effect (v : Script) (fs : PlaneFacts) : Instr → Effect
  | .hload _ k ba alt _ =>
    match (v.desc k.toNat).bind hloadD with
    | none => {}
    | some d =>
      let took (e : HloadD) : List RowAcc :=
        let sp := hloadSpan e
        ⟨spStageBase ba.val, e.src, sp.1, 0, 0, 1, 0⟩ :: (if sp.2 = 0 then [] else [⟨spStageBase ba.val, e.sclSrc, sp.2, 0, 0, 1, 0⟩])
      let q := d.arr * 2 + d.plane
      { units := [(d.arr, 64)]
        reads := readsOf spS (baseRegs [ba]) ++ took d
          ++ (if alt then (match (v.desc (k.toNat + 1)).bind hloadD with | some e => took e | none => []) else [])
        writes := [⟨spPlane, q, 1, 64, 0, 1, 0⟩] }
  | .hmul _ k ba bb =>
    match (v.desc k.toNat).bind hmulD with
    | none => {}
    | some d =>
      let f := fmtOf d.fmt
      let dbl := mulModeAt fs d = .double
      let st := if dbl then 2 else 1
      let as := arrsOf d.arrs
      { units := as.map (fun a => (2 + a, d.rows * st))
        reads := readsOf spS (baseRegs [ba, bb]) ++ as.map (fun a => ⟨spPlane, a * 2 + d.plane, 1, 0, 0, 1, 0⟩)
          ++ [⟨spStageBase ba.val, d.src, f.klen * f.width / 8, 0, d.stride, d.rows, st⟩]
          ++ (if d.bscl = 1 then [⟨spStageBase ba.val, d.xscl, f.klen / 32, 0, f.klen / 32, d.rows, st⟩] else [])
          ++ (if d.accMode = 1 then as.flatMap (fun a => accRows bb.val a d.accRow d.rows (if dbl then 12 else 11) st)
            else [])
        writes := as.flatMap (fun a => accRows bb.val a d.accRow d.rows (if dbl then 15 else 14) st) }
  | .preload _ k ba bb =>
    match (v.desc k.toNat).bind preloadD with
    | none => {}
    | some d =>
      let n := 16 * (fmtOf d.fmt).width
      { units := [(4 + d.arr, d.rows)]
        reads := readsOf spS (baseRegs [ba, bb])
          ++ [⟨spStageBase ba.val, d.src, n, 0, d.stride, if d.kind = 1 then d.rows else 1, 1⟩]
        writes := accRows bb.val d.arr d.accRow d.rows 3 1 }
  | .hsave _ k ba bb =>
    match (v.desc k.toNat).bind hsaveD with
    | none => {}
    | some d =>
      let as := arrsOf d.arrs
      { units := as.map (fun a => (6 + a, 8 * d.rows))
        reads := readsOf spS (baseRegs [ba, bb]) ++ as.flatMap (fun a => accRows bb.val a d.firstRow d.rows 0 8)
        writes := (List.range as.length).map (fun m =>
          ⟨spStageBase ba.val, d.addr + m * d.rows * 0x400, 0x400, 10, 0x400, d.rows, 8⟩) }
  | .hrestore _ k ba bb =>
    match (v.desc k.toNat).bind hsaveD with
    | none => {}
    | some d =>
      let as := arrsOf d.arrs
      { units := as.map (fun a => (4 + a, 8 * d.rows))
        reads := readsOf spS (baseRegs [ba, bb]) ++ (List.range as.length).map (fun m =>
          ⟨spStageBase ba.val, d.addr + m * d.rows * 0x400, 128, 0, 128, 8 * d.rows, 1⟩)
        writes := as.flatMap (fun a => accRows bb.val a d.firstRow d.rows 10 8) }
  | .hdrain _ k ba bb =>
    match (v.desc k.toNat).bind hdrainD with
    | none => {}
    | some d =>
      let f := fmtOf d.fmt
      let sb := spStageBase ba.val
      let (per, nb) := derivRow d.deriv
      { units := [(6 + d.arr, d.rows)]
        reads := readsOf spS ([d.sp, d.sq] ++ (if f = .bi32 then [d.se] else []) ++ baseRegs [ba, bb])
          ++ accRows bb.val d.arr d.accRow d.rows 0 1
          ++ (if d.ewOp = 0 then [] else [⟨sb, d.ewSrc, 16 * (fmtOf d.ewFmt).width, 1, d.ewStride, d.rows, 1⟩])
          ++ (if d.deriv = 0 then [] else (List.range (min per d.rows)).map (fun i =>
            ⟨sb, d.derivSrc + i * nb, nb, 3 + i, d.derivStride, (d.rows - i + per - 1) / per, per⟩))
        writes := (if d.topkOnly = 1 then [] else [⟨sb, d.dst, 16 * f.width, 9, d.dstStride, d.rows, 1⟩])
          ++ (if f.isBlockOnly && d.topkOnly ≠ 1 then [⟨sb, d.sclDst, 4, 9, 4, d.rows, 1⟩] else [])
          ++ (if d.topk = 0 then [] else [⟨sb, d.topkDst, 128, 9, 128, d.rows, 1⟩]) }
  | i => { regEffect i with units := vecUnits i }

/-- The pipelines at a bundle's issue cycle: cycles left of each occupied unit, pending writes with the cycles until
their results, reads still to come, and what the planes hold. -/
structure PipeSt where
  units : List (Nat × Nat) := []
  writes : List RowAcc := []
  reads : List RowAcc := []
  planes : PlaneFacts := []
  deriving DecidableEq, Repr

/-- One cycle of rows: a row whose cycle has come is gone (`keep` = 1) or, for a write, counts down to its result. -/
def RowAcc.age (a : RowAcc) : Option RowAcc :=
  let next : RowAcc := { a with lo := a.lo + a.stride, count := a.count - 1 }
  if a.off = 0 then
    (if a.count ≤ 1 then none else if a.step = 0 then some next else some { next with off := a.step - 1 })
  else some { a with off := a.off - 1 }

/-- Pending writes whose result has come drop out. -/
def RowAcc.ageWrite (a : RowAcc) : Option RowAcc :=
  if a.off ≤ 1 then (if a.count ≤ 1 then none else some { a with lo := a.lo + a.stride, count := a.count - 1, off := a.step })
  else some { a with off := a.off - 1 }

/-- A key that orders accesses, so that equal sets of pending writes are equal lists. -/
def RowAcc.key (a : RowAcc) : Nat :=
  [a.lo, a.len, a.off, a.stride, a.count, a.step].foldl (fun k x => k * 2 ^ 40 + x) a.sp

/-- One script cycle passes. -/
def PipeSt.age (s : PipeSt) : PipeSt :=
  { s with
    units := s.units.filterMap (fun u => if u.2 ≤ 1 then none else some (u.1, u.2 - 1))
    writes := sortBy RowAcc.key (s.writes.filterMap RowAcc.ageWrite)
    reads := sortBy RowAcc.key (s.reads.filterMap RowAcc.age) }

/-- Two ranges of one space overlap. -/
def rangesMeet (sp lo n sp' lo' n' : Nat) : Bool := sp = sp' && decide (lo < lo' + n') && decide (lo' < lo + n)

/-- Whether a range meets a row that an access still has to make. -/
def RowAcc.meets (a : RowAcc) (sp lo n : Nat) : Bool :=
  a.sp = sp && (List.range a.count).any (fun j => rangesMeet a.sp (a.lo + j * a.stride) a.len sp lo n)

/-- The spaces whose reads SHADOW concerns: registers, masks and stage memory fixed in the script. Planes and
accumulator rows are interlocked (R82). -/
def shadowed (sp : Nat) : Bool := sp = spS || sp = spV || sp = spM || sp = spStage

/-- A read of this cycle that lies in the shadow of a pending write. -/
def inShadow (ws : List RowAcc) (r : RowAcc) : Bool :=
  r.off = 0 && shadowed r.sp && ws.any (fun w => w.meets r.sp r.lo r.len)

/-- Units taken one after another by the slots of a bundle, and whether one was occupied. -/
def takeUnits (us : List (Nat × Nat)) : List (Nat × Nat) → List (Nat × Nat) × Bool
  | [] => (us, false)
  | u :: t =>
    let r := takeUnits (insertBy (·.1) u us) t
    (r.1, r.2 || us.any (fun x => x.1 == u.1))

/-- A bundle issues: what it breaks, and the pipelines in its cycle after issue (R137). -/
def Script.issueAt (v : Script) (p : Nat) (s : PipeSt) : List (Nat × Nat) × PipeSt :=
  let is := v.at p
  let es := is.map (v.effect s.planes)
  let (us, occ) := takeUnits s.units (es.flatMap (·.units))
  let reads := es.flatMap (·.reads)
  let busy := !(s.units.isEmpty && s.writes.isEmpty && s.reads.isEmpty)
  let fails := failsAt p (rejUnless rejOccupancy (!occ)
      ++ rejUnless rejShadow (!(s.reads ++ reads).any (inShadow s.writes))
      ++ rejUnless rejPreempt (!(hasPpoint is && busy)))
    ++ is.flatMap (fun i => match i with
      | .hmul _ k _ _ => (match (v.desc k.toNat).bind hmulD with | some d => mulFails s.planes p d | none => [])
      | _ => [])
  let planes := is.foldl (fun fs i => match i with
    | .hload _ k _ alt _ => (match (v.desc k.toNat).bind hloadD with
      | some d =>
        let alts := if alt then (match (v.desc (k.toNat + 1)).bind hloadD with | some e => [fmtOf e.fmt] | none => [])
          else []
        let q := d.arr * 2 + d.plane
        insertBy (·.1) (q, (p, fmtOf d.fmt :: alts)) (fs.filter (fun x => x.1 ≠ q))
      | none => fs)
    | _ => fs) s.planes
  (fails, { units := us, writes := s.writes ++ es.flatMap (·.writes), reads := s.reads ++ reads, planes := planes })

/-- The pipelines run dry after a HALT: SHADOW where a read still to come meets a write still pending. -/
def drainFails (p : Nat) : Nat → PipeSt → List (Nat × Nat)
  | 0, _ => []
  | fuel + 1, s =>
    if s.reads.isEmpty || s.writes.isEmpty then []
    else failsAt p (rejUnless rejShadow (!s.reads.any (inShadow s.writes))) ++ drainFails p fuel s.age

/-- The bundles that may follow a bundle that ends there, with the loops that end at it (R397). -/
def afterEnd (ls : List LoopAt) (p : Nat) : List Nat :=
  (p + 1) :: (ls.filter (fun l => l.last = p && l.count ≠ some 0 && l.count ≠ some 1)).map (fun l => l.own + 1)

/-- The bundles that may follow a bundle on a path (R136, R397); a branch beyond the script is not followed. -/
def Script.nexts (v : Script) (ls : List LoopAt) (p : Nat) : List Nat :=
  let is := v.at p
  let along := afterEnd ls p
  if hasHalt is || hasSbret is then []
  else is.foldl (fun acc i => match i with
    | .jmp _ t => if t.toNat < v.n then [t.toNat] else []
    | .brz _ _ t | .brnz _ _ t => if t.toNat < v.n then t.toNat :: along else along
    | .loop _ _ _ | .loopr _ _ _ => (match v.loopAt p with
      | some l => (match l.count with
        | some 0 => (afterEnd ls l.last).filter (· ≠ p + 1)
        | some _ => [p + 1]
        | none => (p + 1) :: afterEnd ls l.last)
      | none => acc)
    | _ => acc) along

/-- What the walk has found: the pipelines that reached each bundle, those that reached it on a path through a stand-by
segment, and the failures. -/
structure Walk where
  seen : Array (List PipeSt)
  after : Array (List PipeSt)
  fails : List (Nat × Nat) := []
  deriving Repr

/-- A place of a walk: the bundle, the pipelines at it, whether the path has been through a stand-by segment, and whether
the bundle is a CWAIT issued again after one. -/
structure WalkPt where
  p : Nat
  s : PipeSt
  aft : Bool
  again : Bool
  deriving Repr

/-- Every path from a list of places, each bundle under each state once. `main` says whether SBRET is a failure (R137
STANDBY); `miss p s again` gives what the stand-by segments break that a miss at bundle `p` may run, and the pipelines
with which they leave it (R145). JOIN compares paths that run no segment. -/
def Script.walk (v : Script) (ls : List LoopAt) (main : Bool)
    (miss : Nat → PipeSt → Bool → List (Nat × Nat) × List PipeSt) : Nat → List WalkPt → Walk → Walk
  | 0, _, w => w
  | _ + 1, [], w => w
  | fuel + 1, x :: todo, w =>
    let p := x.p
    let s := x.s
    if v.n ≤ p then Script.walk v ls main miss fuel todo { w with fails := (v.n - 1, rejSize) :: w.fails }
    else
      let old := w.seen.getD p []
      let same := match old with | [] => true | o :: _ => o.units = s.units && o.writes = s.writes
      if !x.aft && !same then Script.walk v ls main miss fuel todo { w with fails := (p, rejJoin) :: w.fails }
      else if old.contains s || (x.aft && (w.after.getD p []).contains s) then Script.walk v ls main miss fuel todo w
      else
        let (fs, s') := v.issueAt p s
        let is := v.at p
        let m := miss p s x.again
        let fs := fs ++ (if main && hasSbret is then [(p, rejStandby)] else [])
          ++ (if hasHalt is then drainFails p 8192 s'.age else []) ++ m.1
        let next := (v.nexts ls p).map (fun q => (⟨q, s'.age, x.aft, false⟩ : WalkPt))
        let back := m.2.map (fun t => (⟨p, t, true, true⟩ : WalkPt))
        let w := if x.aft then { w with after := w.after.modify p (fun o => o ++ [s]) }
          else { w with seen := w.seen.modify p (fun o => o ++ [s]) }
        Script.walk v ls main miss fuel (next ++ back ++ todo) { w with fails := fs ++ w.fails }

/-- More steps than any walk of a script takes. -/
def walkFuel : Nat := 2 ^ 48

def Script.walkFrom (v : Script) (ls : List LoopAt) (main : Bool)
    (miss : Nat → PipeSt → Bool → List (Nat × Nat) × List PipeSt) (x : WalkPt) : Walk :=
  v.walk ls main miss walkFuel [x] { seen := Array.replicate v.n [], after := Array.replicate v.n [] }

/-- Longest lengths without a PPOINT, HALT or CWAIT: from the start of a region, and from the last such bundle in
it. -/
structure Reach where
  thru : Option Nat := none
  since : Option Nat := none
  deriving DecidableEq, Repr

def optMax : Option Nat → Option Nat → Option Nat
  | some a, some b => some (max a b)
  | some a, none => some a
  | none, b => b
/-- Lengths are counted up to just past the limit of 2^24 cycles (R137). -/
def lenCap (n : Nat) : Nat := min n (2 ^ 24 + 1)
def Reach.join (a b : Reach) : Reach := ⟨optMax a.thru b.thru, optMax a.since b.since⟩
def Reach.plus (a : Reach) (n : Nat) : Reach := ⟨a.thru.map (fun x => lenCap (x + n)), a.since.map (fun x => lenCap (x + n))⟩
/-- `n` iterations of a body, n ≥ 1. -/
def Reach.rounds (a body : Reach) (n : Nat) : Reach :=
  match body.thru with
  | some t => ⟨(a.plus (n * t)).thru, optMax (a.plus (n * t)).since (body.since.map (fun r => lenCap (r + (n - 1) * t)))⟩
  | none => ⟨none, body.since⟩

/-- A bundle that ends a preemption-free length. -/
def endsLength (is : List Instr) : Bool := hasPpoint is || (waitOf is).isSome

/-- Values waiting at bundles, and the one for a bundle. -/
def popReach (p : Nat) (pend : List (Nat × Reach)) : Reach × List (Nat × Reach) :=
  ((pend.filter (fun x => x.1 = p)).foldl (fun a x => a.join x.2) {}, pend.filter (fun x => x.1 ≠ p))

/-- What a region gives: the lengths at its exit, its bundles that pass the limit, and the lengths that its backward
branches bring to their targets. -/
structure Lengths where
  out : Reach
  late : List Nat := []
  back : List (Nat × Reach) := []
  deriving Repr

/-- Rounds over a region until its backward branches bring nothing new: at most one for each branch and one more. -/
def settleLengths (round : List (Nat × Reach) → Lengths) : Nat → Lengths → Lengths
  | 0, r => r
  | k + 1, r =>
    if r.back.isEmpty then r
    else
      let r' := round r.back
      if r'.back = r.back then r' else settleLengths round k r'

/-- A LOOPR's count is bounded by its 24 bits alone (R131). -/
def looprMax : Nat := 2 ^ 24 - 1

/-- The lengths through bundles `p` to `hi` at one nesting level (log 57): the lengths at the exit, and every bundle,
body included, that passes the limit when the region starts `w` cycles into a length. What a backward branch brings to
its target is an arrival there in a further round over the region; an endless cycle is `Script.endless`'s. -/
def Script.region (v : Script) (w hi : Nat) : Nat → Nat → List (Nat × Reach) → Lengths
  | 0, _, _ => { out := {} }
  | fuel + 1, p, pend =>
    let (x, rest) := popReach p pend
    if hi < p then { out := x }
    else
      let is := v.at p
      let y : Reach := if endsLength is then ⟨none, some 0⟩ else x.plus 1
      let reached := x.thru.isSome || x.since.isSome
      let total (r : Reach) : Nat := (optMax (r.thru.map (· + w)) r.since).getD 0
      let late := if reached && !endsLength is && !hasHalt is && decide (2 ^ 24 < total y) then [p] else []
      let go (q : Nat) (more : List (Nat × Reach)) : Lengths :=
        let r := Script.region v w hi fuel q (more ++ rest)
        { r with late := late ++ r.late }
      if !reached then go (match v.loopAt p with | some l => if l.last ≤ hi then l.last + 1 else p + 1 | none => p + 1) []
      else if hasHalt is || hasSbret is then go (p + 1) []
      else match v.loopAt p with
        | some l =>
          if hi < l.last then go (p + 1) [(p + 1, y)]
          else match l.count with
            | some 0 => go (l.last + 1) [(l.last + 1, y)]
            | c =>
              let n := c.getD looprMax
              let body (u : Nat) : Lengths :=
                settleLengths (fun back => Script.region v u l.last fuel (p + 1) ((p + 1, ⟨some 0, none⟩) :: back)) v.n
                  (Script.region v u l.last fuel (p + 1) [(p + 1, ⟨some 0, none⟩)])
              let once := (body 0).out
              let before := if n = 1 then y else (y.join (y.rounds once (n - 1)))
              let inner := body (total before)
              let out := y.rounds once n
              let r := go (l.last + 1) ((l.last + 1, out) :: (if c.isNone then [(l.last + 1, y)] else []))
              { r with late := inner.late ++ r.late }
        | none =>
          let hop (t : Nat) : List (Nat × Reach) := if p < t && t ≤ hi then [(t, y)] else []
          let steps : List (Nat × Reach) := is.foldl (fun acc i => match i with
            | .jmp _ t => hop t.toNat
            | .brz _ _ t | .brnz _ _ t => hop t.toNat ++ acc
            | _ => acc) [(p + 1, y)]
          let r := go (p + 1) steps
          let back := is.flatMap (fun i => match i with
            | .jmp _ t | .brz _ _ t | .brnz _ _ t => if t.toNat ≤ p then [(t.toNat, y)] else []
            | _ => [])
          { r with back := back ++ r.back }

/-- The whole script's lengths, its backward branches' arrivals included. -/
def Script.lengths (v : Script) : Lengths :=
  let start : Nat × Reach := (0, ⟨some 0, none⟩)
  settleLengths (fun back => v.region 0 (v.n - 1) walkFuel 0 (start :: back)) v.n (v.region 0 (v.n - 1) walkFuel 0 [start])

/-- Whether a bundle is reached from some bundles at or after bundle `t` through bundles that do not end the length. -/
def Script.reaches (v : Script) (ls : List LoopAt) (t q : Nat) : Nat → List Nat → List Nat → Bool
  | 0, _, _ => false
  | _ + 1, [], _ => false
  | fuel + 1, p :: todo, seen =>
    if p < t || v.n ≤ p || seen.contains p || endsLength (v.at p) then Script.reaches v ls t q fuel todo seen
    else p == q || Script.reaches v ls t q fuel (v.nexts ls p ++ todo) (p :: seen)

/-- A backward branch on a cycle none of whose bundles ends the length: a length without end, which the model places at
the branch (log 57). -/
def Script.endless (v : Script) (ls : List LoopAt) (p : Nat) : Bool :=
  (v.at p).any (fun i => match i with
    | .jmp _ t | .brz _ _ t | .brnz _ _ t => decide (t.toNat ≤ p) && v.reaches ls t.toNat p walkFuel [t.toNat] []
    | _ => false)

/-- PREEMPT for paths of more than 2^24 script cycles (R137). -/
def Script.lengthFails (v : Script) (ls : List LoopAt) (reached : Nat → Bool) : List (Nat × Nat) :=
  ((v.lengths.late ++ (List.range v.n).filter (v.endless ls)).filter reached).map
    (fun p => (p, rejPreempt))

/-- A path from an arming: its bundle, the script cycles since, and the loops it is in, with the iterations left where
they are known. -/
structure Trail where
  p : Nat
  t : Nat
  loops : List (Nat × Nat × Option Nat)
  deriving DecidableEq, Repr

/-- The ways on after a bundle: loops that end there are counted innermost first (R397). Loops are (first bundle of
the body, END, iterations left). -/
def trailEnds (p t : Nat) : List (Nat × Nat × Option Nat) → List Trail
  | [] => [⟨p + 1, t, []⟩]
  | (f, e, n) :: ls =>
    if e ≠ p then [⟨p + 1, t, (f, e, n) :: ls⟩]
    else match n with
      | some k => if 1 < k then [⟨f, t, (f, e, some (k - 1)) :: ls⟩] else trailEnds p t ls
      | none => ⟨f, t, (f, e, none) :: ls⟩ :: trailEnds p t ls

/-- The steps of a trail from its bundle. -/
def Script.trailNexts (v : Script) (far : Bool) (x : Trail) : List Trail :=
  let is := v.at x.p
  let t := x.t + 1
  let along := trailEnds x.p t x.loops
  if hasHalt is || hasSbret is then []
  else is.foldl (fun acc i => match i with
    | .jmp _ q => if q.toNat < v.n then [⟨q.toNat, t, x.loops⟩] else []
    | .brz _ _ q | .brnz _ _ q => if q.toNat < v.n then ⟨q.toNat, t, x.loops⟩ :: along else along
    | .loop _ _ _ | .loopr _ _ _ => (match v.loopAt x.p with
      | some l =>
        let into (n : Option Nat) : Trail := ⟨x.p + 1, t, (x.p + 1, l.last, n) :: x.loops⟩
        let skip := trailEnds l.last t x.loops
        (match l.count with
        | some 0 => skip
        | some n => [into (if far then none else some n)]
        | none => into none :: skip)
      | none => acc)
    | _ => acc) along

/-- Every trail from an arming of a cue: DEADLINE at a CWAIT of it reached at another cycle than the deadline (R137,
R141). A CWAIT, another arming or a CDROP of the cue ends a trail. -/
def Script.trails (v : Script) (cue off : Nat) : Nat → Bool → List Trail → Array (List Trail) → List Nat → List Nat
  | 0, _, _, _, bad => bad
  | _ + 1, _, [], _, bad => bad
  | fuel + 1, start, x :: todo, seen, bad =>
    let far := decide (off < x.t)
    let x : Trail := if far then { x with t := off + 1, loops := x.loops.map (fun l => (l.1, l.2.1, none)) } else x
    if v.n ≤ x.p || (seen.getD x.p []).contains x then Script.trails v cue off fuel start todo seen bad
    else
      let is := v.at x.p
      let seen := seen.modify x.p (fun o => x :: o)
      let waits := match waitOf is with | some (c, _, _) => c == cue | none => false
      let ends := is.any (fun i => match i with
        | .cret _ _ _ c _ | .carm _ c _ _ | .cdrop _ c => c.val == cue
        | _ => false)
      if !start && waits then
        Script.trails v cue off fuel false todo seen (if x.t = off then bad else x.p :: bad)
      else if !start && ends then Script.trails v cue off fuel false todo seen bad
      else Script.trails v cue off fuel false (v.trailNexts far x ++ todo) seen bad

/-- The loops around a bundle, with iterations left unknown. -/
def openLoops (ls : List LoopAt) (p : Nat) : List (Nat × Nat × Option Nat) :=
  (enclosing ls p).map (fun l => (l.own + 1, l.last, none))

/-- The armings of a bundle whose deadlines the script fixes: cue and offset; a CRET of an UNDERSTUDY stream arms its
pair (R138). -/
def fixedArms (und : Nat → Bool) (is : List Instr) : List (Nat × Nat) :=
  is.flatMap (fun i => match i with
    | .cret _ x _ c (.off n) => if und x.val then [(c.val, n.toNat), (c.val + 1, n.toNat)] else [(c.val, n.toNat)]
    | .carm _ c _ (.off n) => [(c.val, n.toNat)]
    | _ => [])

/-- DEADLINE failures of the armings at a bundle of the main script. -/
def Script.deadlineFails (v : Script) (ls : List LoopAt) (und : Nat → Bool) (p : Nat) : List (Nat × Nat) :=
  (fixedArms und (v.at p)).flatMap (fun a =>
    (v.trails a.1 a.2 walkFuel true [⟨p, 0, openLoops ls p⟩] (Array.replicate v.n []) []).map (fun q => (q, rejDeadline)))

/-- The bundles of a stand-by segment: from ENTRY to its first SBRET (R147). -/
def Script.segment (v : Script) (entry : Nat) : List Nat :=
  let ps := (List.range (v.n - entry)).map (· + entry)
  match ps.find? (fun p => hasSbret (v.at p)) with
  | some e => ps.filter (· ≤ e)
  | none => ps

/-- The instructions a segment may not hold (R147). -/
def segForbids : Instr → Bool
  | .cwait .. | .ppoint .. | .halt .. | .jmp .. | .brz .. | .brnz .. | .loopr .. | .cdrop .. => true
  | _ => false

/-- The bundles of a segment with the cycles, from its first bundle, at which each first issues. -/
def Script.arrivals (v : Script) (hi : Nat) : Nat → Nat → Nat → List (Nat × Nat) × Nat
  | 0, _, t => ([], t)
  | fuel + 1, p, t =>
    if hi < p then ([], t)
    else match v.loopAt p with
      | some l =>
        if hi < l.last then let r := Script.arrivals v hi fuel (p + 1) (t + 1); ((p, t) :: r.1, r.2)
        else
          let body := Script.arrivals v l.last fuel (p + 1) (t + 1)
          let n := l.count.getD 1
          let len := body.2 - (t + 1)
          let r := Script.arrivals v hi fuel (l.last + 1) (t + 1 + n * len)
          ((p, t) :: (if n = 0 then [] else body.1) ++ r.1, r.2)
      | none => let r := Script.arrivals v hi fuel (p + 1) (t + 1); ((p, t) :: r.1, r.2)

/-- Row by row, an access that falls before the result of a write of the main script, `t` cycles after its CWAIT. -/
def lateRead (ws : List RowAcc) (t : Nat) (r : RowAcc) : Bool :=
  (List.range r.count).any (fun j =>
    ws.any (fun w => (List.range w.count).any (fun i =>
      rangesMeet r.sp (r.lo + j * r.stride) r.len w.sp (w.lo + i * w.stride) w.len
        && decide (t + r.off + j * r.step < w.off + i * w.step))))

/-- STANDBY where a segment that starts 24 cycles after a CWAIT meets an occupied unit or a pending write of the main
script (R145, R147). -/
def Script.segMeets (v : Script) (entry : Nat) (s : PipeSt) : List (Nat × Nat) :=
  let seg := v.segment entry
  (v.arrivals (seg.getLast?.getD entry) walkFuel entry 0).1.flatMap (fun (pt : Nat × Nat) =>
    let es := (v.at pt.1).map (v.effect s.planes)
    let t := 24 + pt.2
    failsAt pt.1 (rejUnless rejStandby
      (!(es.flatMap (·.units)).any (fun u => s.units.any (fun m => m.1 == u.1 && decide (t < m.2)))
        && !(es.flatMap (·.reads)).any (lateRead s.writes t))))

/-- Whether a bundle of the main script reads a range, and whether it writes the whole of it. -/
def readsRange (es : List Effect) (sp lo n : Nat) : Bool := es.any (fun e => e.reads.any (fun r => r.meets sp lo n))
def writesRange (es : List Effect) (sp lo n : Nat) : Bool :=
  es.any (fun e => e.writes.any (fun w => w.sp = sp && (List.range w.count).any (fun j =>
    decide (w.lo + j * w.stride ≤ lo) && decide (lo + n ≤ w.lo + j * w.stride + w.len))))

/-- Whether the main script reads a range on some path from a bundle without writing it first (R147). -/
def Script.readLater (v : Script) (ls : List LoopAt) (sp lo n : Nat) : Nat → List Nat → List Nat → Bool
  | 0, _, _ => false
  | _ + 1, [], _ => false
  | fuel + 1, p :: todo, seen =>
    if v.n ≤ p || seen.contains p then Script.readLater v ls sp lo n fuel todo seen
    else
      let es := (v.at p).map (v.effect [])
      if readsRange es sp lo n then true
      else if writesRange es sp lo n then Script.readLater v ls sp lo n fuel todo (p :: seen)
      else Script.readLater v ls sp lo n fuel (v.nexts ls p ++ todo) (p :: seen)

/-- STANDBY where a segment writes a register, mask, plane, accumulator row, stage-memory range or stream context that the
main script reads after the CWAIT (R147). -/
def Script.segSpoils (v : Script) (ls : List LoopAt) (entry q : Nat) : List (Nat × Nat) :=
  (v.segment entry).flatMap (fun p =>
    let ws := ((v.at p).map (v.effect [])).flatMap (·.writes)
    let rows := ws.flatMap (fun w => (List.range w.count).map (fun j => (w.sp, w.lo + j * w.stride, w.len)))
    failsAt p (rejUnless rejStandby (!rows.any (fun r =>
      decide (r.1 ≤ spCtx) && v.readLater ls r.1 r.2.1 r.2.2 walkFuel [q] []))))

/-- A script's armings of stand-by slots: slot and entry. -/
def Script.standbyArms (v : Script) : List (Nat × Nat) :=
  (List.range v.n).flatMap (fun p => (v.at p).filterMap (fun i => match i with
    | .sbreg _ s t => if t.toNat < v.n then some (s.val, t.toNat) else none
    | _ => none))

/-- A walk of a segment from some pipelines. -/
def Script.segWalk (v : Script) (ls : List LoopAt) (entry : Nat) (s : PipeSt) (aft : Bool) : Walk :=
  let hi := (v.segment entry).getLast?.getD entry
  v.walkFrom (ls.filter (fun l => decide (entry ≤ l.own) && decide (l.last ≤ hi))) false (fun _ _ _ => ([], []))
    ⟨entry, s, aft, false⟩

/-- The pipelines in the cycle after a segment's SBRET, when it starts 24 cycles after a CWAIT that found them so (R145). -/
def Script.segLeaves (v : Script) (ls : List LoopAt) (entry : Nat) (s : PipeSt) : List PipeSt :=
  let s24 := (List.range 24).foldl (fun (s : PipeSt) (_ : Nat) => s.age) s
  let hi := (v.segment entry).getLast?.getD entry
  (((v.segWalk ls entry s24 true).after.getD hi []).filter (fun _ => hasSbret (v.at hi))).map (fun t => (v.issueAt hi t).2.age)

/-- A miss at a bundle of the main script (R135, R145, R147): what the segments break that its CWAIT may run, and the
pipelines with which they leave it. The segment that has just run runs again only where it arms the slot again. -/
def Script.missAt (v : Script) (ls : List LoopAt) (p : Nat) (s : PipeSt) (again : Bool) : List (Nat × Nat) × List PipeSt :=
  match waitOf (v.at p) with
  | some (_, true, slot) =>
    let arms := (v.standbyArms.filter (fun a => a.1 = slot && (!again || (v.segment a.2).any (fun q => (v.at q).any (fun i =>
      match i with | .sbreg _ x _ => x.val == slot | _ => false))))).map (·.2)
    (arms.flatMap (fun e => v.segMeets e s ++ (v.segWalk ls e { planes := s.planes } false).fails),
      arms.flatMap (fun e => v.segLeaves ls e s))
  | _ => ([], [])

/-- What the stand-by segments of a script break by themselves and against the CWAITs that name them (R147). -/
def Script.standbyFails (v : Script) (ls : List LoopAt) (und : Nat → Bool) (reached : Nat → Bool) : List (Nat × Nat) :=
  let waits := (List.range v.n).filterMap (fun p => match waitOf (v.at p) with
    | some (_, true, s) => if reached p then some (p, s) else none
    | _ => none)
  v.standbyArms.flatMap (fun (a : Nat × Nat) =>
    let seg := v.segment a.2
    seg.flatMap (fun p => failsAt p (rejUnless rejStandby (!(v.at p).any segForbids)))
      ++ (v.segWalk ls a.2 {} false).fails
      ++ (waits.filter (fun w => w.2 = a.1)).flatMap (fun (w : Nat × Nat) => v.segSpoils ls a.2 w.1
        ++ seg.flatMap (fun p => (fixedArms und (v.at p)).flatMap (fun x =>
          (v.trails x.1 x.2 walkFuel true [⟨w.1, 0, openLoops ls w.1⟩] (Array.replicate v.n []) []).map
            (fun q => (q, rejDeadline))))))

/-- What the paths of a core's script break (R137). -/
def Script.pathFails (v : Script) (und : Nat → Bool) : List (Nat × Nat) :=
  let ls := v.loops
  let w := v.walkFrom ls true (v.missAt ls) ⟨0, {}, false, false⟩
  let reached (p : Nat) : Bool := !((w.seen.getD p []).isEmpty && (w.after.getD p []).isEmpty)
  w.fails ++ v.lengthFails ls reached
    ++ ((List.range v.n).filter reached).flatMap (v.deadlineFails ls und)
    ++ v.standbyFails ls und reached

end Sys2Proof.Machine
end

