-- ==== Sys2Proof/Machine/HostLaunch.lean ====
section
/-! DEFINITION. Script images and launches (13:R336, R337; 06:R137, R149, R150; 08:R189; 07:R183; 10:R231, R232, R235;
11:R258, R265; 12:R322). -/
namespace Sys2Proof.Machine

/-- An entry of the section table: offset and count of bundles, descriptors, stream instructions and context records
(R336). -/
structure SectionEntry where
  bunOff : Nat
  bunCount : Nat
  dscOff : Nat
  dscCount : Nat
  strOff : Nat
  strCount : Nat
  ctxOff : Nat
  ctxCount : Nat
  deriving DecidableEq, Repr

def sectionEntry (img : List Byte) (c : Nat) : SectionEntry :=
  let e := sliceBytes img (0x40 + 32 * c) 32
  let f (i : Nat) : Nat := fieldAt e (4 * i) 4
  ⟨f 0, f 1, f 2, f 3, f 4, f 5, f 6, f 7⟩

/-- The header and table rules of R336: the core of the first entry at fault, 0 for the header, none when all hold. -/
def imageFault (img : List Byte) : Option Nat :=
  let n := img.length
  let nc := fieldAt img 4 2
  if n < 64 || fieldAt img 0 2 ≠ 0x5053 || fieldAt img 2 2 ≠ 1 || nc = 0 || 128 < nc || !zeroAt img 6 58 then some 0
  else (List.range nc).find? (fun c =>
    let e := sectionEntry img c
    let inside (off count size align : Nat) : Bool := off % align = 0 && decide (off + count * size ≤ n)
    !(decide (0x40 + 32 * c + 32 ≤ n) && decide (1 ≤ e.bunCount) && inside e.bunOff e.bunCount 64 64
      && inside e.dscOff e.dscCount 64 64 && inside e.strOff e.strCount 8 8 && inside e.ctxOff e.ctxCount 64 64))

/-- `count` pieces of `size` bytes of an image. -/
def pieces (img : List Byte) (off count size : Nat) : List (List Byte) :=
  chunks size count ((img.drop off).take (count * size))

/-- A failure of the loader: core, stream section, index, code. -/
structure LoadFail where
  core : Nat
  stream : Bool
  index : Nat
  code : Nat
  deriving DecidableEq, Repr
/-- R330's DETAIL of a script. -/
def LoadFail.detail (f : LoadFail) : Nat := f.code + f.index * 2 ^ 16 + f.core * 2 ^ 32 + bitN f.stream * 2 ^ 39

/-- The lowest of some failures, by index and then by code (R137). -/
def lowestFail (fs : List (Nat × Nat)) : Option (Nat × Nat) :=
  fs.foldl (fun acc x => match acc with
    | none => some x
    | some y => if x.1 < y.1 || (x.1 == y.1 && decide (x.2 < y.2)) then some x else some y) none

/-- The first failure of one core's sections (R137, R189, R336). -/
def coreFail (reh : Bool) (img : List Byte) (c : Nat) : Option LoadFail :=
  let e := sectionEntry img c
  let k : Fin 128 := Fin.ofNat 128 c
  let ctxs := pieces img e.ctxOff e.ctxCount 64
  let und (x : Nat) : Bool := (ctxRec (ctxs.getD x [])).pol == 2
  let r := readScript k (pieces img e.bunOff e.bunCount 64) (pieces img e.dscOff e.dscCount 64)
  let size := failsAt 0 (rejUnless rejSize (e.bunCount ≤ 16384 && e.dscCount ≤ 4096))
  match lowestFail (size ++ r.2 ++ r.1.localFails reh ++ r.1.pathFails und) with
  | some f => some ⟨c, false, f.1, f.2⟩
  | none =>
    let sizeS := failsAt 0 (rejUnless rejSize (e.strCount ≤ 4096 && e.ctxCount ≤ 128))
    (lowestFail (sizeS ++ streamFails k (pieces img e.strOff e.strCount 8) ctxs)).map (fun f => ⟨c, true, f.1, f.2⟩)

/-- The first failure of an image (R137). -/
def imageFail (reh : Bool) (img : List Byte) : Option LoadFail :=
  match imageFault img with
  | some c => some ⟨c, false, 0, rejImage⟩
  | none => (List.range (fieldAt img 4 2)).findSome? (coreFail reh img)

/-- The accepted copy of one core's sections. -/
def coreImg (img : List Byte) (c : Nat) : CoreImg :=
  let e := sectionEntry img c
  let m (off n : Nat) : Mem := Tab.block 0 0 ((img.drop off).take n)
  ⟨m e.bunOff (64 * e.bunCount), e.bunCount, m e.dscOff (64 * e.dscCount), e.dscCount, m e.strOff (8 * e.strCount),
    e.strCount, m e.ctxOff (64 * e.ctxCount), e.ctxCount⟩
def scriptImg (img : List Byte) : ScriptImg := ⟨(List.range (fieldAt img 4 2)).map (coreImg img), digest img⟩

/-- Launches of a box that it has accepted and that have not completed (R336). -/
def Box.accepted (x : Box) : List Launch := x.launches.filter (fun (l : Launch) => l.st != LaunchSt.ended)

/-- Whether every member of a company box has approved a script (12:R322). -/
def Box.scriptApproved (x : Box) (d : List Byte) : Bool :=
  decide (x.members ≤ 1) || (List.range x.members).all (fun m =>
    x.approvals.any (fun a => a.member == m && a.kind == 1 && a.object == d))

/-- SCRIPT_LOAD (R336). The image is read and checked once the operation has started (log 58). -/
def cmdScriptLoad (b : Nat) (p : List Byte) (s : State) : Ans :=
  needLen p 24 <|
    let f := fieldAt p
    let x := s.box b
    fields [(decide (7 < f 0 1), 0), (!zeroAt p 1 7, 1), (f 8 8 % 16384 != 0, 8)] <|
    if x.accepted.any (fun l => l.slot == f 0 1) then reject 7 2
    else .go fun s o =>
      match s.rangeRead b (f 8 8) (f 0x10 8) with
      | none => s.endOp b o stBadParam
      | some img =>
        match imageFail x.rehearsal img with
        | some e => s.endOp b o stBadParam 0 0 (some e.detail)
        | none =>
          let sc := scriptImg img
          if !x.scriptApproved sc.digest then s.endOp b o stNotAuth
          else (s.updBox b fun x => { x with scripts := Tab.set none x.scripts (f 0 1) (some sc), digests := x.digests ++ [sc.digest] }).endOp b o stOk 0 0 (some (f 0 1))

/-- A prefetch list entry (07:R183), none where a field is out of its range. -/
def readPrefetch (s : State) (b : Nat) (bs : List Byte) : Option Prefetch :=
  let f := fieldAt bs
  let x := s.box b
  if decide (f 0 8 + f 8 2 + 1 ≤ 2 ^ 36) && decide (f 0xC 1 ≤ 2) && !(x.rehearsal && f 0xC 1 == 2)
      && decide (f 0xD 1 < 16) && x.seats.getLsbD (f 0xD 1) && decide (f 0xE 1 ≤ 3) && f 0xF 1 == 0 then
    some ⟨f 0 8, f 8 2 + 1, f 0xA 2, f 0xC 1, f 0xD 1, f 0xE 1, false⟩
  else none

/-- A list whose entries all read, sorted by STAGE (07:R183). -/
def readPrefetches (s : State) (b : Nat) (bs : List (List Byte)) : Option (List Prefetch) :=
  let es := bs.map (readPrefetch s b)
  if es.all Option.isSome then
    let ps := es.filterMap id
    if (ps.zip (ps.drop 1)).all (fun (q : Prefetch × Prefetch) => decide (q.1.stage ≤ q.2.stage)) then some ps else none
  else none

/-- A reduction plan entry (10:R231), none where a field breaks R231 or the row of its OP in R235. -/
def readPlanEntry (bs : List Byte) : Option PlanEntry :=
  let f := fieldAt bs
  let op := f 2 1
  let fmt := f 0x16 1
  let e : PlanEntry :=
    { tag := f 0 2, op := op, zero := (f 3 1).testBit 0, order := (f 3 1).testBit 1, ddev := f 4 1, guardBits := f 5 1,
      ncontrib := f 6 2, first := f 8 8, count := f 0x10 4, wcore := f 0x14 1, wcue := f 0x15 1, fmt := fmt,
      devmask := f 0x18 8, ledger := f 0x20 8, grid := f 0x28 2 }
  let fmtOk := match op with
    | 1 => fmt == 0xB || fmt == 0xD
    | 2 => fmt == 0xB
    | 3 => fmt == 0 || fmt == 1
    | 4 => fmt == 0
    | 5 => decide (fmt < 0xE)
    | _ => false
  let grid := signedOf 16 e.grid
  if decide (e.tag < 4096) && decide (f 3 1 ≤ 3) && decide (e.ddev ≤ 63) && decide (e.guardBits ≤ 12)
      && (op == 3 || (decide (1 ≤ e.ncontrib) && decide (e.ncontrib ≤ 4096))) && (op != 5 || e.ncontrib == 1)
      && decide (1 ≤ e.count) && decide (e.count ≤ 2 ^ 24) && decide (e.first + e.count ≤ 2 ^ 36)
      && (decide (e.wcore ≤ 127) || e.wcore == 0xFF) && decide (e.wcue ≤ 63) && fmtOk && f 0x17 1 == 0
      && (op == 3 || e.devmask == 0) && zeroAt bs 0x2A 22
      && (fmt != 0xB || e.ledger != 0 || (decide (-192 ≤ grid) && decide (grid ≤ 127))) then some e
  else none

/-- Whether the ledger entry that an entry names has POLICY 0x04, or none is named (R232, 02:R59). -/
def State.ledgerOk (s : State) (b : Nat) (e : PlanEntry) : Bool :=
  e.ledger == 0 || (match s.rangeRead b e.ledger 96 with | some bs => fieldAt bs 9 1 == 4 | none => false)

/-- Whether an entry passes R232, R238, R251 and R258 on this device. -/
def State.planEntryOk (s : State) (b : Nat) (e : PlanEntry) : Bool :=
  let x := s.box b
  let size := s.boxGroup b
  let counted := e.op == opSign1 || (e.op == opAddInt && e.fmt == 0xB)
  decide (e.tag < 256 * x.seatList.length) && decide (e.ddev < size)
    && (!counted || (decide (e.ncontrib ≤ 2 ^ e.guardBits) && s.ledgerOk b e))
    && (e.op != opSign1 || e.count % 32 == 0) && (e.op != opAddInt || e.fmt != 0xD || e.guardBits == 0)
    && (e.op != opAddOrd || (e.devmask != 0 && decide (e.devmask < 2 ^ size)))
    && (e.ddev != s.boxIndex b || (List.range e.count).all (fun i =>
      let t := x.tile (e.first + i)
      t.st == tsResident && t.tier == 0 && !x.isProtected (e.first + i)))

/-- Whether no two entries share a tag, or target tiles on one device (R232). -/
def planDistinct : List PlanEntry → Bool
  | [] => true
  | e :: es =>
    es.all (fun f => f.tag != e.tag
      && !(f.ddev == e.ddev && decide (f.first < e.first + e.count) && decide (e.first < f.first + f.count)))
      && planDistinct es

/-- The plan, none when the launch is refused for it. -/
def readPlan (s : State) (b : Nat) (bs : List (List Byte)) : Option (List PlanEntry) :=
  let es := bs.map readPlanEntry
  if es.all Option.isSome then
    let ps := es.filterMap id
    if planDistinct ps && ps.all (s.planEntryOk b) then some ps else none
  else none

/-- The CWAITs a replayed log names: box-local core, cue, script cycle (06:R149, R150). -/
def readMarks (bs : List (List Byte)) : List (Nat × Nat × Nat) :=
  bs.map (fun r => (fieldAt r 9 1, fieldAt r 0xA 1, fieldAt r 4 5))

/-- LAUNCH's parameters (R337). -/
structure LaunchP where
  slot : Nat
  prio : Nat
  flags : Nat
  lead : Nat
  core0 : Nat
  stall : Nat
  prefetch : Nat
  pcount : Nat
  nplan : Nat
  plan : Nat
  preempt : Nat
  log : Nat
  result : Nat
  rlen : Nat
  deriving DecidableEq, Repr
def launchP (p : List Byte) : LaunchP :=
  let f := fieldAt p
  ⟨f 0 1, f 1 1, f 2 2, f 4 1, f 5 1, f 8 8, f 0x10 8, f 0x18 4, f 0x1C 4, f 0x20 8, f 0x28 8, f 0x30 8, f 0x38 8, f 0x40 4⟩

/-- A table of a box's range: `n` entries of `size` bytes at `addr`, no entries at address 0 (R337). -/
def State.rangeTable (s : State) (b addr n size : Nat) : Option (List (List Byte)) :=
  if addr = 0 then some [] else (s.rangeRead b addr (n * size)).map (chunks size n)

/-- The launch that a LAUNCH command asks for, none when its lists refuse it (07:R183; 10:R232; 11:R258, R265). -/
def State.makeLaunch (s : State) (b o : Nat) (q : LaunchP) (ncore : Nat) : Option Launch :=
  let x := s.box b
  let replay := q.flags.testBit 3
  match (s.rangeTable b q.prefetch q.pcount 16).bind (readPrefetches s b),
      (s.rangeTable b q.plan q.nplan 64).bind (readPlan s b),
      (if replay then s.rangeTable b q.log 4096 16 else some []) with
  | some pf, some plan, some log =>
    some { num := (x.launched + 1) % 2 ^ 32, opid := o, slot := q.slot, prio := q.prio, sealing := q.flags.testBit 0,
           scene := q.flags.testBit 1, under := q.flags.testBit 2, replay := replay, lead := q.lead, core0 := q.core0,
           ncore := ncore, stall := q.stall, preempt := q.preempt, log := q.log, resAddr := q.result, rlen := q.rlen,
           plan := plan, pf := pf, epoch := if x.cst = 1 || x.cst = 2 then (x.openE + 1) % 2 ^ 32 else x.openE,
           st := .queued, haltedCores := [], marker := none, logged := 0, marks := readMarks log, stop := none, saved := [] }
  | _, _, _ => none

/-- Cores held at a preemption point see a preemption that has become pending (06:R152). -/
def State.pokeHeld (s : State) (b : Nat) : State :=
  (s.box b).coreList.foldl (fun s k => match (s.box b).runsOn k with
    | some l => s.putCore b l.num k ((s.core k).atPoint ((s.box b).env l k))
    | none => s) s

/-- A launch is accepted: it is queued, and the operation names it (R337; 11:R265). -/
def State.acceptLaunch (s : State) (b o : Nat) (l : Launch) : State :=
  let s := s.updBox b fun x =>
    { x with launches := x.launches ++ [l], launched := l.num,
             lead := if l.sealing && l.epoch == x.openE && s.isLead b then { x.lead with sealAt := true } else x.lead }
  (s.updOp b o fun y => { y with launch := some l.num }).pokeHeld b

/-- LAUNCH (R337). A ninth launch is turned away with the box's state (log 58). -/
def cmdLaunch (b : Nat) (p : List Byte) (s : State) : Ans :=
  needLen p 0x48 <|
    let q := launchP p
    let x := s.box b
    let sc := Tab.get none x.scripts q.slot
    let ncore := match sc with | some y => y.cores.length | none => 1
    fields [(decide (7 < q.slot), 0), (decide (3 < q.prio), 1), (decide (15 < q.flags), 2), (decide (4 < q.lead), 4),
      (decide (x.coreList.length < q.core0 + ncore)
        || ((x.coreList.drop q.core0).take ncore).any (fun k => !x.seats.getLsbD (k / 8)), 5), (!zeroAt p 6 2, 6), (decide (65536 < q.pcount), 0x18),
      (q.preempt % 16384 != 0, 0x28), (q.result % 16384 != 0, 0x38), (decide (65536 < q.rlen), 0x40), (!zeroAt p 0x44 4, 0x44)] <|
    if sc.isNone then reject 7 0
    else if x.cst = 3 || x.cst = 4 then reject 4 x.cst
    else if 8 ≤ x.accepted.length then reject 3 x.st
    else .go fun s o =>
      match s.makeLaunch b o q ncore with
      | some l => s.acceptLaunch b o l
      | none => s.endOp b o stBadParam

end Sys2Proof.Machine
end

