-- ==== Sys2Proof/Machine/Registers.lean ====
section
/-! DEFINITION. The register blocks as REG_READ and REG_WRITE reach them (00:R6 to R10; 13:R341; the register tables of
chapters 3 and 6 to 15), with who may reach each. -/
namespace Sys2Proof.Machine

/-- What a session finds at an address: no register, one outside its reach, a register whose read is refused for now with
its SKIND and SCODE (08:R188), or a value, with the state after the read. -/
inductive RegAns where
  | unmapped
  | denied
  | refused (kind code : Nat)
  | val (v : Nat) (s : State)

/-- A register that some sessions may reach. -/
def regIf (ok : Bool) (v : Nat) (s : State) : RegAns := if ok then .val v s else .denied

/-- Blocks ID, LCS and BUP: the management session and every box session. -/
def State.regId (s : State) (off : Nat) : RegAns :=
  if off = 0 then .val 0x4E474700 s else if off = 4 then .val 0x00000100 s else .unmapped
def State.regLcs (s : State) (off : Nat) : RegAns := if off = 0 then .val s.lcsWord s else .unmapped
def State.regBup (s : State) (off : Nat) : RegAns :=
  if off = 0 then .val (joinFields [(4, s.dev.dstate), (4, s.dev.phase), (24, s.dev.msChange)] 32) s
  else if off = 4 then .val (((List.range 16).filter (fun k => (s.seat k).inService)).map (2 ^ ·)).sum s
  else if 0x10 ≤ off && off < 0x30 then .val (Tab.get 0 s.dev.coreMap ((off - 0x10) / 4)) s
  else .unmapped

/-- Block NVS: the management session (14:R372). -/
def State.regNvs (s : State) (k off : Nat) : RegAns :=
  let i := off / 4
  let on := s.dev.nvsLoaded
  if off < 0x400 then
    regIf (k == mgmt) (joinFields [(1, bitN (s.dev.nvsFrozen.contains i)), (1, bitN (s.dev.nvsMoved.contains i)), (13, 0),
      (17, if on then Tab.get 0 s.dev.nvsWrites i else 0)] 32) s
  else if off = 0x400 then
    regIf (k == mgmt) (joinFields [(16, 0), (8, s.dev.nvsFrozen.length), (8, if on then 64 - s.dev.nvsCells else 0)] 32) s
  else .unmapped

/-- NCAP of a cap (15:R386). -/
def capStep (cap : Nat) : Nat := min 16 ((cap - 40) * 2 / 15)
/-- The clock step in use (15:R384, R386, R387; 14:R371). -/
def State.clockStep (s : State) (k : Nat) : Nat :=
  let y := s.seat k
  if y.owner.isNone || !y.inService || s.dev.tripped then 0
  else if s.dev.sag || s.dev.therm || s.dev.loss then 4
  else if y.rehearsal then min 8 (capStep y.capW) else capStep y.capW
def Feed.word (f : Feed) : Nat := joinFields [(4, f.fid), (1, bitN f.present), (1, bitN f.openSw), (16, 0), (10, f.volt)] 32
/-- Block PWR. Measured values are free (log 8). -/
def State.regPwr (s : State) (k off : Nat) : RegAns :=
  let m := k == mgmt
  let d := s.draw
  if off = 0 then regIf m s.dev.feedA.word s
  else if off = 4 then regIf m s.dev.feedB.word s
  else if off = 8 then regIf m (joinFields [(16, Config.measured 1 d.1 % 2 ^ 16), (16, Config.measured 0 d.1 % 2 ^ 16)] 32) d.2
  else if off = 0xC then .val (joinFields [(1, bitN s.dev.sag), (1, bitN s.dev.therm), (1, bitN s.dev.loss), (29, 0)] 32) s
  else if off = 0x10 then .val s.dev.sagCount s
  else if off = 0x14 then .val (s.dev.sagLast.getD 0xFFFFFFFF) s
  else if off = 0x20 then
    regIf m (joinFields [(16, Config.measured 2 d.1 % 2 ^ 16), (8, Config.measured 3 d.1 % 2 ^ 8), (8, Config.measured 4 d.1 % 2 ^ 8)] 32) d.2
  else if 0x100 ≤ off && off < 0x140 then
    let q := (off - 0x100) / 4
    let y := s.seat q
    regIf (m || y.owner == some k)
      (if y.owner.isNone then 0 else joinFields [(8, s.clockStep q), (8, capStep y.capW), (8, 0), (8, y.capW)] 32) s
  else .unmapped

/-- Block KW (12:R298, R307). -/
def State.regKw (s : State) (k off : Nat) : RegAns :=
  let m := k == mgmt
  if off < 0x1000 then
    let i := off / 4
    let x := s.slot i
    regIf (m || (s.box k).hasSlot i)
      (joinFields [(2, x.st), (2, 0), (4, x.kind), (8, x.gen), (4, x.owner), (4, x.member), (1, bitN x.derived), (7, 0)] 32) s
  else if off < 0x1100 && off % 16 ≠ 12 then
    let b := (off - 0x1000) / 16
    let r := (s.box b).rekey
    regIf (m || k == b)
      (match off % 16 with
       | 0 => joinFields [(1, bitN r.active), (1, bitN r.halted), (4, 0), (10, r.slot), (8, 0), (8, r.gen)] 32
       | 4 => r.region
       | _ => r.cursor) s
  else .unmapped

/-- Block BOX (12:R288, R296, R306). -/
def State.regBox (s : State) (k off : Nat) : RegAns :=
  let m := k == mgmt
  let b := off / 0x20
  let x := s.box b
  if 16 ≤ b then .unmapped
  else match off % 0x20 with
  | 0 => regIf (m || k == b) (joinFields [(4, x.st), (1, bitN x.frozen), (1, bitN x.expert), (2, 0), (4, x.members), (8, x.released.toNat), (12, 0)] 32) s
  | 4 => regIf (m || k == b) x.seats.toNat s
  | 8 => regIf (m || k == b)
      (match x.alarm with | some a => joinFields [(8, a.cause), (8, min x.alarms 255), (12, 0), (4, a.seat)] 32 | none => 0) s
  | 0xC =>
    let other (q : Nat) : Bool := match (s.seat (if q % 2 = 0 then q + 1 else q - 1)).owner with | some o => o != b | none => false
    regIf (k == b) (joinFields [(16, x.thermCount), (16, ((x.seatList.filter other).map (2 ^ ·)).sum)] 32) s
  | 0x10 => regIf (k == b) (x.thermLast.getD 0xFFFFFFFF) s
  | _ => .unmapped

/-- Blocks ETH, FAB and MGT (13 registers). -/
def State.regEth (s : State) (k off : Nat) : RegAns :=
  let m := k == mgmt
  if off = 0 then regIf m ((s.nvs 0).toNat % 2 ^ 16) s
  else if off = 4 then regIf m s.dev.ethDrop s
  else if off = 8 then regIf m s.dev.authFail s
  else if off = 0x10 || off = 0x20 || off = 0x30 then
    let e := s.eth (off / 16 - 1)
    .val (joinFields [(1, bitN e.up), (1, bitN e.secured), (1, bitN e.cak), (5, 0), (24, if m then e.drop else 0)] 32) s
  else .unmapped
def State.regFab (s : State) (k off : Nat) : RegAns :=
  let f := s.fab (off / 16)
  if 0x40 ≤ off || off % 16 ≠ 0 then .unmapped
  else .val (joinFields [(2, f.st), (2, f.spare), (2, f.lane0), (2, f.lane1), (8, f.peer), (16, if k = mgmt then f.discard else 0)] 32) s
def State.regMgt (s : State) (k off : Nat) : RegAns :=
  if 0x40 ≤ off then .unmapped else regIf (k == mgmt) (s.nvs (0x5F + off / 4)).toNat s

/-- The per-seat registers of block MEM (07, 12 registers). -/
def State.memSeatReg (s : State) (q : Nat) : Nat → Option Nat
  | 0 => some (s.freeIn 0 q)
  | 4 => some (s.freeIn 1 q)
  | 8 => some (s.seat q).migDone
  | 0xC => some (s.seat q).migSkip
  | 0x10 => some (joinFields [(4, (s.seat q).migDropLast), (28, (s.seat q).migDrop)] 32)
  | 0x14 => some (s.seat q).hits
  | 0x18 => some (s.seat q).missCount
  | 0x1C => some (s.seat q).eccCorr
  | 0x20 => some (s.seat q).eccUnc
  | _ => none
/-- The per-box registers of block MEM but the step counter's halves (07, 09, 11 registers). -/
def State.memBoxReg (s : State) (b : Nat) : Nat → Option Nat
  | 0 => some (s.box b).flashq
  | 4 => some (s.flashHeld b)
  | 8 => let x := s.box b
    some (joinFields [(8, x.openE % 256), (8, x.resolvedE % 256), (1, bitN x.closed), (1, bitN x.walking), (14, 0)] 32)
  | 0xC => some (joinFields [(2, (s.box b).scene.st), (19, 0), (11, (s.box b).scene.done)] 32)
  | 0x10 => let x := s.box b
    some (joinFields [(4, x.cst), (2, x.last), (2, x.partner), (8, x.cause), (16, 0)] 32)
  | 0x1C => some (match (s.box b).localStep with | some n => n % 2 ^ 32 | none => 0xFFFFFFFF)
  | _ => none
/-- A low half is read: the high half is latched for the session's next read of it (log 59). -/
def State.latchHi (s : State) (k key v : Nat) : RegAns :=
  .val (v % 2 ^ 32) (s.updSession k fun x => { x with latch := Tab.set 0 x.latch key (v / 2 ^ 32 + 1) })
/-- A high half is read: the latched one, once, or else the live one. -/
def State.readHi (s : State) (k key v : Nat) : RegAns :=
  let l := Tab.get 0 (s.session k).latch key
  if l = 0 then .val (v / 2 ^ 32) s
  else .val (l - 1) (s.updSession k fun x => { x with latch := Tab.set 0 x.latch key 0 })
/-- Block MEM. -/
def State.regMem (s : State) (k off : Nat) : RegAns :=
  let m := k == mgmt
  if 0x1000 ≤ off && off < 0x1400 then
    let q := (off - 0x1000) / 0x40
    match s.memSeatReg q (off % 0x40) with
    | some v => regIf (m || (s.seat q).owner == some k) v s
    | none => .unmapped
  else if 0x2000 ≤ off && off < 0x2200 then
    let b := (off - 0x2000) / 0x20
    let r := off % 0x20
    if r = 0x14 || r = 0x18 then
      if !(m || k == b) then .denied
      else if r = 0x14 then s.latchHi k (512 + b) (s.box b).step else s.readHi k (512 + b) (s.box b).step
    else match s.memBoxReg b r with
      | some v => regIf (m || k == b) v s
      | none => .unmapped
  else if 0x3000 ≤ off && off < 0x3400 && off % 16 ≠ 12 then
    let b := (off - 0x3000) / 0x40
    let c := Tab.get {} (s.box b).chans (off % 0x40 / 16)
    regIf (m || k == b)
      (match off % 16 with
       | 0 => joinFields [(1, bitN c.granted), (1, bitN c.active), (2, c.tier), (7, c.hi), (7, c.lo), (14, 0)] 32
       | 4 => c.rate
       | _ => c.served) s
  else .unmapped

/-- Block RED (10 registers); RED_TAG lies from offset 0x1_0000 on. -/
def State.regRed (s : State) (k off : Nat) : RegAns :=
  let m := k == mgmt
  if 0x1000 ≤ off && off < 0x1400 && off % 0x40 < 0x10 then
    let q := (off - 0x1000) / 0x40
    let y := s.seat q
    regIf (m || y.owner == some k)
      (match off % 0x40 with
       | 0 => y.redApplied
       | 4 => joinFields [(4, y.redRefLast), (28, y.redRefused)] 32
       | 8 => joinFields [(1, y.redRetryLast), (31, y.redRetry)] 32
       | _ => y.redClamped) s
  else if 0x10000 ≤ off && off < 0x14000 then
    let t := (off - 0x10000) / 4
    let g := Tab.get {} (s.box k).tags t
    regIf (!m && decide (t < 256 * (s.box k).seatList.length))
      (joinFields [(4, g.st), (3, (match g.entry with | some e => e.op | none => 0)), (25, g.done)] 32) s
  else .unmapped

/-- Block CORE of a logical core (03, 06, 08 registers). A launch still runs on a core whose HALT waits for its contexts' writes
(R188, R209). -/
def State.regCore (s : State) (k core off : Nat) : RegAns :=
  let c := s.core core
  let own := s.boxOfCore core == some k
  let at' (v : Nat) : RegAns := regIf own v s
  if 0x1000 ≤ off && off < 0x3000 then
    let x := (off - 0x1000) / 0x40
    if !own then .denied
    else if ((s.box k).runsOn core).isSome || (((s.box k).launchAt core).isSome && !c.writesDone) then .refused 5 1
    else .val (((c.ctx x).words).getD (off % 0x40 / 4) 0) s
  else match off with
  | 0 => at' c.st.code
  | 4 => at' (joinFields [(8, c.faultKind), (10, 0), (14, c.faultBundle)] 32)
  | 8 => if own then s.latchHi k (2 * core) c.scyc else .denied
  | 0xC => if own then s.readHi k (2 * core) c.scyc else .denied
  | 0x10 => if own then s.latchHi k (2 * core + 1) c.offset else .denied
  | 0x14 => if own then s.readHi k (2 * core + 1) c.offset else .denied
  | 0x100 => at' c.slipEvents
  | 0x104 => at' c.slipCycles
  | 0x108 => at' (joinFields [(8, c.slipKind), (7, 0), (1, c.slipArr), (16, c.slipHold)] 32)
  | 0x110 => regIf (own || k == mgmt) c.remap0.toNat s
  | 0x114 => regIf (own || k == mgmt) c.remap1.toNat s
  | 0x120 => at' c.misses
  | 0x124 => at' c.standbyRuns
  | 0x128 => at' c.understudyUses
  | 0x12C => at' c.stale
  | 0x130 => at' (joinFields [(8, c.sfKind), (1, 0), (7, c.sfCtx), (4, 0), (12, c.sfPc)] 32)
  | _ => .unmapped

/-- A register at an address (R6). -/
def State.regAt (s : State) (k addr : Nat) : RegAns :=
  let off := addr % 0x10000
  if addr % 4 ≠ 0 || 2 ^ 32 ≤ addr then .unmapped
  else match addr / 0x10000 with
  | 0x00 => s.regId off
  | 0x01 => s.regLcs off
  | 0x02 => s.regPwr k off
  | 0x03 => s.regNvs k off
  | 0x04 => s.regBup off
  | 0x10 => s.regKw k off
  | 0x11 => s.regBox k off
  | 0x20 => s.regEth k off
  | 0x21 => s.regFab k off
  | 0x22 => s.regMgt k off
  | 0x30 => s.regMem k off
  | 0x40 => s.regRed k off
  | 0x41 => s.regRed k (off + 0x10000)
  | blk => if 0x80 ≤ blk && blk < 0x100 then s.regCore k (blk - 0x80) off else .unmapped

/-- Consecutive registers, one at a time; the first address that gives no value decides the reply (R10, R341). -/
def readRegs (k : Nat) : (n addr : Nat) → State → List Byte → Ans
  | 0, _, s, acc => okSync s acc
  | n + 1, addr, s, acc =>
    match s.regAt k addr with
    | .val v s => readRegs k n (addr + 4) s (acc ++ leBytes 4 v)
    | .refused kind code => reject kind code
    | .denied => .no stNotAuth []
    | .unmapped => if k = mgmt then badParam 0 else .no stNotAuth []

/-- REG_READ (R341, R9). -/
def cmdRegRead (w : Sender) (p : List Byte) (s : State) : Ans :=
  needLen p 5 <|
    let n := fieldAt p 4 1
    if n = 0 || 64 < n then badParam 4 else readRegs w.k n (fieldAt p 0 4) s []

/-- REG_WRITE (R7 to R9, R341): ETH_CMD_PORT is the one register with a writable field. -/
def cmdRegWrite (w : Sender) (p : List Byte) (s : State) : Ans :=
  needLen p 8 <|
    let v := fieldAt p 4 4
    if w.k = mgmt then
      if fieldAt p 0 4 ≠ 0x200000 then badParam 0
      else if 2 ^ 16 ≤ v || v = 0x12B7 then badParam 4
      else commitNvs s [(0, BitVec.ofNat 32 v)] id
    else match s.regAt w.k (fieldAt p 0 4) with
      | .val _ _ => badParam 0
      | .refused _ _ => badParam 0
      | _ => .no stNotAuth []

end Sys2Proof.Machine
end

