-- ==== Sys2Proof/Machine/Intake.lean ====
section
/-! DEFINITION. How a host command is taken, refused, executed, forwarded and answered (13:R326 to R334, R345 to R347,
R354; 12:R292, R294; 14:R363, R370). -/
namespace Sys2Proof.Machine

/-- What an opcode's own rules answer on the device that executes it. -/
def command (op : Nat) (w : Sender) (p : List Byte) (s : State) : Ans :=
  let b := w.k
  match op with
  | 0x0000 => cmdInfo w p
  | 0x0001 => cmdRoll w p s
  | 0x0002 => cmdGroupBind w p s
  | 0x0003 => cmdMgtSession w p
  | 0x0010 => cmdOpStatus w none p s
  | 0x0011 => cmdOpRead w p s
  | 0x0012 => cmdOpAbort w p s
  | 0x0013 => cmdOpRelease w p s
  | 0x0014 => cmdEventRead w p s
  | 0x0100 => cmdBoxOpen p s
  | 0x0101 => cmdBoxClose p s
  | 0x0104 => cmdGroupCfg p s
  | 0x0110 => cmdEthCfg p s
  | 0x0111 => cmdLinkCak p s
  | 0x0120 => cmdModelInstall p s
  | 0x0121 => cmdModelStoreErase p s
  | 0x0200 => cmdRegionMap b p s
  | 0x0201 => cmdRegionUnmap b p s
  | 0x0202 => cmdTileUnd b p s
  | 0x0203 => cmdTileMove b p s
  | 0x0210 => cmdXferReg b p s
  | 0x0211 => cmdXferDrop b p s
  | 0x0212 => cmdXferRun b p s
  | 0x0220 => cmdWtLoad b p s
  | 0x0221 => cmdWtChannel b p s
  | 0x0222 => cmdSceneChange b p s
  | 0x0300 => cmdScriptLoad b p s
  | 0x0301 => cmdLaunch b p s
  | 0x0400 => cmdCurtainCfg b p s
  | 0x0401 => cmdCurtainStatus b p s
  | 0x0403 => cmdCurtainResolve b p s
  | 0x0405 => cmdSceneRestore b p s
  | 0x0407 => cmdIfealeImport b p s
  | 0x0408 => cmdLocalRelease p s
  | 0x0500 => cmdAttest w p s
  | 0x0501 => cmdKeyRelease w p s
  | 0x0502 => cmdKeyPut w p s
  | 0x0503 => cmdKeyDestroy w p s
  | 0x0504 => cmdRekey w p s
  | 0x0505 => cmdKeyGen w p s
  | 0x0506 => cmdApprove w p s
  | 0x0507 => cmdAlarmRead w p s
  | 0x0600 => cmdLcStatus p s
  | 0x0601 => cmdLcTransition w p s
  | 0x0610 => cmdFwUpdate p s
  | 0x0620 => cmdSpareReport p s
  | 0x0700 => cmdRegRead w p s
  | 0x0701 => cmdRegWrite w p s
  | 0x0702 => cmdDiagRun w p s
  | _ => .no stBadOpcode []

/-- An operation ends with a refusal's status and parameters (R330, R333). -/
def State.endRefused (s : State) (k opid st : Nat) (ps : List Byte) : State :=
  if st = stReject then s.endOp k opid st (fieldAt ps 0 1) (fieldAt ps 1 1)
  else if st = stBadParam then s.endOp k opid st 0 0 (some (fieldAt ps 2 8))
  else s.endOp k opid st

/-- A running record, as the lead first has it of another device's part (R346). -/
def runningRec (op : Nat) : OpRecord := ⟨BitVec.ofNat 16 op, 1, 0, 0, 0, 0, 0⟩
/-- The record of a part that was refused. -/
def refusedRec (op st : Nat) (ps : List Byte) : OpRecord :=
  ⟨BitVec.ofNat 16 op, BitVec.ofNat 8 st, if st = stReject then BitVec.ofNat 8 (fieldAt ps 0 1) else 0,
    if st = stReject then BitVec.ofNat 8 (fieldAt ps 1 1) else 0, 0, if st = stBadParam then BitVec.ofNat 64 (fieldAt ps 2 8) else 0, 0⟩

/-- The other devices of a box's group. -/
def State.otherDevs (s : State) (b : Nat) : List Nat := (List.range (s.boxGroup b)).filter (· ≠ s.boxIndex b)

/-- The sender in whose name a box's commands run. -/
def State.boxSender (s : State) (b port : Nat) : Sender := ⟨b, b, port, s.boxKey b⟩

/-- The status, if any, with which an operation's effect ends it at once other than by OK: a check that needs data from
memory (R331). -/
def opFailed (s : State) (k opid : Nat) : Option Op :=
  match (s.session k).op opid with
  | some o => if o.ostatus = 0 || o.ostatus = 1 then none else some o
  | none => none

/-- COMMIT reaches a device, itself at the lead (R346): it acts on the reserved command, whose checks are made again
(log 60). -/
def State.commitOp (s : State) (b opid : Nat) : State :=
  match (s.box b).reserved.find? (fun r => r.1 == opid) with
  | none => s
  | some (_, op, p) =>
    let s := s.updBox b fun x => { x with reserved := x.reserved.filter (fun r => r.1 ≠ opid) }
    match command op (s.boxSender b 0) p s with
    | .go f => f s opid
    | .no st ps => s.endRefused b opid st ps
    | .sync s st ps => s.endRefused b opid st ps

/-- CANCEL reaches a device (R346). -/
def State.cancelOp (s : State) (b opid : Nat) : State :=
  if (s.box b).reserved.any (fun r => r.1 == opid) then
    (s.updBox b fun x => { x with reserved := x.reserved.filter (fun r => r.1 ≠ opid) }).updSession b fun x =>
      { x with ops := x.ops.filter (fun o => o.opid ≠ opid) }
  else s

/-- Once every device has reported on an all-device command, the lead sends COMMIT, or CANCEL when one refused (R346). -/
def State.decideGroup (s : State) (b opid : Nat) : State :=
  match (s.session b).op opid with
  | none => s
  | some o =>
    if !o.waitDevs.isEmpty || !(s.box b).reserved.any (fun r => r.1 == opid) then s
    else if o.refused then
      let s := (s.otherDevs b).foldl (fun s d => s.send (.cancelTo d b opid)) s
      let s := s.updBox b fun x => { x with reserved := x.reserved.filter (fun r => r.1 ≠ opid) }
      s.updOp b opid fun o => { o with ostatus := 0, parts := o.parts.map (fun q => if q.2.ostatus = 1 then (q.1, { q.2 with ostatus := 0 }) else q) }
    else ((s.otherDevs b).foldl (fun s d => s.send (.commitTo d b opid)) s).commitOp b opid

/-- A device's report on a command that the lead forwarded as an operation (R346). -/
def State.partReport (s : State) (b opid d : Nat) (ok : Bool) (st : Nat) (ps : List Byte) : State :=
  (s.updOp b opid fun o =>
    { o with waitDevs := o.waitDevs.filter (· ≠ d), refused := o.refused || !ok,
             parts := if ok then o.parts else o.parts.map (fun q => if q.1 = d then (d, refusedRec o.opcode st ps) else q) }).decideGroup b opid

/-- Where a command's TARGET leads (R334, R345, R346, R348). -/
inductive Route where
  | here | all | to (dev : Nat) | bad
  deriving DecidableEq, Repr
def State.route (s : State) (w : Sender) (r : OpRow) (p : List Byte) (t : Nat) : Route :=
  let own := s.devIndex w.k
  let tgt := if r.code = 0x0400 && fieldAt p 0x1F 1 % 2 = 1 then Tgt.one else r.tgt
  let legal := match tgt with | .all => t == 0xFF | .any => true | .one => t != 0xFF | .loc => t == 0xFE
  if !legal then .bad
  else if t = 0xFE || t = own then .here
  else if w.k < 16 then
    if t = 0xFF then (if s.boxGroup w.k = 1 then .here else if s.isLead w.k then .all else .bad)
    else if t < s.boxGroup w.k && s.isLead w.k then .to t else .bad
  else .bad

/-- A command is executed on this device, and answered (R331). -/
def State.execHere (s : State) (w : Sender) (h : Hdr) (op : Nat) (a : Ans) : State :=
  let dev := s.devIndex w.k
  match a with
  | .no st ps => s.answer w h op dev st 0 ps
  | .sync s st ps => s.answer w h op dev st 0 ps (op ≠ 1)
  | .go f =>
    match s.startOp w.k op with
    | none => s.answer w h op dev stBusy 0 []
    | some (s, o) => f (s.answer w h op dev stAccepted o []) o

/-- The parts of its box's range, as addresses and lengths, that a command reads before it is answered or its operation
goes on (13:R333, R336, R337, R340; 09:R222; 11:R263). -/
def State.cmdReads (s : State) (b op : Nat) (p : List Byte) : List (Nat × Nat) :=
  let f := fieldAt p
  let table (addr n : Nat) : List (Nat × Nat) := if addr = 0 then [] else [(addr, n)]
  match op with
  | 0x0011 => (match (s.session b).op (f 0 4) with
    | some o => (match s.opLaunch b o with
      | some l =>
        let base := if f 4 1 = 0 then l.resAddr else l.log
        [(base + f 8 8, min (f 0x10 2) ((if f 4 1 = 0 then l.rlen else if l.under then 16 * l.logged else 0) - f 8 8))]
      | none => [])
    | none => [])
  | 0x0212 => (match (s.box b).xfer (f 0 2) with
    | some q => if q.dir = 2 && ((s.box b).runOf (f 0 2)).isNone && !(List.range q.tiles).any (fun i => (s.box b).tagTarget (q.first + i)) then [(q.first * 16384, q.tiles * 16384)] else []
    | none => [])
  | 0x0222 => [(f 8 8, 32 * f 6 2)]
  | 0x0300 => [(f 8 8, f 0x10 8)]
  | 0x0301 =>
    let q := launchP p
    table q.prefetch (16 * q.pcount) ++ table q.plan (64 * q.nplan) ++ (if q.flags.testBit 3 then table q.log 65536 else [])
  | 0x0400 => [(f 8 8, 8 * f 6 2)]
  | _ => []

/-- Whether a command has to read a tile of an open tag: the read is held at its controller until the tag completes or fails
(10:R244), and the command is not taken meanwhile (log 41). A WRITE run waits by itself. -/
def State.cmdHeld (s : State) (w : Sender) (op : Nat) (p : List Byte) : Bool :=
  decide (w.k < 16) && op != 0x0212 && (partTiles (s.cmdReads w.k op p)).any (s.box w.k).tagTarget

/-- A command is executed on this device with the outcome of its memory reads (12:R304): a tag that fails freezes the box
and ends the command, or the operation that it started, with ALARM (log 14). -/
def State.execRead (s : State) (w : Sender) (h : Hdr) (op : Nat) (p : List Byte) : State :=
  let a := command op w p s
  let dev := s.devIndex w.k
  let rs := if op = 0x0212 && h.line = .good then [] else s.cmdReads w.k op p
  let m := s.meetLine w.k rs h.lineTile h.line
  match a with
  | .no _ _ => s.execHere w h op a
  | .sync _ _ _ => if m.2 then m.1.answer w h op dev stAlarm 0 [] else m.1.execHere w h op (command op w p m.1)
  | .go f =>
    if m.2 then
      match s.startOp w.k op with
      | none => s.execHere w h op (.go f)
      | some (s, o) =>
        ((s.answer w h op dev stAccepted o []).meetLine w.k (s.cmdReads w.k op p) h.lineTile h.line).1.endOp w.k o stAlarm
    else m.1.execHere w h op (command op w p m.1)

/-- What the lead itself checks of a command with one other target: its LENGTH (R346, log 60). -/
def ownChecks (a : Ans) : Option (Nat × List Byte) :=
  match a with
  | .no st ps => if st = stBadParam && ps = leBytes 2 noField ++ leBytes 8 0 then some (st, ps) else none
  | _ => none

/-- The lead forwards a command with one target (R346, R347). A device that counts as lost answers nothing: HW_FAULT. -/
def State.forwardOne (s : State) (w : Sender) (h : Hdr) (r : OpRow) (p : List Byte) (d : Nat) : State :=
  let dev := s.devIndex w.k
  if r.code = 0x0010 then s.execHere w h r.code (cmdOpStatus w (some d) p s)
  else if s.dev.lostPeers.contains d then s.answer w h r.code dev stHwFault 0 []
  else if r.isOp then
    match ownChecks (command r.code w p s), s.startOp w.k r.code with
    | some q, _ => s.answer w h r.code dev q.1 0 q.2
    | none, none => s.answer w h r.code dev stBusy 0 []
    | none, some (s, o) =>
      let s := s.answer w h r.code dev stAccepted o []
      (s.updOp w.k o fun q => { q with ostatus := 0, waitDevs := [d], parts := [(d, runningRec r.code)] }).send (.forward d w.k o r.code p)
  else (s.updDev fun v => { v with forwarded := v.forwarded ++ [⟨w.k, 0, h, r.code, p⟩] }).send (.forward d w.k h.seq.toNat r.code p)

/-- The lead takes an all-device command (R346): its own checks, then the reservation and the others' checks. -/
def State.forwardAll (s : State) (w : Sender) (h : Hdr) (op : Nat) (p : List Byte) : State :=
  let dev := s.devIndex w.k
  match command op w p s with
  | .no st ps => s.answer w h op dev st 0 ps
  | .sync s st ps => s.answer w h op dev st 0 ps
  | .go f =>
    match s.startOp w.k op with
    | none => s.answer w h op dev stBusy 0 []
    | some (s, o) =>
      let s := s.answer w h op dev stAccepted o []
      match opFailed (f s o) w.k o with
      | some q => s.endOp w.k o q.ostatus q.skind q.scode (some q.result)
      | none =>
        let ds := s.otherDevs w.k
        let s := s.updBox w.k fun x => { x with reserved := x.reserved ++ [(o, op, p)] }
        let s := s.updOp w.k o fun q => { q with waitDevs := ds, parts := ds.map (fun d => (d, runningRec op)) }
        ds.foldl (fun s d => if s.dev.lostPeers.contains d then s.partReport w.k o d false stHwFault [] else s.send (.forward d w.k o op p)) s

/-- The state that refuses a command before its own rules are looked at: SEATED (12:R292), FAULT (14:R370), FROZEN
(12:R294), a session that may not issue it (R334). -/
def State.gate (s : State) (w : Sender) (r : OpRow) : Option (Nat × List Byte) :=
  let rej (a b : Nat) : Nat × List Byte := (stReject, leBytes 1 a ++ leBytes 1 b)
  if w.key.isNone && decide (w.box < 16) && r.code ≠ 0x0500 && r.code ≠ 0x0501 then some (rej 3 2)
  else if w.key.isSome && !(if w.k = mgmt then r.mgt else r.box) then some (stNotAuth, [])
  else if s.dev.dstate = dsFault && (!faultServes r.code || w.port ≠ 2) then some (rej 2 dsFault)
  else if w.k < 16 && (s.box w.k).frozen && !frozenServes r.code then some (stAlarm, [])
  else none

/-- Whether a command of a box would take from its reserved all-device commands what their checks found (R346): such a command is
refused while they are queued (log 60). -/
def State.keepsReserved (s : State) (b : Nat) : Bool :=
  (s.box b).reserved.all (fun r => match command r.2.1 (s.boxSender b 0) r.2.2 s with
    | .go f => (opFailed (f s r.1) b r.1).isNone
    | _ => false)
def State.takesReserved (s : State) (w : Sender) (op : Nat) (p : List Byte) : Bool :=
  decide (w.k < 16) && !(s.box w.k).reserved.isEmpty && (match command op w p s with
    | .no _ _ => false
    | .sync t _ _ => !t.keepsReserved w.k
    | .go f => (match s.startOp w.k op with | some (t, o) => !(f t o).keepsReserved w.k | none => false))

/-- A command that has been taken from its packet is served. -/
def State.serve (s : State) (w : Sender) (h : Hdr) (op : Nat) (p : List Byte) : State :=
  let dev := s.devIndex w.k
  let no (st : Nat) (ps : List Byte) : State := s.answer w h op dev st 0 ps
  match opRow op with
  | none => no stBadOpcode []
  | some r =>
    match s.gate w r with
    | some (st, ps) => no st ps
    | none =>
      if h.flags.toNat % 2 ≠ 0 || 4 ≤ h.flags.toNat then no stBadParam (leBytes 2 noField ++ leBytes 8 0)
      else match s.route w r p h.target.toNat with
        | .bad => no stBadParam (leBytes 2 noField ++ leBytes 8 0)
        | .here => if s.takesReserved w op p then no stReject (leBytes 1 5 ++ leBytes 1 0) else s.execRead w h op p
        | .to d => s.forwardOne w h r p d
        | .all => s.forwardAll w h op p

/-- The assembly of a fragment's session: a box's, the management session's, or the public one of its port (R327, R332). -/
def asmOf (w : Sender) : Nat := if w.box < 16 then w.box else w.k
/-- A fragment joins its session's assembly, or begins another (R327). -/
def Session.join (x : Session) (seq op frag : Nat) (last : Bool) (share : List Byte) : Session :=
  let a : Assembly := match x.asm with
    | some a => if a.seq = seq && a.opcode = op then a else ⟨seq, op, [], none⟩
    | none => ⟨seq, op, [], none⟩
  { x with asm := some { a with parts := Tab.insert frag share (Tab.erase a.parts frag), lastFrag := if last then some frag else a.lastFrag } }
/-- The parameters of a complete assembly, and its last fragment. -/
def Assembly.whole (a : Assembly) : Option (List Byte × Nat) :=
  match a.lastFrag with
  | some n => if (List.range (n + 1)).all (fun i => Tab.has a.parts i) then some ((List.range (n + 1)).flatMap (fun i => Tab.get [] a.parts i), n) else none
  | none => none

/-- A SEQ is accepted, of a session's command (R326); a public command is not in a window (R328). -/
def State.acceptSeq (s : State) (w : Sender) (h : Hdr) : State :=
  if w.key.isSome then s.updSession w.k (fun x => x.accept h.seq.toNat) else s

/-- A fragment (R327). A SEQ already accepted has its stored reply sent again with the fragment that the reply names. -/
def State.fragment (s : State) (w : Sender) (h : Hdr) (op : Nat) (share : List Byte) : State :=
  let k := asmOf w
  let more := h.flags.toNat.testBit 1
  if 63 < h.frag.toNat then s.dropEth
  else
    let ans := if w.key.isSome then (s.session w.k).seqOf h.seq.toNat op else SeqAns.take
    match ans with
    | .drop => s.dropEth
    | .again r => if r.frag = h.frag.toNat then s.send (.reply (r.toSource s h)) else s
    | .take =>
      let s := s.updSession k fun x => x.join h.seq.toNat op h.frag.toNat (!more) share
      match (s.session k).asm.bind Assembly.whole with
      | none => s
      | some (p, n) =>
        if s.cmdHeld w op p then s else
        let s := (s.updSession k fun x => { x with asm := none }).acceptSeq w h
        s.serve w { h with flags := h.flags &&& 0xFFFD, frag := BitVec.ofNat 8 n } op p

/-- A command packet arrives (R325 to R328). A packet with MORE set or with a FRAG is a fragment. -/
def State.hostCommand (s : State) (op : Nat) (h : Hdr) (p : List Byte) : State :=
  match s.screened h op p with
  | .silent => s
  | .authFail => s.dropAuth
  | .from w =>
    if h.flags.toNat.testBit 1 || h.frag ≠ 0 then s.fragment w h op p
    else if w.key.isNone then s.serve w h op p
    else match (s.session w.k).seqOf h.seq.toNat op with
      | .drop => s.dropEth
      | .again r => s.send (.reply (r.toSource s h))
      | .take => if s.cmdHeld w op p then s else (s.acceptSeq w h).serve w h op p

/-- An operation that the lead names is entered on this device (R346). -/
def State.enterOp (s : State) (b opid opcode : Nat) : Option State :=
  let x := s.session b
  if s.opLimit b ≤ x.ops.length || x.ops.any (fun o => o.opid == opid) then none
  else some (s.setSession b { x with ops := x.ops ++ [⟨opid, opcode, 1, 0, 0, 0, 0, [], [], none, [], [], false⟩] })

/-- Whether the lead of a box's group was attested with the key of the binding at link training: by this device, where it is a
peer of one of its own ports, else as the group tells with the command (R345; 12:R312; log 60). -/
def State.leadAttested (s : State) (g : Binding) (leadPk : List Byte) : Bool :=
  let direct := (List.range 4).filter (fun p => decide (2 ≤ (s.fab p).st) && (s.fab p).peer == g.lead)
  if direct.isEmpty then leadPk == g.leadPk else direct.all (fun p => (s.fab p).peerPk == g.leadPk)

/-- A forwarded command is executed, or checked and reserved, for the box bound to its lead (R347). The answer is the
status and parameters of the report, with whether it is of an operation. -/
def State.forwardedTo (s : State) (b : Nat) (all : Bool) (opid op : Nat) (p : List Byte) : State × Nat × List Byte :=
  let w := s.boxSender b 0
  match opRow op with
  | none => (s, stBadOpcode, [])
  | some r =>
    if (s.box b).st ≠ 3 then (s, stReject, leBytes 1 3 ++ leBytes 1 (s.box b).code)
    else match s.gate { w with key := some 0, port := 2 } r with
      | some (st, ps) => (s, st, ps)
      | none =>
        let m := s.meetLine b (s.cmdReads b op p) 0 .good
        let s := m.1
        if m.2 then (s, stAlarm, []) else
        match command op w p s with
        | .no st ps => (s, st, ps)
        | .sync s st ps => (s, st, ps)
        | .go f =>
          match s.enterOp b opid op with
          | none => (s, stBusy, [])
          | some e =>
            if all then
              match opFailed (f e opid) b opid with
              | some q => (s, q.ostatus, if q.ostatus = stReject then leBytes 1 q.skind ++ leBytes 1 q.scode
                  else if q.ostatus = stBadParam then leBytes 2 noField ++ leBytes 8 q.result else [])
              | none => (e.updBox b fun x => { x with reserved := x.reserved ++ [(opid, op, p)] }, stOk, [])
            else (f e opid, stAccepted, [])

end Sys2Proof.Machine
end

