-- ==== Sys2Proof/Machine/GroupRows.lean ====
section
/-! DEFINITION. Fragments, dropped datagrams, operation slots, and what passes between the devices of a group
(13:R323, R327, R332, R334, R346, R347, R354; 11:R268, R270). -/
namespace Sys2Proof.Machine

/-- COMMAND_FRAGMENT (R327). -/
def execCommandFragment (h : Hdr) (opcode : BitVec 16) (share : List Byte) (s : State) : Host.Outcome State Fault Refusal :=
  .next (match s.screened h opcode.toNat share with
    | .silent => s
    | .authFail => s.dropAuth
    | .from w => s.fragment w h opcode.toNat share)

/-- ASSEMBLY_TIMEOUT (R327). -/
def execAssemblyTimeout (session : Fin 20) (s : State) : Host.Outcome State Fault Refusal :=
  .next (s.updSession session.val fun x => { x with asm := none })

/-- OP_SLOT_EXPIRE (R332): 10 s after its operation completed, a slot is freed. -/
def execOpSlotExpire (session : Fin 20) (opid : W32) (s : State) : Host.Outcome State Fault Refusal :=
  .next (match (s.session session.val).op opid.toNat with
    | some o => if o.partsRunning then s else s.dropOp session.val o
    | none => s)

/-- DATAGRAM_DROP (R323, R325): counted in ETH_DROP, or in ETH_AUTH_FAIL. -/
def execDatagramDrop (cause : DropCause) (s : State) : Host.Outcome State Fault Refusal :=
  .next (if !s.answers then s else match cause with
    | .notWellFormed => s.dropEth
    | .tagFailed => s.dropAuth)

/-- UNLISTED_OPCODE (R334): BAD_OPCODE. -/
def execUnlistedOpcode (h : Hdr) (opcode : BitVec 16) (p : List Byte) (s : State) : Host.Outcome State Fault Refusal :=
  .next (if (opRow opcode.toNat).isSome then s else s.hostCommand opcode.toNat h p)

/-- FORWARDED_COMMAND (R345 to R347). `opid` is the lead's OPID, or the SEQ of a synchronous command; `lead.pk` is the
key with which the lead was attested where its commands enter the group's links. -/
def execForwardedCommand (lead : LeadId) (leadBox : Byte) (all : Bool) (opid : W32) (opcode : BitVec 16) (params : List Byte) (s : State) :
    Host.Outcome State Fault Refusal :=
  let d := lead.dev.toNat
  let isOp := match opRow opcode.toNat with | some r => r.isOp | none => false
  let reply (s : State) (st : Nat) (ps : List Byte) : State :=
    s.send (if isOp then .forwardReply d leadBox.toNat opid.toNat 0 st ps else .forwardReply d leadBox.toNat 0 opid.toNat st ps)
  if !s.dev.on then .next s
  else
    let bound (b : Nat) : Bool := match (s.box b).binding with
      | some g => g.lead == d && g.leadBox == leadBox.toNat && g.lead != s.groupIndex
      | none => false
    .next (match boxNumbers.find? bound with
      | none => reply s stHwFault []
      | some b =>
        if !(match (s.box b).binding with | some g => s.leadAttested g lead.pk | none => false) then reply s stNotAuth []
        else
          let r := s.forwardedTo b all opid.toNat opcode.toNat params
          reply r.1 r.2.1 r.2.2)

/-- FORWARDED_REPLY (R346, R347): the target's reply to a synchronous command, which the lead seals and sends; or a
device's report on an operation. -/
def execForwardedReply (box : Fin 16) (dev : Fin 64) (opid seq : W32) (status : Byte) (params : List Byte) (s : State) :
    Host.Outcome State Fault Refusal :=
  let b := box.val
  if !s.dev.on then .next s
  else if opid = 0 then
    .next (match s.dev.forwarded.find? (fun f => f.box == b && f.hdr.seq == seq && f.hdr.target.toNat == dev.val) with
      | none => s
      | some f =>
        let s := s.updDev fun d => { d with forwarded := d.forwarded.filter (fun q => !(q.box == b && q.hdr.seq == seq && q.hdr.target.toNat == dev.val)) }
        if (s.boxKey b).isNone then s
        else s.answer (s.boxSender b f.hdr.port.val) f.hdr f.opcode dev.val status.toNat 0 params)
  else
    .next (match (s.session b).op opid.toNat with
      | none => s
      | some o =>
        if !o.waitDevs.contains dev.val then s
        else s.partReport b opid.toNat dev.val (status.toNat == stOk || status.toNat == stAccepted) status.toNat params)

/-- COMMIT (R346). -/
def execCommit (box : Fin 16) (opid : W32) (s : State) : Host.Outcome State Fault Refusal :=
  .next (if s.dev.on && !s.isLead box.val then s.commitOp box.val opid.toNat else s)

/-- CANCEL (R346). -/
def execCancel (box : Fin 16) (opid : W32) (s : State) : Host.Outcome State Fault Refusal :=
  .next (if s.dev.on && !s.isLead box.val then s.cancelOp box.val opid.toNat else s)

/-- OP_STATUS_REFRESH (R346): the lead's copy of a device's status record. -/
def execOpStatusRefresh (box : Fin 16) (dev : Fin 64) (opid : W32) (r : OpRecord) (s : State) : Host.Outcome State Fault Refusal :=
  .next (s.updOp box.val opid.toNat fun o => { o with parts := o.parts.map (fun q => if q.1 = dev.val then (q.1, r) else q) })

/-- The parts of a lost device end with HW_FAULT at the lead, and synchronous commands forwarded to it are answered so
(R330; log 60). -/
def State.partsLost (s : State) (b d : Nat) : State :=
  let s := (s.session b).ops.foldl (fun s (o : Op) =>
    if o.waitDevs.contains d then s.partReport b o.opid d false stHwFault []
    else s.updOp b o.opid fun o => { o with parts := o.parts.map (fun q =>
      if q.1 = d && q.2.ostatus = 1 then (d, { q.2 with ostatus := BitVec.ofNat 8 stHwFault }) else q) }) s
  let mine (f : Forwarded) : Bool := f.box == b && f.hdr.target.toNat == d
  let fs := s.dev.forwarded.filter mine
  let s := s.updDev fun v => { v with forwarded := v.forwarded.filter (fun f => !mine f) }
  if (s.boxKey b).isNone then s
  else fs.foldl (fun s f => s.answer (s.boxSender b f.hdr.port.val) f.hdr f.opcode (s.devIndex b) stHwFault 0 []) s

/-- A device that has lost its lead ends its parts of forwarded operations as if aborted, SEAL launches of a curtain in
READY apart (R354), and drops what it had reserved. -/
def State.leadLost (s : State) (b lead : Nat) : State :=
  let s := s.updBox b fun x => { x with reserved := [] }
  let kept (o : Op) : Bool := (s.box b).cst == 2 && (match s.opLaunch b o with | some l => l.st == LaunchSt.sealed | none => false)
  (s.session b).ops.foldl (fun s (o : Op) => if o.opid / 2 ^ 26 = lead && o.ostatus = 1 && !kept o then s.abortOp b o else s) s

/-- What a device tells this one of a box over the management channel (11:R268, R273, R275; 12:R293, R294): the lead hears of
failures and closed boxes of its group, a device of a mirror wing without a frame, and of its partner's restore. -/
def State.hearPeer (s : State) (dev : Nat) (p : Fin 16 × PeerReport) : State :=
  let b := p.1.val
  let x := s.box b
  let lead := s.isLead b && decide (dev < s.boxGroup b)
  let current (e : W32) : Bool := e.toNat == x.openE
  if x.st ≠ 3 then s
  else match p.2 with
  | .launchFailed e cause => if lead && current e then s.decideDiscard b cause.toNat else s
  | .alarm => if lead then s.decideDiscard b 5 else s
  | .closed => if lead then (s.partsLost b dev).decideDiscard b 2 else s
  | .mirrorFull e => if current e && x.cst = 1 && s.partnerOf b = some dev && x.outcome.isNone then s.sealFails b 6 else s
  | .restored => if s.partnerOf b = some dev && !x.frozen && x.cst ≠ 3 && x.cst ≠ 4 then s.startBase b else s

/-- HEARTBEAT (11:R268, R270): a heartbeat is exchanged with a device of the group, with what it has to tell (log 13). -/
def execHeartbeat (beat : Beat) (s : State) : Host.Outcome State Fault Refusal :=
  .next (if !s.dev.on then s else
    beat.told.foldl (fun s p => s.hearPeer beat.dev.val p)
      ((s.updDev fun d => { d with lostPeers := d.lostPeers.filter (· ≠ beat.dev.val) }).send .heartbeat))

/-- HEARTBEAT_LOST (11:R268, R270; R354): a device counts as lost. A lead discards; a device that has lost its lead
discards in OPEN and SEALING and waits in READY. -/
def execHeartbeatLost (dev : Fin 64) (s : State) : Host.Outcome State Fault Refusal :=
  if !s.dev.on then .next s
  else
    let s := s.updDev fun d => { d with lostPeers := if d.lostPeers.contains dev.val then d.lostPeers else dev.val :: d.lostPeers }
    .next (s.forBoxes fun s b =>
      let x := s.box b
      match x.binding with
      | none => s
      | some g =>
        if x.st ≠ 3 || g.size ≤ dev.val || dev.val = s.groupIndex then s
        else if s.isLead b then (s.partsLost b dev.val).decideDiscard b 2
        else if g.lead = dev.val then
          let s := if x.cst = 0 || x.cst = 1 then s.beginDiscard b 2 false
            else if x.cst = 2 then s.updBox b fun x => { x with orphan := true } else s
          s.leadLost b dev.val
        else s)

end Sys2Proof.Machine
end

