-- ==== Sys2Proof/Machine/HostRows.lean ====
section
/-! DEFINITION. The host commands of R334, one meaning per row: each is its opcode's packet, taken by `hostCommand`. The
rows of FW_UPDATE and DIAG_RUN act on the packets of their PHASE or KIND, those of single registers on the packet that
names the register. -/
namespace Sys2Proof.Machine

/-- R353. -/
def execInfo (h : Hdr) (p : List Byte) (s : State) : Host.Outcome State Fault Refusal := .next (s.hostCommand 0x0000 h p)
/-- R326. -/
def execSessionRoll (h : Hdr) (p : List Byte) (s : State) : Host.Outcome State Fault Refusal := .next (s.hostCommand 0x0001 h p)
/-- R345. -/
def execGroupBind (h : Hdr) (p : List Byte) (s : State) : Host.Outcome State Fault Refusal := .next (s.hostCommand 0x0002 h p)
/-- R352. -/
def execMgtSession (h : Hdr) (p : List Byte) (s : State) : Host.Outcome State Fault Refusal := .next (s.hostCommand 0x0003 h p)
/-- R333. -/
def execOpStatus (h : Hdr) (p : List Byte) (s : State) : Host.Outcome State Fault Refusal := .next (s.hostCommand 0x0010 h p)
/-- R333. -/
def execOpRead (h : Hdr) (p : List Byte) (s : State) : Host.Outcome State Fault Refusal := .next (s.hostCommand 0x0011 h p)
/-- R333, R335. -/
def execOpAbort (h : Hdr) (p : List Byte) (s : State) : Host.Outcome State Fault Refusal := .next (s.hostCommand 0x0012 h p)
/-- R333. -/
def execOpRelease (h : Hdr) (p : List Byte) (s : State) : Host.Outcome State Fault Refusal := .next (s.hostCommand 0x0013 h p)
/-- R333. -/
def execEventRead (h : Hdr) (p : List Byte) (s : State) : Host.Outcome State Fault Refusal := .next (s.hostCommand 0x0014 h p)
/-- 12:R289. -/
def execBoxOpen (h : Hdr) (p : List Byte) (s : State) : Host.Outcome State Fault Refusal := .next (s.hostCommand 0x0100 h p)
/-- 12:R293. -/
def execBoxClose (h : Hdr) (p : List Byte) (s : State) : Host.Outcome State Fault Refusal := .next (s.hostCommand 0x0101 h p)
/-- R345. -/
def execGroupCfg (h : Hdr) (p : List Byte) (s : State) : Host.Outcome State Fault Refusal := .next (s.hostCommand 0x0104 h p)
/-- R342. -/
def execEthCfg (h : Hdr) (p : List Byte) (s : State) : Host.Outcome State Fault Refusal := .next (s.hostCommand 0x0110 h p)
/-- R343. -/
def execLinkCak (h : Hdr) (p : List Byte) (s : State) : Host.Outcome State Fault Refusal := .next (s.hostCommand 0x0111 h p)
/-- 09:R215. -/
def execModelInstall (h : Hdr) (p : List Byte) (s : State) : Host.Outcome State Fault Refusal := .next (s.hostCommand 0x0120 h p)
/-- 09:R215. -/
def execModelStoreErase (h : Hdr) (p : List Byte) (s : State) : Host.Outcome State Fault Refusal := .next (s.hostCommand 0x0121 h p)
/-- R338. -/
def execRegionMap (h : Hdr) (p : List Byte) (s : State) : Host.Outcome State Fault Refusal := .next (s.hostCommand 0x0200 h p)
/-- R338. -/
def execRegionUnmap (h : Hdr) (p : List Byte) (s : State) : Host.Outcome State Fault Refusal := .next (s.hostCommand 0x0201 h p)
/-- R338. -/
def execTileUnd (h : Hdr) (p : List Byte) (s : State) : Host.Outcome State Fault Refusal := .next (s.hostCommand 0x0202 h p)
/-- R338. -/
def execTileMove (h : Hdr) (p : List Byte) (s : State) : Host.Outcome State Fault Refusal := .next (s.hostCommand 0x0203 h p)
/-- R339. -/
def execXferReg (h : Hdr) (p : List Byte) (s : State) : Host.Outcome State Fault Refusal := .next (s.hostCommand 0x0210 h p)
/-- R339. -/
def execXferDrop (h : Hdr) (p : List Byte) (s : State) : Host.Outcome State Fault Refusal := .next (s.hostCommand 0x0211 h p)
/-- R340. -/
def execXferRun (h : Hdr) (p : List Byte) (s : State) : Host.Outcome State Fault Refusal := .next (s.hostCommand 0x0212 h p)
/-- 09:R216. -/
def execWtLoad (h : Hdr) (p : List Byte) (s : State) : Host.Outcome State Fault Refusal := .next (s.hostCommand 0x0220 h p)
/-- 09:R219. -/
def execWtChannel (h : Hdr) (p : List Byte) (s : State) : Host.Outcome State Fault Refusal := .next (s.hostCommand 0x0221 h p)
/-- 09:R221. -/
def execSceneChange (h : Hdr) (p : List Byte) (s : State) : Host.Outcome State Fault Refusal := .next (s.hostCommand 0x0222 h p)
/-- R336. -/
def execScriptLoad (h : Hdr) (p : List Byte) (s : State) : Host.Outcome State Fault Refusal := .next (s.hostCommand 0x0300 h p)
/-- R337. -/
def execLaunch (h : Hdr) (p : List Byte) (s : State) : Host.Outcome State Fault Refusal := .next (s.hostCommand 0x0301 h p)
/-- 11:R263. -/
def execCurtainCfg (h : Hdr) (p : List Byte) (s : State) : Host.Outcome State Fault Refusal := .next (s.hostCommand 0x0400 h p)
/-- 11:R272. -/
def execCurtainStatus (h : Hdr) (p : List Byte) (s : State) : Host.Outcome State Fault Refusal := .next (s.hostCommand 0x0401 h p)
/-- 11:R271. -/
def execCurtainResolve (h : Hdr) (p : List Byte) (s : State) : Host.Outcome State Fault Refusal := .next (s.hostCommand 0x0403 h p)
/-- 11:R281. -/
def execSceneRestore (h : Hdr) (p : List Byte) (s : State) : Host.Outcome State Fault Refusal := .next (s.hostCommand 0x0405 h p)
/-- 11:R285. -/
def execIfealeImport (h : Hdr) (p : List Byte) (s : State) : Host.Outcome State Fault Refusal := .next (s.hostCommand 0x0407 h p)
/-- 11:R276. -/
def execLocalRelease (h : Hdr) (p : List Byte) (s : State) : Host.Outcome State Fault Refusal := .next (s.hostCommand 0x0408 h p)
/-- 12:R315. -/
def execAttest (h : Hdr) (p : List Byte) (s : State) : Host.Outcome State Fault Refusal := .next (s.hostCommand 0x0500 h p)
/-- 12:R317. -/
def execKeyRelease (h : Hdr) (p : List Byte) (s : State) : Host.Outcome State Fault Refusal := .next (s.hostCommand 0x0501 h p)
/-- 12:R319. -/
def execKeyPut (h : Hdr) (p : List Byte) (s : State) : Host.Outcome State Fault Refusal := .next (s.hostCommand 0x0502 h p)
/-- 12:R301. -/
def execKeyDestroy (h : Hdr) (p : List Byte) (s : State) : Host.Outcome State Fault Refusal := .next (s.hostCommand 0x0503 h p)
/-- 12:R307. -/
def execRekey (h : Hdr) (p : List Byte) (s : State) : Host.Outcome State Fault Refusal := .next (s.hostCommand 0x0504 h p)
/-- 12:R301. -/
def execKeyGen (h : Hdr) (p : List Byte) (s : State) : Host.Outcome State Fault Refusal := .next (s.hostCommand 0x0505 h p)
/-- 12:R321. -/
def execApprove (h : Hdr) (p : List Byte) (s : State) : Host.Outcome State Fault Refusal := .next (s.hostCommand 0x0506 h p)
/-- 12:R306. -/
def execAlarmRead (h : Hdr) (p : List Byte) (s : State) : Host.Outcome State Fault Refusal := .next (s.hostCommand 0x0507 h p)
/-- 14:R364. -/
def execLcStatus (h : Hdr) (p : List Byte) (s : State) : Host.Outcome State Fault Refusal := .next (s.hostCommand 0x0600 h p)
/-- 14:R360. -/
def execLcTransition (h : Hdr) (p : List Byte) (s : State) : Host.Outcome State Fault Refusal := .next (s.hostCommand 0x0601 h p)
/-- 14:R379. -/
def execSpareReport (h : Hdr) (p : List Byte) (s : State) : Host.Outcome State Fault Refusal := .next (s.hostCommand 0x0620 h p)
/-- R341. -/
def execRegRead (h : Hdr) (p : List Byte) (s : State) : Host.Outcome State Fault Refusal := .next (s.hostCommand 0x0700 h p)
/-- R341. -/
def execRegWrite (h : Hdr) (p : List Byte) (s : State) : Host.Outcome State Fault Refusal := .next (s.hostCommand 0x0701 h p)

/-- 14:R368, PHASE 0x00, or one that is not defined. -/
def execFwUpdateBegin (h : Hdr) (p : List Byte) (s : State) : Host.Outcome State Fault Refusal :=
  .next (if [1, 2, 3].contains (fieldAt p 0 1) then s else s.hostCommand 0x0610 h p)
/-- 14:R368, PHASE 0x01. -/
def execFwUpdateData (h : Hdr) (p : List Byte) (s : State) : Host.Outcome State Fault Refusal :=
  .next (if fieldAt p 0 1 = 1 then s.hostCommand 0x0610 h p else s)
/-- 14:R368, PHASE 0x02. -/
def execFwUpdateEnd (h : Hdr) (p : List Byte) (s : State) : Host.Outcome State Fault Refusal :=
  .next (if fieldAt p 0 1 = 2 then s.hostCommand 0x0610 h p else s)
/-- 14:R368, R358, PHASE 0x03. -/
def execFwUpdateCommitSvn (h : Hdr) (p : List Byte) (s : State) : Host.Outcome State Fault Refusal :=
  .next (if fieldAt p 0 1 = 3 then s.hostCommand 0x0610 h p else s)
/-- 14:R367, KIND 0x01, or one that is not defined. -/
def execDiagSelftest (h : Hdr) (p : List Byte) (s : State) : Host.Outcome State Fault Refusal :=
  .next (if [2, 3, 4].contains (fieldAt p 0 1) then s else s.hostCommand 0x0702 h p)
/-- 14:R367, KIND 0x02. -/
def execDiagBoxDebug (h : Hdr) (p : List Byte) (s : State) : Host.Outcome State Fault Refusal :=
  .next (if fieldAt p 0 1 = 2 then s.hostCommand 0x0702 h p else s)
/-- 14:R367, KIND 0x03. -/
def execDiagDeviceDebug (h : Hdr) (p : List Byte) (s : State) : Host.Outcome State Fault Refusal :=
  .next (if fieldAt p 0 1 = 3 then s.hostCommand 0x0702 h p else s)
/-- 14:R367, KIND 0x04. -/
def execDiagDebugOff (h : Hdr) (p : List Byte) (s : State) : Host.Outcome State Fault Refusal :=
  .next (if fieldAt p 0 1 = 4 then s.hostCommand 0x0702 h p else s)

/-- The parameters of a REG_READ (R341). -/
def readOf (addr count : Nat) : List Byte := leBytes 4 addr ++ leBytes 1 count
/-- The address of a register of block CORE (00:R6). -/
def coreReg (core off : Nat) : Nat := 0x800000 + core * 0x10000 + off

/-- 00:R7; 13 registers: a REG_WRITE to ETH_CMD_PORT. -/
def execEthCmdPortWrite (h : Hdr) (value : W32) (s : State) : Host.Outcome State Fault Refusal :=
  .next (s.hostCommand 0x0701 h (leBytes 4 0x200000 ++ leBytes 4 value.toNat))
/-- 06:R127 and registers: a REG_READ of CORE_SCRIPT_LO. -/
def execCoreScriptLoRead (h : Hdr) (core : Fin 128) (s : State) : Host.Outcome State Fault Refusal :=
  .next (s.hostCommand 0x0700 h (readOf (coreReg core.val 8) 1))
/-- 06 registers: a REG_READ of CORE_OFFSET_LO. -/
def execCoreOffsetLoRead (h : Hdr) (core : Fin 128) (s : State) : Host.Outcome State Fault Refusal :=
  .next (s.hostCommand 0x0700 h (readOf (coreReg core.val 0x10) 1))
/-- 11 registers: a REG_READ of MEM_BOX_STEP_LO. -/
def execMemBoxStepLoRead (h : Hdr) (box : Fin 16) (s : State) : Host.Outcome State Fault Refusal :=
  .next (s.hostCommand 0x0700 h (readOf (0x300000 + 0x2014 + box.val * 0x20) 1))
/-- 08:R188: a REG_READ of registers of a stream context. -/
def execStreamContextRead (h : Hdr) (x : Ctx) (reg : Fin 16) (count : Byte) (s : State) : Host.Outcome State Fault Refusal :=
  .next (s.hostCommand 0x0700 h (readOf (coreReg x.core.val (0x1000 + x.ctx.val * 0x40 + 4 * reg.val)) count.toNat))

end Sys2Proof.Machine
end

