-- ==== Sys2Proof/Machine/SlotControlRows.lean ====
section
/-! DEFINITION. The commands of the CTL and SYNC slots: each reaches the sequencer of its core (log 6), whose effect is Core.slotEffect
and the issue of its bundle. -/
namespace Sys2Proof.Machine

/-- NOP issues and does nothing (06:R129). -/
def execNop (i : Issue) (s : State) : Host.Outcome State Fault Refusal :=
  .next (s.submit (.nop i) i)
/-- HALT (06:R155). -/
def execHalt (i : Issue) (s : State) : Host.Outcome State Fault Refusal :=
  .next (s.submit (.halt i) i)
/-- JMP (06:R131, R136). -/
def execJmp (i : Issue) (target : BitVec 14) (s : State) : Host.Outcome State Fault Refusal :=
  .next (s.submit (.jmp i target) i)
/-- BRZ (06:R131). -/
def execBrz (i : Issue) (sa : Fin 32) (target : BitVec 14) (s : State) : Host.Outcome State Fault Refusal :=
  .next (s.submit (.brz i sa target) i)
/-- BRNZ (06:R131). -/
def execBrnz (i : Issue) (sa : Fin 32) (target : BitVec 14) (s : State) : Host.Outcome State Fault Refusal :=
  .next (s.submit (.brnz i sa target) i)
/-- LOOP (06:R397). -/
def execLoop (i : Issue) (count : BitVec 24) (endB : BitVec 14) (s : State) : Host.Outcome State Fault Refusal :=
  .next (s.submit (.loop i count endB) i)
/-- LOOPR (06:R397). -/
def execLoopr (i : Issue) (sa : Fin 32) (endB : BitVec 14) (s : State) : Host.Outcome State Fault Refusal :=
  .next (s.submit (.loopr i sa endB) i)
/-- CWAIT (06:R141). -/
def execCwait (i : Issue) (cue : Fin 64) (sben : Bool) (sb : Fin 8) (s : State) : Host.Outcome State Fault Refusal :=
  .next (s.submit (.cwait i cue sben sb) i)
/-- SBREG (06:R145). -/
def execSbreg (i : Issue) (sb : Fin 8) (entry : BitVec 14) (s : State) : Host.Outcome State Fault Refusal :=
  .next (s.submit (.sbreg i sb entry) i)
/-- SBRET (06:R145, R146). -/
def execSbret (i : Issue) (s : State) : Host.Outcome State Fault Refusal :=
  .next (s.submit (.sbret i) i)
/-- PPOINT (06:R152). -/
def execPpoint (i : Issue) (s : State) : Host.Outcome State Fault Refusal :=
  .next (s.submit (.ppoint i) i)
/-- CRET (06:R138, 08:R191). -/
def execCret (i : Issue) (st : Fin 128) (buf : Fin 8) (cue : Fin 64) (dl : Dl) (s : State) : Host.Outcome State Fault Refusal :=
  .next (s.submit (.cret i st buf cue dl) i)
/-- CARM (06:R138). -/
def execCarm (i : Issue) (cue : Fin 64) (pol : BitVec 2) (dl : Dl) (s : State) : Host.Outcome State Fault Refusal :=
  .next (s.submit (.carm i cue pol dl) i)
/-- CPOST (06:R139). -/
def execCpost (i : Issue) (dest : Fin 128) (cue : Fin 64) (dreg : Fin 32) (s : State) : Host.Outcome State Fault Refusal :=
  .next (s.submit (.cpost i dest cue dreg) i)
/-- CDROP (06:R138, 08:R191). -/
def execCdrop (i : Issue) (cue : Fin 64) (s : State) : Host.Outcome State Fault Refusal :=
  .next (s.submit (.cdrop i cue) i)

end Sys2Proof.Machine
end

