-- ==== Sys2Proof/Machine/SlotHingeRows.lean ====
section
/-! DEFINITION. The commands of the HA and HD slots: each reaches the sequencer of its core (log 6), whose effect is Core.slotEffect
and the issue of its bundle. -/
namespace Sys2Proof.Machine

/-- HLOAD (03:R64, R65). -/
def execHload (i : Issue) (desc : BitVec 12) (ba : Fin 32) (alt : Bool) (ucue : Fin 64) (s : State) : Host.Outcome State Fault Refusal :=
  .next (s.submit (.hload i desc ba alt ucue) i)
/-- HMUL (03:R66 to R73). -/
def execHmul (i : Issue) (desc : BitVec 12) (ba bb : Fin 32) (s : State) : Host.Outcome State Fault Refusal :=
  .next (s.submit (.hmul i desc ba bb) i)
/-- PRELOAD (03:R75). -/
def execPreload (i : Issue) (desc : BitVec 12) (ba bb : Fin 32) (s : State) : Host.Outcome State Fault Refusal :=
  .next (s.submit (.preload i desc ba bb) i)
/-- HSAVE (03:R85). -/
def execHsave (i : Issue) (desc : BitVec 12) (ba bb : Fin 32) (s : State) : Host.Outcome State Fault Refusal :=
  .next (s.submit (.hsave i desc ba bb) i)
/-- HRESTORE (03:R85). -/
def execHrestore (i : Issue) (desc : BitVec 12) (ba bb : Fin 32) (s : State) : Host.Outcome State Fault Refusal :=
  .next (s.submit (.hrestore i desc ba bb) i)
/-- HDRAIN (03:R77 to R80). -/
def execHdrain (i : Issue) (desc : BitVec 12) (ba bb : Fin 32) (s : State) : Host.Outcome State Fault Refusal :=
  .next (s.submit (.hdrain i desc ba bb) i)
/-- HAMAX (03:R81). -/
def execHamax (i : Issue) (arr : Fin 2) (clr : Bool) (dst : BitVec 23) (s : State) : Host.Outcome State Fault Refusal :=
  .next (s.submit (.hamax i arr clr dst) i)
/-- HDPARAM (04:R96). -/
def execHdparam (i : Issue) (arr : Fin 2) (sc : Fin 32) (s : State) : Host.Outcome State Fault Refusal :=
  .next (s.submit (.hdparam i arr sc) i)

end Sys2Proof.Machine
end

