-- ==== Sys2Proof/Machine/SlotScalarRows.lean ====
section
/-! DEFINITION. The commands of the SC slot: each reaches the sequencer of its core (log 6), whose effect is Core.slotEffect
and the issue of its bundle. -/
namespace Sys2Proof.Machine

/-- SLI (06:R395). -/
def execSli (i : Issue) (sd : Fin 32) (imm : W32) (s : State) : Host.Outcome State Fault Refusal :=
  .next (s.submit (.sli i sd imm) i)
/-- SMOV (06:R395). -/
def execSmov (i : Issue) (sd sa : Fin 32) (s : State) : Host.Outcome State Fault Refusal :=
  .next (s.submit (.smov i sd sa) i)
/-- SADD (06:R395). -/
def execSadd (i : Issue) (sd sa : Fin 32) (b : BOp) (s : State) : Host.Outcome State Fault Refusal :=
  .next (s.submit (.sadd i sd sa b) i)
/-- SSUB (06:R395). -/
def execSsub (i : Issue) (sd sa : Fin 32) (b : BOp) (s : State) : Host.Outcome State Fault Refusal :=
  .next (s.submit (.ssub i sd sa b) i)
/-- SAND (06:R395). -/
def execSand (i : Issue) (sd sa : Fin 32) (b : BOp) (s : State) : Host.Outcome State Fault Refusal :=
  .next (s.submit (.sand i sd sa b) i)
/-- SOR (06:R395). -/
def execSor (i : Issue) (sd sa : Fin 32) (b : BOp) (s : State) : Host.Outcome State Fault Refusal :=
  .next (s.submit (.sor i sd sa b) i)
/-- SXOR (06:R395). -/
def execSxor (i : Issue) (sd sa : Fin 32) (b : BOp) (s : State) : Host.Outcome State Fault Refusal :=
  .next (s.submit (.sxor i sd sa b) i)
/-- SSHL (06:R395). -/
def execSshl (i : Issue) (sd sa : Fin 32) (b : BOp) (s : State) : Host.Outcome State Fault Refusal :=
  .next (s.submit (.sshl i sd sa b) i)
/-- SSHR (06:R395). -/
def execSshr (i : Issue) (sd sa : Fin 32) (b : BOp) (s : State) : Host.Outcome State Fault Refusal :=
  .next (s.submit (.sshr i sd sa b) i)
/-- SSRA (06:R395). -/
def execSsra (i : Issue) (sd sa : Fin 32) (b : BOp) (s : State) : Host.Outcome State Fault Refusal :=
  .next (s.submit (.ssra i sd sa b) i)
/-- SCMP (06:R395). -/
def execScmp (i : Issue) (cond : SCond) (sd sa : Fin 32) (b : BOp) (s : State) : Host.Outcome State Fault Refusal :=
  .next (s.submit (.scmp i cond sd sa b) i)
/-- SMUL (06:R395). -/
def execSmul (i : Issue) (sd sa : Fin 32) (b : BOp) (s : State) : Host.Outcome State Fault Refusal :=
  .next (s.submit (.smul i sd sa b) i)
/-- SFADD (06:R395). -/
def execSfadd (i : Issue) (sd sa : Fin 32) (b : BOp) (s : State) : Host.Outcome State Fault Refusal :=
  .next (s.submit (.sfadd i sd sa b) i)
/-- SFSUB (06:R395). -/
def execSfsub (i : Issue) (sd sa : Fin 32) (b : BOp) (s : State) : Host.Outcome State Fault Refusal :=
  .next (s.submit (.sfsub i sd sa b) i)
/-- SFMUL (06:R395). -/
def execSfmul (i : Issue) (sd sa : Fin 32) (b : BOp) (s : State) : Host.Outcome State Fault Refusal :=
  .next (s.submit (.sfmul i sd sa b) i)
/-- SFFMA (06:R395). -/
def execSffma (i : Issue) (sd sa : Fin 32) (b : BOp) (s : State) : Host.Outcome State Fault Refusal :=
  .next (s.submit (.sffma i sd sa b) i)
/-- SFMIN (06:R395). -/
def execSfmin (i : Issue) (sd sa : Fin 32) (b : BOp) (s : State) : Host.Outcome State Fault Refusal :=
  .next (s.submit (.sfmin i sd sa b) i)
/-- SFMAX (06:R395). -/
def execSfmax (i : Issue) (sd sa : Fin 32) (b : BOp) (s : State) : Host.Outcome State Fault Refusal :=
  .next (s.submit (.sfmax i sd sa b) i)
/-- SLD (06:R133, R395). -/
def execSld (i : Issue) (sd sa : Fin 32) (imm : W32) (s : State) : Host.Outcome State Fault Refusal :=
  .next (s.submit (.sld i sd sa imm) i)
/-- SST (06:R133, R395). -/
def execSst (i : Issue) (sd sa : Fin 32) (imm : W32) (s : State) : Host.Outcome State Fault Refusal :=
  .next (s.submit (.sst i sd sa imm) i)
/-- SCYC (06:R395). -/
def execScyc (i : Issue) (sd : Fin 32) (s : State) : Host.Outcome State Fault Refusal :=
  .next (s.submit (.scyc i sd) i)

end Sys2Proof.Machine
end

