-- ==== Sys2Proof/Machine/SlotVectorRows.lean ====
section
/-! DEFINITION. The commands of the VX, VL and VS slots: each reaches the sequencer of its core (log 6), whose effect is Core.slotEffect
and the issue of its bundle. -/
namespace Sys2Proof.Machine

/-- VMOV (05:R108). -/
def execVmov (i : Issue) (e : VEn) (vd vs : Fin 32) (s : State) : Host.Outcome State Fault Refusal :=
  .next (s.submit (.vmov i e vd vs) i)
/-- VBCAST (05:R108). -/
def execVbcast (i : Issue) (e : VEn) (vd sa : Fin 32) (s : State) : Host.Outcome State Fault Refusal :=
  .next (s.submit (.vbcast i e vd sa) i)
/-- VIOTA (05:R108). -/
def execViota (i : Issue) (e : VEn) (vd : Fin 32) (s : State) : Host.Outcome State Fault Refusal :=
  .next (s.submit (.viota i e vd) i)
/-- VAND (05:R108). -/
def execVand (i : Issue) (e : VEn) (vd va : Fin 32) (b : VB) (s : State) : Host.Outcome State Fault Refusal :=
  .next (s.submit (.vand i e vd va b) i)
/-- VOR (05:R108). -/
def execVor (i : Issue) (e : VEn) (vd va : Fin 32) (b : VB) (s : State) : Host.Outcome State Fault Refusal :=
  .next (s.submit (.vor i e vd va b) i)
/-- VXOR (05:R108). -/
def execVxor (i : Issue) (e : VEn) (vd va : Fin 32) (b : VB) (s : State) : Host.Outcome State Fault Refusal :=
  .next (s.submit (.vxor i e vd va b) i)
/-- VNOT (05:R108). -/
def execVnot (i : Issue) (e : VEn) (vd va : Fin 32) (s : State) : Host.Outcome State Fault Refusal :=
  .next (s.submit (.vnot i e vd va) i)
/-- VSHL (05:R112). -/
def execVshl (i : Issue) (e : VEn) (vd va : Fin 32) (b : VB) (s : State) : Host.Outcome State Fault Refusal :=
  .next (s.submit (.vshl i e vd va b) i)
/-- VSHR (05:R112). -/
def execVshr (i : Issue) (e : VEn) (vd va : Fin 32) (b : VB) (s : State) : Host.Outcome State Fault Refusal :=
  .next (s.submit (.vshr i e vd va b) i)
/-- VSRA (05:R112). -/
def execVsra (i : Issue) (e : VEn) (vd va : Fin 32) (b : VB) (s : State) : Host.Outcome State Fault Refusal :=
  .next (s.submit (.vsra i e vd va b) i)
/-- VSMV (05:R108). -/
def execVsmv (i : Issue) (e : VEn) (vd sa : Fin 32) (eidx : Fin 512) (s : State) : Host.Outcome State Fault Refusal :=
  .next (s.submit (.vsmv i e vd sa eidx) i)
/-- VMVS (05:R108). -/
def execVmvs (i : Issue) (w : VW) (sd vs : Fin 32) (eidx : Fin 512) (s : State) : Host.Outcome State Fault Refusal :=
  .next (s.submit (.vmvs i w sd vs eidx) i)
/-- VSETLEN (05:R103). -/
def execVsetlen (i : Issue) (imm : Bool) (sa : Fin 32) (n : BitVec 10) (s : State) : Host.Outcome State Fault Refusal :=
  .next (s.submit (.vsetlen i imm sa n) i)
/-- VIADD (05:R112). -/
def execViadd (i : Issue) (e : VEn) (vd va : Fin 32) (b : VB) (ovf : Bool) (s : State) : Host.Outcome State Fault Refusal :=
  .next (s.submit (.viadd i e vd va b ovf) i)
/-- VISUB (05:R112). -/
def execVisub (i : Issue) (e : VEn) (vd va : Fin 32) (b : VB) (ovf : Bool) (s : State) : Host.Outcome State Fault Refusal :=
  .next (s.submit (.visub i e vd va b ovf) i)
/-- VIMIN (05:R108). -/
def execVimin (i : Issue) (e : VEn) (vd va : Fin 32) (b : VB) (s : State) : Host.Outcome State Fault Refusal :=
  .next (s.submit (.vimin i e vd va b) i)
/-- VIMAX (05:R108). -/
def execVimax (i : Issue) (e : VEn) (vd va : Fin 32) (b : VB) (s : State) : Host.Outcome State Fault Refusal :=
  .next (s.submit (.vimax i e vd va b) i)
/-- VIMUL (05:R112). -/
def execVimul (i : Issue) (e : VEn) (vd va : Fin 32) (b : VB) (ovf : Bool) (s : State) : Host.Outcome State Fault Refusal :=
  .next (s.submit (.vimul i e vd va b ovf) i)
/-- VCMP (05:R113). -/
def execVcmp (i : Issue) (e : VEn) (md : Fin 8) (va : Fin 32) (b : VB) (fmt : Fmt) (cond : VCond) (s : State) : Host.Outcome State Fault Refusal :=
  .next (s.submit (.vcmp i e md va b fmt cond) i)
/-- VMAND (05:R108). -/
def execVmand (i : Issue) (e : VEn) (md ma mb : Fin 8) (s : State) : Host.Outcome State Fault Refusal :=
  .next (s.submit (.vmand i e md ma mb) i)
/-- VMOR (05:R108). -/
def execVmor (i : Issue) (e : VEn) (md ma mb : Fin 8) (s : State) : Host.Outcome State Fault Refusal :=
  .next (s.submit (.vmor i e md ma mb) i)
/-- VMXOR (05:R108). -/
def execVmxor (i : Issue) (e : VEn) (md ma mb : Fin 8) (s : State) : Host.Outcome State Fault Refusal :=
  .next (s.submit (.vmxor i e md ma mb) i)
/-- VMNOT (05:R108). -/
def execVmnot (i : Issue) (e : VEn) (md ma : Fin 8) (s : State) : Host.Outcome State Fault Refusal :=
  .next (s.submit (.vmnot i e md ma) i)
/-- VPOPC (05:R113). -/
def execVpopc (i : Issue) (e : VEn) (sd : Fin 32) (ma : Fin 8) (s : State) : Host.Outcome State Fault Refusal :=
  .next (s.submit (.vpopc i e sd ma) i)
/-- VADD (05:R109). -/
def execVadd (i : Issue) (e : VEn) (vd va : Fin 32) (b : VB) (fmt : Fmt) (g : RG) (s : State) : Host.Outcome State Fault Refusal :=
  .next (s.submit (.vadd i e vd va b fmt g) i)
/-- VSUB (05:R109). -/
def execVsub (i : Issue) (e : VEn) (vd va : Fin 32) (b : VB) (fmt : Fmt) (g : RG) (s : State) : Host.Outcome State Fault Refusal :=
  .next (s.submit (.vsub i e vd va b fmt g) i)
/-- VMUL (05:R109). -/
def execVmul (i : Issue) (e : VEn) (vd va : Fin 32) (b : VB) (fmt : Fmt) (g : RG) (s : State) : Host.Outcome State Fault Refusal :=
  .next (s.submit (.vmul i e vd va b fmt g) i)
/-- VFMA (05:R109). -/
def execVfma (i : Issue) (e : VEn) (vd va vb vc : Fin 32) (fmt : Fmt) (g : RG) (s : State) : Host.Outcome State Fault Refusal :=
  .next (s.submit (.vfma i e vd va vb vc fmt g) i)
/-- VMIN (05:R110). -/
def execVmin (i : Issue) (e : VEn) (vd va : Fin 32) (b : VB) (fmt : Fmt) (g : RG) (s : State) : Host.Outcome State Fault Refusal :=
  .next (s.submit (.vmin i e vd va b fmt g) i)
/-- VMAX (05:R110). -/
def execVmax (i : Issue) (e : VEn) (vd va : Fin 32) (b : VB) (fmt : Fmt) (g : RG) (s : State) : Host.Outcome State Fault Refusal :=
  .next (s.submit (.vmax i e vd va b fmt g) i)
/-- VABS (05:R108). -/
def execVabs (i : Issue) (e : VEn) (vd va : Fin 32) (fmt : Fmt) (s : State) : Host.Outcome State Fault Refusal :=
  .next (s.submit (.vabs i e vd va fmt) i)
/-- VNEG (05:R108). -/
def execVneg (i : Issue) (e : VEn) (vd va : Fin 32) (fmt : Fmt) (s : State) : Host.Outcome State Fault Refusal :=
  .next (s.submit (.vneg i e vd va fmt) i)
/-- VDIV (05:R111). -/
def execVdiv (i : Issue) (e : VEn) (vd va : Fin 32) (b : VB) (fmt : Fmt) (g : RG) (s : State) : Host.Outcome State Fault Refusal :=
  .next (s.submit (.vdiv i e vd va b fmt g) i)
/-- VSQRT (05:R111). -/
def execVsqrt (i : Issue) (e : VEn) (vd va : Fin 32) (fmt : Fmt) (g : RG) (s : State) : Host.Outcome State Fault Refusal :=
  .next (s.submit (.vsqrt i e vd va fmt g) i)
/-- VRSQRT (05:R111). -/
def execVrsqrt (i : Issue) (e : VEn) (vd va : Fin 32) (fmt : Fmt) (g : RG) (s : State) : Host.Outcome State Fault Refusal :=
  .next (s.submit (.vrsqrt i e vd va fmt g) i)
/-- VRECIP (05:R111). -/
def execVrecip (i : Issue) (e : VEn) (vd va : Fin 32) (fmt : Fmt) (g : RG) (s : State) : Host.Outcome State Fault Refusal :=
  .next (s.submit (.vrecip i e vd va fmt g) i)
/-- VEXP2 (05:R111). -/
def execVexp2 (i : Issue) (e : VEn) (vd va : Fin 32) (fmt : Fmt) (g : RG) (s : State) : Host.Outcome State Fault Refusal :=
  .next (s.submit (.vexp2 i e vd va fmt g) i)
/-- VLOG2 (05:R111). -/
def execVlog2 (i : Issue) (e : VEn) (vd va : Fin 32) (fmt : Fmt) (g : RG) (s : State) : Host.Outcome State Fault Refusal :=
  .next (s.submit (.vlog2 i e vd va fmt g) i)
/-- VCVT (05:R115). -/
def execVcvt (i : Issue) (e : VEn) (o : VCvtOp) (s : State) : Host.Outcome State Fault Refusal :=
  .next (s.submit (.vcvt i e o) i)
/-- VPERM (05:R117). -/
def execVperm (i : Issue) (e : VEn) (vd vs vi : Fin 32) (s : State) : Host.Outcome State Fault Refusal :=
  .next (s.submit (.vperm i e vd vs vi) i)
/-- VCOMPRESS (05:R117). -/
def execVcompress (i : Issue) (e : VEn) (vd vs : Fin 32) (mm : Fin 8) (sc : Fin 32) (s : State) : Host.Outcome State Fault Refusal :=
  .next (s.submit (.vcompress i e vd vs mm sc) i)
/-- VEXPAND (05:R117). -/
def execVexpand (i : Issue) (e : VEn) (vd vs : Fin 32) (mm : Fin 8) (s : State) : Host.Outcome State Fault Refusal :=
  .next (s.submit (.vexpand i e vd vs mm) i)
/-- VCIDX (05:R117). -/
def execVcidx (i : Issue) (e : VEn) (vd : Fin 32) (mm : Fin 8) (sc : Fin 32) (s : State) : Host.Outcome State Fault Refusal :=
  .next (s.submit (.vcidx i e vd mm sc) i)
/-- VRSUM (05:R118). -/
def execVrsum (i : Issue) (e : VEn) (sd vs : Fin 32) (fmt : Fmt) (g : RG) (ovf wide : Bool) (s : State) : Host.Outcome State Fault Refusal :=
  .next (s.submit (.vrsum i e sd vs fmt g ovf wide) i)
/-- VRSSQ (05:R118). -/
def execVrssq (i : Issue) (e : VEn) (sd vs : Fin 32) (fmt : Fmt) (g : RG) (ovf wide : Bool) (s : State) : Host.Outcome State Fault Refusal :=
  .next (s.submit (.vrssq i e sd vs fmt g ovf wide) i)
/-- VRMAX (05:R119). -/
def execVrmax (i : Issue) (e : VEn) (sd vs : Fin 32) (fmt : Fmt) (s : State) : Host.Outcome State Fault Refusal :=
  .next (s.submit (.vrmax i e sd vs fmt) i)
/-- VRMIN (05:R119). -/
def execVrmin (i : Issue) (e : VEn) (sd vs : Fin 32) (fmt : Fmt) (s : State) : Host.Outcome State Fault Refusal :=
  .next (s.submit (.vrmin i e sd vs fmt) i)
/-- VRTOPK (05:R119, R120). -/
def execVrtopk (i : Issue) (e : VEn) (vd vs : Fin 32) (k : BitVec 5) (order : Bool) (sc : Fin 32) (fmt : Fmt) (s : State) : Host.Outcome State Fault Refusal :=
  .next (s.submit (.vrtopk i e vd vs k order sc fmt) i)
/-- VRAND (05:R121, R122). -/
def execVrand (i : Issue) (e : VEn) (vd : Fin 32) (gs : Fin 16) (s : State) : Host.Outcome State Fault Refusal :=
  .next (s.submit (.vrand i e vd gs) i)
/-- VRAND4 (05:R121, R122). -/
def execVrand4 (i : Issue) (e : VEn) (vd : Fin 32) (gs : Fin 16) (s : State) : Host.Outcome State Fault Refusal :=
  .next (s.submit (.vrand4 i e vd gs) i)
/-- VRANDU (05:R121, R122). -/
def execVrandu (i : Issue) (e : VEn) (vd : Fin 32) (gs : Fin 16) (s : State) : Host.Outcome State Fault Refusal :=
  .next (s.submit (.vrandu i e vd gs) i)
/-- VRANDM (05:R121, R122). -/
def execVrandm (i : Issue) (e : VEn) (md : Fin 8) (gs : Fin 16) (st : Fin 32) (s : State) : Host.Outcome State Fault Refusal :=
  .next (s.submit (.vrandm i e md gs st) i)
/-- VADAMW (05:R125). -/
def execVadamw (i : Issue) (e : VEn) (o : VAdamOp) (s : State) : Host.Outcome State Fault Refusal :=
  .next (s.submit (.vadamw i e o) i)
/-- VAMAX (05:R116). -/
def execVamax (i : Issue) (rc : Fin 4) (dst : BitVec 23) (clr : Bool) (s : State) : Host.Outcome State Fault Refusal :=
  .next (s.submit (.vamax i rc dst clr) i)
/-- VGSET (05:R123). -/
def execVgset (i : Issue) (gs : Fin 16) (field : BitVec 2) (sa sb : Fin 32) (s : State) : Host.Outcome State Fault Refusal :=
  .next (s.submit (.vgset i gs field sa sb) i)
/-- VGGET (05:R123). -/
def execVgget (i : Issue) (gs : Fin 16) (sa sb : Fin 32) (s : State) : Host.Outcome State Fault Refusal :=
  .next (s.submit (.vgget i gs sa sb) i)
/-- VGBIND (05:R123). -/
def execVgbind (i : Issue) (arr : Fin 2) (gs : Fin 16) (s : State) : Host.Outcome State Fault Refusal :=
  .next (s.submit (.vgbind i arr gs) i)
/-- VLD (05:R114). -/
def execVld (i : Issue) (e : VEn) (vd : Fin 32) (src : BitVec 23) (s : State) : Host.Outcome State Fault Refusal :=
  .next (s.submit (.vld i e vd src) i)
/-- VLDT (05:R114). -/
def execVldt (i : Issue) (e : VEn) (vd : Fin 32) (src : BitVec 23) (ss : Fin 32) (col0 : BitVec 9) (nreg : Fin 32) (s : State) : Host.Outcome State Fault Refusal :=
  .next (s.submit (.vldt i e vd src ss col0 nreg) i)
/-- VLDM (05:R114). -/
def execVldm (i : Issue) (e : VEn) (md : Fin 8) (src : BitVec 23) (s : State) : Host.Outcome State Fault Refusal :=
  .next (s.submit (.vldm i e md src) i)
/-- VST (05:R114). -/
def execVst (i : Issue) (e : VEn) (vs : Fin 32) (dst : BitVec 23) (s : State) : Host.Outcome State Fault Refusal :=
  .next (s.submit (.vst i e vs dst) i)
/-- VSTM (05:R114). -/
def execVstm (i : Issue) (e : VEn) (mm : Fin 8) (dst : BitVec 23) (s : State) : Host.Outcome State Fault Refusal :=
  .next (s.submit (.vstm i e mm dst) i)

end Sys2Proof.Machine
end

