-- ==== Sys2Proof/Machine/Dispatch.lean ====
section
/-! DEFINITION. The dispatch of a command to its meaning: one arm per row of the opcode table. -/
namespace Sys2Proof.Machine

def exec (i : Instr) (s : State) : Host.Outcome State Fault Refusal :=
  match i with
  | .nop x => Sys2Proof.Machine.execNop x s
  | .halt x => Sys2Proof.Machine.execHalt x s
  | .jmp x target => Sys2Proof.Machine.execJmp x target s
  | .brz x sa target => Sys2Proof.Machine.execBrz x sa target s
  | .brnz x sa target => Sys2Proof.Machine.execBrnz x sa target s
  | .loop x count endB => Sys2Proof.Machine.execLoop x count endB s
  | .loopr x sa endB => Sys2Proof.Machine.execLoopr x sa endB s
  | .cwait x cue sben sb => Sys2Proof.Machine.execCwait x cue sben sb s
  | .standbySwitchElapsed core => Sys2Proof.Machine.execStandbySwitchElapsed core s
  | .sbreg x sb entry => Sys2Proof.Machine.execSbreg x sb entry s
  | .sbret x => Sys2Proof.Machine.execSbret x s
  | .ppoint x => Sys2Proof.Machine.execPpoint x s
  | .coreRestore core tile line => Sys2Proof.Machine.execCoreRestore core tile line s
  | .cret x st buf cue dl => Sys2Proof.Machine.execCret x st buf cue dl s
  | .carm x cue pol dl => Sys2Proof.Machine.execCarm x cue pol dl s
  | .cpost x dest cue dreg => Sys2Proof.Machine.execCpost x dest cue dreg s
  | .cdrop x cue => Sys2Proof.Machine.execCdrop x cue s
  | .tokenVisible core wait ks die => Sys2Proof.Machine.execTokenVisible core wait ks die s
  | .stallLimit core => Sys2Proof.Machine.execStallLimit core s
  | .scriptCycleLimit core => Sys2Proof.Machine.execScriptCycleLimit core s
  | .sli x sd imm => Sys2Proof.Machine.execSli x sd imm s
  | .smov x sd sa => Sys2Proof.Machine.execSmov x sd sa s
  | .sadd x sd sa b => Sys2Proof.Machine.execSadd x sd sa b s
  | .ssub x sd sa b => Sys2Proof.Machine.execSsub x sd sa b s
  | .sand x sd sa b => Sys2Proof.Machine.execSand x sd sa b s
  | .sor x sd sa b => Sys2Proof.Machine.execSor x sd sa b s
  | .sxor x sd sa b => Sys2Proof.Machine.execSxor x sd sa b s
  | .sshl x sd sa b => Sys2Proof.Machine.execSshl x sd sa b s
  | .sshr x sd sa b => Sys2Proof.Machine.execSshr x sd sa b s
  | .ssra x sd sa b => Sys2Proof.Machine.execSsra x sd sa b s
  | .scmp x cond sd sa b => Sys2Proof.Machine.execScmp x cond sd sa b s
  | .smul x sd sa b => Sys2Proof.Machine.execSmul x sd sa b s
  | .sfadd x sd sa b => Sys2Proof.Machine.execSfadd x sd sa b s
  | .sfsub x sd sa b => Sys2Proof.Machine.execSfsub x sd sa b s
  | .sfmul x sd sa b => Sys2Proof.Machine.execSfmul x sd sa b s
  | .sffma x sd sa b => Sys2Proof.Machine.execSffma x sd sa b s
  | .sfmin x sd sa b => Sys2Proof.Machine.execSfmin x sd sa b s
  | .sfmax x sd sa b => Sys2Proof.Machine.execSfmax x sd sa b s
  | .sld x sd sa imm => Sys2Proof.Machine.execSld x sd sa imm s
  | .sst x sd sa imm => Sys2Proof.Machine.execSst x sd sa imm s
  | .scyc x sd => Sys2Proof.Machine.execScyc x sd s
  | .hload x desc ba alt ucue => Sys2Proof.Machine.execHload x desc ba alt ucue s
  | .hmul x desc ba bb => Sys2Proof.Machine.execHmul x desc ba bb s
  | .preload x desc ba bb => Sys2Proof.Machine.execPreload x desc ba bb s
  | .hsave x desc ba bb => Sys2Proof.Machine.execHsave x desc ba bb s
  | .hrestore x desc ba bb => Sys2Proof.Machine.execHrestore x desc ba bb s
  | .hdrain x desc ba bb => Sys2Proof.Machine.execHdrain x desc ba bb s
  | .hamax x arr clr dst => Sys2Proof.Machine.execHamax x arr clr dst s
  | .hdparam x arr sc => Sys2Proof.Machine.execHdparam x arr sc s
  | .vmov x e vd vs => Sys2Proof.Machine.execVmov x e vd vs s
  | .vbcast x e vd sa => Sys2Proof.Machine.execVbcast x e vd sa s
  | .viota x e vd => Sys2Proof.Machine.execViota x e vd s
  | .vand x e vd va b => Sys2Proof.Machine.execVand x e vd va b s
  | .vor x e vd va b => Sys2Proof.Machine.execVor x e vd va b s
  | .vxor x e vd va b => Sys2Proof.Machine.execVxor x e vd va b s
  | .vnot x e vd va => Sys2Proof.Machine.execVnot x e vd va s
  | .vshl x e vd va b => Sys2Proof.Machine.execVshl x e vd va b s
  | .vshr x e vd va b => Sys2Proof.Machine.execVshr x e vd va b s
  | .vsra x e vd va b => Sys2Proof.Machine.execVsra x e vd va b s
  | .vsmv x e vd sa eidx => Sys2Proof.Machine.execVsmv x e vd sa eidx s
  | .vmvs x w sd vs eidx => Sys2Proof.Machine.execVmvs x w sd vs eidx s
  | .vsetlen x imm sa n => Sys2Proof.Machine.execVsetlen x imm sa n s
  | .viadd x e vd va b ovf => Sys2Proof.Machine.execViadd x e vd va b ovf s
  | .visub x e vd va b ovf => Sys2Proof.Machine.execVisub x e vd va b ovf s
  | .vimin x e vd va b => Sys2Proof.Machine.execVimin x e vd va b s
  | .vimax x e vd va b => Sys2Proof.Machine.execVimax x e vd va b s
  | .vimul x e vd va b ovf => Sys2Proof.Machine.execVimul x e vd va b ovf s
  | .vcmp x e md va b fmt cond => Sys2Proof.Machine.execVcmp x e md va b fmt cond s
  | .vmand x e md ma mb => Sys2Proof.Machine.execVmand x e md ma mb s
  | .vmor x e md ma mb => Sys2Proof.Machine.execVmor x e md ma mb s
  | .vmxor x e md ma mb => Sys2Proof.Machine.execVmxor x e md ma mb s
  | .vmnot x e md ma => Sys2Proof.Machine.execVmnot x e md ma s
  | .vpopc x e sd ma => Sys2Proof.Machine.execVpopc x e sd ma s
  | .vadd x e vd va b fmt g => Sys2Proof.Machine.execVadd x e vd va b fmt g s
  | .vsub x e vd va b fmt g => Sys2Proof.Machine.execVsub x e vd va b fmt g s
  | .vmul x e vd va b fmt g => Sys2Proof.Machine.execVmul x e vd va b fmt g s
  | .vfma x e vd va vb vc fmt g => Sys2Proof.Machine.execVfma x e vd va vb vc fmt g s
  | .vmin x e vd va b fmt g => Sys2Proof.Machine.execVmin x e vd va b fmt g s
  | .vmax x e vd va b fmt g => Sys2Proof.Machine.execVmax x e vd va b fmt g s
  | .vabs x e vd va fmt => Sys2Proof.Machine.execVabs x e vd va fmt s
  | .vneg x e vd va fmt => Sys2Proof.Machine.execVneg x e vd va fmt s
  | .vdiv x e vd va b fmt g => Sys2Proof.Machine.execVdiv x e vd va b fmt g s
  | .vsqrt x e vd va fmt g => Sys2Proof.Machine.execVsqrt x e vd va fmt g s
  | .vrsqrt x e vd va fmt g => Sys2Proof.Machine.execVrsqrt x e vd va fmt g s
  | .vrecip x e vd va fmt g => Sys2Proof.Machine.execVrecip x e vd va fmt g s
  | .vexp2 x e vd va fmt g => Sys2Proof.Machine.execVexp2 x e vd va fmt g s
  | .vlog2 x e vd va fmt g => Sys2Proof.Machine.execVlog2 x e vd va fmt g s
  | .vcvt x e o => Sys2Proof.Machine.execVcvt x e o s
  | .vperm x e vd vs vi => Sys2Proof.Machine.execVperm x e vd vs vi s
  | .vcompress x e vd vs mm sc => Sys2Proof.Machine.execVcompress x e vd vs mm sc s
  | .vexpand x e vd vs mm => Sys2Proof.Machine.execVexpand x e vd vs mm s
  | .vcidx x e vd mm sc => Sys2Proof.Machine.execVcidx x e vd mm sc s
  | .vrsum x e sd vs fmt g ovf wide => Sys2Proof.Machine.execVrsum x e sd vs fmt g ovf wide s
  | .vrssq x e sd vs fmt g ovf wide => Sys2Proof.Machine.execVrssq x e sd vs fmt g ovf wide s
  | .vrmax x e sd vs fmt => Sys2Proof.Machine.execVrmax x e sd vs fmt s
  | .vrmin x e sd vs fmt => Sys2Proof.Machine.execVrmin x e sd vs fmt s
  | .vrtopk x e vd vs k order sc fmt => Sys2Proof.Machine.execVrtopk x e vd vs k order sc fmt s
  | .vrand x e vd gs => Sys2Proof.Machine.execVrand x e vd gs s
  | .vrand4 x e vd gs => Sys2Proof.Machine.execVrand4 x e vd gs s
  | .vrandu x e vd gs => Sys2Proof.Machine.execVrandu x e vd gs s
  | .vrandm x e md gs st => Sys2Proof.Machine.execVrandm x e md gs st s
  | .vadamw x e o => Sys2Proof.Machine.execVadamw x e o s
  | .vamax x rc dst clr => Sys2Proof.Machine.execVamax x rc dst clr s
  | .vgset x gs field sa sb => Sys2Proof.Machine.execVgset x gs field sa sb s
  | .vgget x gs sa sb => Sys2Proof.Machine.execVgget x gs sa sb s
  | .vgbind x arr gs => Sys2Proof.Machine.execVgbind x arr gs s
  | .vld x e vd src => Sys2Proof.Machine.execVld x e vd src s
  | .vldt x e vd src ss col0 nreg => Sys2Proof.Machine.execVldt x e vd src ss col0 nreg s
  | .vldm x e md src => Sys2Proof.Machine.execVldm x e md src s
  | .vst x e vs dst => Sys2Proof.Machine.execVst x e vs dst s
  | .vstm x e mm dst => Sys2Proof.Machine.execVstm x e mm dst s
  | .streamNop x => Sys2Proof.Machine.execStreamNop x s
  | .setb x imm => Sys2Proof.Machine.execSetb x imm s
  | .addb x imm => Sys2Proof.Machine.execAddb x imm s
  | .seta x a imm => Sys2Proof.Machine.execSeta x a imm s
  | .adda x a imm => Sys2Proof.Machine.execAdda x a imm s
  | .lda x a off => Sys2Proof.Machine.execLda x a off s
  | .djnz x a target => Sys2Proof.Machine.execDjnz x a target s
  | .streamJmp x target => Sys2Proof.Machine.execStreamJmp x target s
  | .get x o => Sys2Proof.Machine.execGet x o s
  | .getu x o => Sys2Proof.Machine.execGetu x o s
  | .credit x u => Sys2Proof.Machine.execCredit x u s
  | .put x o => Sys2Proof.Machine.execPut x o s
  | .racc x tag cue doff toff => Sys2Proof.Machine.execRacc x tag cue doff toff s
  | .mark x a => Sys2Proof.Machine.execMark x a s
  | .rearm x => Sys2Proof.Machine.execRearm x s
  | .streamEnd x => Sys2Proof.Machine.execStreamEnd x s
  | .recw x clr doff => Sys2Proof.Machine.execRecw x clr doff s
  | .xfer x xid => Sys2Proof.Machine.execXfer x xid s
  | .setl x imm => Sys2Proof.Machine.execSetl x imm s
  | .streamRequestComplete x e => Sys2Proof.Machine.execStreamRequestComplete x e s
  | .memRequest req line => Sys2Proof.Machine.execMemRequest req line s
  | .frameRelease tier frame => Sys2Proof.Machine.execFrameRelease tier frame s
  | .stageMarker box => Sys2Proof.Machine.execStageMarker box s
  | .migTileStart seat => Sys2Proof.Machine.execMigTileStart seat s
  | .migTileComplete seat line => Sys2Proof.Machine.execMigTileComplete seat line s
  | .epochWalk box => Sys2Proof.Machine.execEpochWalk box s
  | .contributionArrive c line => Sys2Proof.Machine.execContributionArrive c line s
  | .contributionRetry k => Sys2Proof.Machine.execContributionRetry k s
  | .tagCompletion core m => Sys2Proof.Machine.execTagCompletion core m s
  | .launchStart box num => Sys2Proof.Machine.execLaunchStart box num s
  | .sealProceed box => Sys2Proof.Machine.execSealProceed box s
  | .mirrorWingReceive box epoch place payload side => Sys2Proof.Machine.execMirrorWingReceive box epoch place payload side s
  | .mirrorAck box => Sys2Proof.Machine.execMirrorAck box s
  | .ready box dev step epoch => Sys2Proof.Machine.execReady box dev step epoch s
  | .close box step epoch => Sys2Proof.Machine.execClose box step epoch s
  | .curtainDiscard box epoch cause allPassed => Sys2Proof.Machine.execCurtainDiscard box epoch cause allPassed s
  | .curtainTimeout box epoch => Sys2Proof.Machine.execCurtainTimeout box epoch s
  | .heartbeat beat => Sys2Proof.Machine.execHeartbeat beat s
  | .heartbeatLost dev => Sys2Proof.Machine.execHeartbeatLost dev s
  | .importFailureReport box dev step epoch => Sys2Proof.Machine.execImportFailureReport box dev step epoch s
  | .localTake box => Sys2Proof.Machine.execLocalTake box s
  | .localTakeReport box dev step => Sys2Proof.Machine.execLocalTakeReport box dev step s
  | .localCommit box step => Sys2Proof.Machine.execLocalCommit box step s
  | .storeTake box => Sys2Proof.Machine.execStoreTake box s
  | .storeTakeReport box dev step => Sys2Proof.Machine.execStoreTakeReport box dev step s
  | .baseMirrorComplete box => Sys2Proof.Machine.execBaseMirrorComplete box s
  | .restoreComplete box => Sys2Proof.Machine.execRestoreComplete box s
  | .sceneLayerCopy box => Sys2Proof.Machine.execSceneLayerCopy box s
  | .sceneLayerDone box r => Sys2Proof.Machine.execSceneLayerDone box r s
  | .rekeyWalkTile box line => Sys2Proof.Machine.execRekeyWalkTile box line s
  | .xferRecordArrive box xid r => Sys2Proof.Machine.execXferRecordArrive box xid r s
  | .roceRetryTimeout box xid => Sys2Proof.Machine.execRoceRetryTimeout box xid s
  | .roceRequestDrop port => Sys2Proof.Machine.execRoceRequestDrop port s
  | .hostLinkLoss port => Sys2Proof.Machine.execHostLinkLoss port s
  | .assemblyTimeout session => Sys2Proof.Machine.execAssemblyTimeout session s
  | .opSlotExpire session opid => Sys2Proof.Machine.execOpSlotExpire session opid s
  | .forwardedCommand lead leadBox all opid opcode params => Sys2Proof.Machine.execForwardedCommand lead leadBox all opid opcode params s
  | .forwardedReply box dev opid seq status params => Sys2Proof.Machine.execForwardedReply box dev opid seq status params s
  | .commit box opid => Sys2Proof.Machine.execCommit box opid s
  | .cancel box opid => Sys2Proof.Machine.execCancel box opid s
  | .opStatusRefresh box dev opid r => Sys2Proof.Machine.execOpStatusRefresh box dev opid r s
  | .sagStart ms => Sys2Proof.Machine.execSagStart ms s
  | .bringupPhaseEnd r => Sys2Proof.Machine.execBringupPhaseEnd r s
  | .thermalEmergencyStart ms => Sys2Proof.Machine.execThermalEmergencyStart ms s
  | .partFail p => Sys2Proof.Machine.execPartFail p s
  | .info h p => Sys2Proof.Machine.execInfo h p s
  | .sessionRoll h p => Sys2Proof.Machine.execSessionRoll h p s
  | .groupBind h p => Sys2Proof.Machine.execGroupBind h p s
  | .mgtSession h p => Sys2Proof.Machine.execMgtSession h p s
  | .opStatus h p => Sys2Proof.Machine.execOpStatus h p s
  | .opRead h p => Sys2Proof.Machine.execOpRead h p s
  | .opAbort h p => Sys2Proof.Machine.execOpAbort h p s
  | .opRelease h p => Sys2Proof.Machine.execOpRelease h p s
  | .eventRead h p => Sys2Proof.Machine.execEventRead h p s
  | .boxOpen h p => Sys2Proof.Machine.execBoxOpen h p s
  | .boxSeated box => Sys2Proof.Machine.execBoxSeated box s
  | .boxClose h p => Sys2Proof.Machine.execBoxClose h p s
  | .boxCloseComplete box => Sys2Proof.Machine.execBoxCloseComplete box s
  | .groupCfg h p => Sys2Proof.Machine.execGroupCfg h p s
  | .ethCfg h p => Sys2Proof.Machine.execEthCfg h p s
  | .linkCak h p => Sys2Proof.Machine.execLinkCak h p s
  | .modelInstall h p => Sys2Proof.Machine.execModelInstall h p s
  | .modelStoreErase h p => Sys2Proof.Machine.execModelStoreErase h p s
  | .regionMap h p => Sys2Proof.Machine.execRegionMap h p s
  | .regionUnmap h p => Sys2Proof.Machine.execRegionUnmap h p s
  | .tileUnd h p => Sys2Proof.Machine.execTileUnd h p s
  | .tileMove h p => Sys2Proof.Machine.execTileMove h p s
  | .xferReg h p => Sys2Proof.Machine.execXferReg h p s
  | .xferDrop h p => Sys2Proof.Machine.execXferDrop h p s
  | .xferRun h p => Sys2Proof.Machine.execXferRun h p s
  | .wtLoad h p => Sys2Proof.Machine.execWtLoad h p s
  | .wtChannel h p => Sys2Proof.Machine.execWtChannel h p s
  | .sceneChange h p => Sys2Proof.Machine.execSceneChange h p s
  | .scriptLoad h p => Sys2Proof.Machine.execScriptLoad h p s
  | .launch h p => Sys2Proof.Machine.execLaunch h p s
  | .curtainCfg h p => Sys2Proof.Machine.execCurtainCfg h p s
  | .curtainStatus h p => Sys2Proof.Machine.execCurtainStatus h p s
  | .curtainResolve h p => Sys2Proof.Machine.execCurtainResolve h p s
  | .sceneRestore h p => Sys2Proof.Machine.execSceneRestore h p s
  | .ifealeImport h p => Sys2Proof.Machine.execIfealeImport h p s
  | .localRelease h p => Sys2Proof.Machine.execLocalRelease h p s
  | .attest h p => Sys2Proof.Machine.execAttest h p s
  | .keyRelease h p => Sys2Proof.Machine.execKeyRelease h p s
  | .keyPut h p => Sys2Proof.Machine.execKeyPut h p s
  | .keyDestroy h p => Sys2Proof.Machine.execKeyDestroy h p s
  | .rekey h p => Sys2Proof.Machine.execRekey h p s
  | .keyGen h p => Sys2Proof.Machine.execKeyGen h p s
  | .approve h p => Sys2Proof.Machine.execApprove h p s
  | .alarmRead h p => Sys2Proof.Machine.execAlarmRead h p s
  | .lcStatus h p => Sys2Proof.Machine.execLcStatus h p s
  | .lcTransition h p => Sys2Proof.Machine.execLcTransition h p s
  | .spareReport h p => Sys2Proof.Machine.execSpareReport h p s
  | .regRead h p => Sys2Proof.Machine.execRegRead h p s
  | .regWrite h p => Sys2Proof.Machine.execRegWrite h p s
  | .ethCmdPortWrite h value => Sys2Proof.Machine.execEthCmdPortWrite h value s
  | .coreScriptLoRead h core => Sys2Proof.Machine.execCoreScriptLoRead h core s
  | .coreOffsetLoRead h core => Sys2Proof.Machine.execCoreOffsetLoRead h core s
  | .memBoxStepLoRead h box => Sys2Proof.Machine.execMemBoxStepLoRead h box s
  | .streamContextRead h x reg count => Sys2Proof.Machine.execStreamContextRead h x reg count s
  | .diagSelftest h p => Sys2Proof.Machine.execDiagSelftest h p s
  | .diagBoxDebug h p => Sys2Proof.Machine.execDiagBoxDebug h p s
  | .localTakeComplete box => Sys2Proof.Machine.execLocalTakeComplete box s
  | .storeCommit box step => Sys2Proof.Machine.execStoreCommit box step s
  | .xferWriteComplete box xid => Sys2Proof.Machine.execXferWriteComplete box xid s
  | .streamWordArrive x req => Sys2Proof.Machine.execStreamWordArrive x req s
  | .commandFragment h opcode share => Sys2Proof.Machine.execCommandFragment h opcode share s
  | .datagramDrop cause => Sys2Proof.Machine.execDatagramDrop cause s
  | .unlistedOpcode h opcode p => Sys2Proof.Machine.execUnlistedOpcode h opcode p s
  | .attestComplete session opid => Sys2Proof.Machine.execAttestComplete session opid s
  | .modelRecordFetch box => Sys2Proof.Machine.execModelRecordFetch box s
  | .selftestComplete results parts => Sys2Proof.Machine.execSelftestComplete results parts s
  | .hostLinkUp port => Sys2Proof.Machine.execHostLinkUp port s
  | .restoreTileWrite box bytes line => Sys2Proof.Machine.execRestoreTileWrite box bytes line s
  | .neighbourEcho port addr => Sys2Proof.Machine.execNeighbourEcho port addr s
  | .macsecFrameReceive port n ok => Sys2Proof.Machine.execMacsecFrameReceive port n ok s
  | .mkaSecured port sak => Sys2Proof.Machine.execMkaSecured port sak s
  | .sakChange port => Sys2Proof.Machine.execSakChange port s
  | .osfpModuleChange port present watts => Sys2Proof.Machine.execOsfpModuleChange port present watts s
  | .linkTrain port peer => Sys2Proof.Machine.execLinkTrain port peer s
  | .linkRekey port => Sys2Proof.Machine.execLinkRekey port s
  | .fabricFrameReceive port ok => Sys2Proof.Machine.execFabricFrameReceive port ok s
  | .fabricCellTransit port seat leadPk hops => Sys2Proof.Machine.execFabricCellTransit port seat leadPk hops s
  | .laneFail l => Sys2Proof.Machine.execLaneFail l s
  | .laneSpareTrained port => Sys2Proof.Machine.execLaneSpareTrained port s
  | .referenceFail ref => Sys2Proof.Machine.execReferenceFail ref s
  | .fidCodeChange feedB code partnersA partnersB => Sys2Proof.Machine.execFidCodeChange feedB code partnersA partnersB s
  | .feedConnect feedB volt => Sys2Proof.Machine.execFeedConnect feedB volt s
  | .feedDisconnect feedB volt => Sys2Proof.Machine.execFeedDisconnect feedB volt s
  | .feedOvervoltage feedB volt => Sys2Proof.Machine.execFeedOvervoltage feedB volt s
  | .feedReconnect feedB volt => Sys2Proof.Machine.execFeedReconnect feedB volt s
  | .probeChange low => Sys2Proof.Machine.execProbeChange low s
  | .lcUnlock token => Sys2Proof.Machine.execLcUnlock token s
  | .roceCnpReceive port box xid => Sys2Proof.Machine.execRoceCnpReceive port box xid s
  | .fwUpdateBegin h p => Sys2Proof.Machine.execFwUpdateBegin h p s
  | .fwUpdateData h p => Sys2Proof.Machine.execFwUpdateData h p s
  | .fwUpdateEnd h p => Sys2Proof.Machine.execFwUpdateEnd h p s
  | .fwUpdateCommitSvn h p => Sys2Proof.Machine.execFwUpdateCommitSvn h p s
  | .diagDeviceDebug h p => Sys2Proof.Machine.execDiagDeviceDebug h p s
  | .diagDebugOff h p => Sys2Proof.Machine.execDiagDebugOff h p s
  | .sagEnd => Sys2Proof.Machine.execSagEnd s
  | .lossStart => Sys2Proof.Machine.execLossStart s
  | .lossRecover => Sys2Proof.Machine.execLossRecover s
  | .lossTimeout => Sys2Proof.Machine.execLossTimeout s
  | .powerGood => Sys2Proof.Machine.execPowerGood s
  | .lcWipeDone => Sys2Proof.Machine.execLcWipeDone s
  | .thermalEmergencyEnd => Sys2Proof.Machine.execThermalEmergencyEnd s
  | .thermalTrip => Sys2Proof.Machine.execThermalTrip s
  | .modelInstallResume => Sys2Proof.Machine.execModelInstallResume s
  | .modelInstallComplete => Sys2Proof.Machine.execModelInstallComplete s

end Sys2Proof.Machine
end

