-- ==== Sys2Proof/Machine/Engines.lean ====
section
/-! DEFINITION. What the sequencers and stream engines do of their own accord: on an empty queue they put the commands of
their next bundles and next stream instructions into it (06:R128, 08:R193; log 1). -/
namespace Sys2Proof.Machine

/-- The next bundle of a running core that takes one, as commands (R127 to R129). -/
def State.nextBundle (s : State) (core : Fin 128) : List Instr :=
  let c := s.core core.val
  if (s.running core.val).isSome && c.issuing && c.bundle.isEmpty && decide (c.bptr < c.nBundles) then
    bundleInstrs core ((List.range 8).map (fun k => leNat (c.script.bytes (c.bptr * 64 + 8 * k) 8)))
  else []

/-- The next instruction of a context, as a command (R187, R192). -/
def Core.streamCmd (c : Core) (x : Ctx) : Option Instr :=
  match decodeStream x (leNat (c.stream.bytes ((c.ctx x.ctx.val).pc * 8) 8)) with
  | .ok i => some i
  | .error _ => none

/-- Whether a command changes its core now: a context that only waits does not. -/
def State.moves (s : State) (core : Nat) (i : Instr) : Bool :=
  match exec i s with
  | .next t => decide (t.core core ≠ s.core core)
  | _ => false

/-- The next instruction of a core's stream engine: of the ready contexts in ascending order, from the one after that
last served on (R193). -/
def State.nextStream (s : State) (core : Fin 128) : List Instr :=
  match s.streaming core.val with
  | none => []
  | some _ =>
    let c := s.core core.val
    let order := (List.range 128).map (fun j => (c.served + 1 + j) % 128)
    match order.findSome? (fun k =>
        if (c.ctx k).ready then
          match c.streamCmd ⟨core, Fin.ofNat 128 k⟩ with
          | some i => if s.moves core.val i then some i else none
          | none => none
        else none) with
    | some i => [i]
    | none => []

/-- The commands that the device gives itself when none waits. -/
def State.ownWork (s : State) : List Instr :=
  (List.finRange 128).flatMap (fun k => s.nextStream k ++ s.nextBundle k)

end Sys2Proof.Machine
end

