-- ==== Sys2Proof/Safety.lean ====
section
/-! DEFINITION. What a safe run is, and the terms in which the claims speak: a core that issues with nothing in flight,
results that land on a core, contexts that may issue, and commands that are taken from their packet. -/
namespace Sys2Proof.Machine

/-- The step at this state answers a next state. -/
def State.safe (s : State) : Prop := ∃ t, step s = .next t

/-- What of a core lies outside the sequencer's own place: everything but the bundle pointer, the loops, the script
cycle, the core's clock and issue number, and what is in flight with the interlock's list. -/
def Core.data (c : Core) : Core :=
  { c with bptr := 0, loops := [], scyc := 0, now := 0, seq := 0, flight := [], accs := [], busy := 0 }

/-- Core `k` runs launch `l` of box `b`, which is not to stop, and has told the device everything. -/
structure State.Runs (s : State) (k : Fin 128) (b : Nat) (l : Launch) : Prop where
  runs : s.running k.val = some (b, l)
  sole : (s.box b).launch l.num = some l
  going : l.stop = none
  msgs : (s.core k.val).msgs = []

/-- Core `k` runs launch `l` of box `b` and issues, outside a stand-by segment, with nothing in flight. -/
structure State.Quiet (s : State) (k : Fin 128) (b : Nat) (l : Launch) : Prop extends State.Runs s k b l where
  st : (s.core k.val).st = .running
  held : (s.core k.val).heldAt = none
  flight : (s.core k.val).flight = []
  accs : (s.core k.val).accs = []
  bundle : (s.core k.val).bundle = []
  seg : (s.core k.val).seg = none
  limit : (s.core k.val).scyc < 2 ^ 40

/-- Core `k` is held at a bundle, with nothing in flight. -/
structure State.HeldAt (s : State) (k : Fin 128) (b : Nat) (l : Launch) (h : Held) : Prop extends State.Runs s k b l where
  st : (s.core k.val).st = .held
  held : (s.core k.val).heldAt = some h
  flight : (s.core k.val).flight = []
  accs : (s.core k.val).accs = []
  bundle : (s.core k.val).bundle = []
  seg : (s.core k.val).seg = none

/-- The bundle of one slot has issued on core `k`: nothing outside the core has changed, the bundle pointer and loops
are those of the bundle's end, and the script cycle has advanced by one (06:R127, R128, R136). -/
structure Issued (s t : State) (k : Fin 128) : Prop where
  rest : t = s.setCore k.val (t.core k.val)
  place : ((t.core k.val).bptr, (t.core k.val).loops)
    = ((endCount (s.core k.val).bptr (s.core k.val).loops).1 % 2 ^ 14, (endCount (s.core k.val).bptr (s.core k.val).loops).2)
  cycle : (t.core k.val).scyc = (s.core k.val).scyc + 1

/-- The bundle of one slot has issued, and its effects take place: `g` at once, and each `(n, f)` of `fs` so that it is
seen by an instruction issued `n` or more cycles after, and by none before (06:R134, 05:R105). -/
def Lands (s t : State) (k : Fin 128) (g : Core → Core) (fs : List (Nat × (Core → Core))) : Prop :=
  Issued s t k ∧
  ∀ e n, ((t.core k.val).advance e n).data
    = ((fs.filter (fun f => decide (f.1 ≤ n + 1))).foldl (fun c f => f.2 c) (g (s.core k.val))).data

/-- The one slot `i` of a bundle of core `k` takes effect so: `g` at once, `fs` after their cycles. -/
def State.Does (s : State) (i : Instr) (k : Fin 128) (g : Core → Core) (fs : List (Nat × (Core → Core))) : Prop :=
  ∃ t, exec i s = .next t ∧ Lands s t k g fs

/-- A core whose bundle has issued, in one cycle, with a given next place. -/
def Core.stepTo (c : Core) (q : Nat) (loops : List LoopEntry) : Core :=
  { c with bptr := q, loops := loops, scyc := c.scyc + 1, now := c.now + 1, seq := c.seq + 1 }
/-- The same with the next bundle that the loops give (06:R136, R397). -/
def Core.along (c : Core) : Core := c.stepTo ((endCount c.bptr c.loops).1 % 2 ^ 14) (endCount c.bptr c.loops).2

/-- The slot as the only one of its bundle on core `k`. -/
def at1 (k : Fin 128) : Issue := ⟨k, true⟩

/-- A scalar register written. -/
def putS (d : Nat) (v : W32) (c : Core) : Core := c.sset d v
/-- Elements of a vector register written (index, code), and bits of a mask register. -/
def putV (d : Fin 32) (w : Nat) (ws : List (Nat × Nat)) (c : Core) : Core :=
  { c with v := Tab.upd 0 c.v d.val (fun old => mergeBits old (elemWrites w ws).1 (elemWrites w ws).2) }
def putM (d : Fin 8) (ws : List (Nat × Bool)) (c : Core) : Core :=
  { c with m := Tab.upd 0 c.m d.val (fun old => mergeBits old (maskWrites ws).1 (maskWrites ws).2) }
/-- Runs of bytes stored to stage memory. -/
def putStage (rs : List (Nat × List Byte)) (c : Core) : Core :=
  rs.foldl (fun c r => c.stageStore (r.1 % stageSize) r.2) c
/-- Results entered in an amax record. -/
def enterRec (k : Nat) (a : Amax) (c : Core) : Core :=
  c.setRecord k ⟨max (c.record k).amax a.amax, satAdd 32 (c.record k).nan a.nan, satAdd 32 (c.record k).inf a.inf,
    satAdd 32 (c.record k).sat a.sat, satAdd 32 (c.record k).sticky a.sticky⟩
/-- The generator has made one draw, under RND = 0b10 (05:R122). -/
def drawn (rnd : Rnd) (g : Fin 16) (c : Core) : Core := if rnd = .stoch then c.setGen g.val (c.gen g.val).next else c
/-- One result per active element. -/
def Core.each (c : Core) (e : VEn) (f : Nat → Nat) : List (Nat × Nat) := (c.active e).map (fun i => (i, f i))
def Core.eachBit (c : Core) (e : VEn) (f : Nat → Bool) : List (Nat × Bool) := (c.active e).map (fun i => (i, f i))

/-- A core at its next place: the issue number, the bundle pointer and loops, and the script cycle. -/
def Core.placed (d : Core) (nx : Nat × List LoopEntry) : Core :=
  { d with busy := d.busyAfter d.seq, seq := d.seq + 1, bptr := nx.1 % 2 ^ 14, loops := nx.2, scyc := d.scyc + 1, bundle := [] }
/-- The accesses of an array instruction noted for the interlock, and its row accesses dated from the issue cycle. -/
def Core.rowsIn (c : Core) (i : Instr) (ps : List (Nat × Micro)) : Core :=
  (ps.foldl (fun (d : Core) p => d.later p.1 phRead p.2) { c with accs := (c.accsOf i).map (ArrAcc.at c.now) }).placed
    (endCount c.bptr c.loops)

/-- The context of a stream instruction. -/
def ctxOf : Instr → Option Ctx
  | .streamNop x | .setb x _ | .addb x _ | .seta x _ _ | .adda x _ _ | .lda x _ _ | .djnz x _ _ | .streamJmp x _ | .get x _
  | .getu x _ | .credit x _ | .put x _ | .racc x _ _ _ _ | .mark x _ | .rearm x | .streamEnd x | .recw x _ _ | .xfer x _
  | .setl x _ => some x
  | _ => none

/-- A context of a running core may issue: it is ready, the core is not at a preemption point, and the next index of its
stream lies in the stream store (08:R187, R193, R208). -/
structure State.Streams (s : State) (x : Ctx) (b : Nat) (l : Launch) : Prop where
  runs : s.streaming x.core.val = some (b, l)
  ready : ((s.core x.core.val).ctx x.ctx.val).ready = true
  going : (s.core x.core.val).st ≠ .preempted
  room : ((s.core x.core.val).ctx x.ctx.val).pc + 1 < (s.core x.core.val).nStream

/-- The core with a context served: it is the last served, in RUN, and changed by `f`. -/
def State.served (s : State) (x : Ctx) (f : SCtx → SCtx) : State :=
  s.setCore x.core.val ({ s.core x.core.val with served := x.ctx.val }.setCtx x.ctx.val
    (f { (s.core x.core.val).ctx x.ctx.val with st := .run }))

/-- A stream instruction has issued a request (08:R193): it stands in the request table and in the context's list, `g`
is what the core's draws are after it, and the context goes on at `pc`, changed by `f`. -/
def State.asked (s : State) (x : Ctx) (b num tile : Nat) (wing noalloc : Bool) (op : ReqOp) (kind : OutKind) (buf : Nat)
    (conv : Bool) (pc : Nat) (g : Core → Core) (f : SCtx → SCtx) : State :=
  let c := s.core x.core.val
  let y := c.ctx x.ctx.val
  let r : Req := ⟨x.core.val, x.ctx.val, y.pc, b, num, tile, wing, noalloc, op, .waiting, {}, [], 0, [], 0, [],
    (s.box b).channelsOf x.ctx.val⟩
  ({ s with nextReq := s.nextReq + 1 }.setReq s.nextReq (some r)).setCore x.core.val
    ({ g c with served := x.ctx.val }.setCtx x.ctx.val
      { f { y with st := .run } with outs := y.outs ++ [(⟨s.nextReq, kind, buf, conv⟩ : OutReq)], pc := pc })

/-- The line of a tile that the device itself reads is good and sealed under the tile's subkeys (12:R304). -/
def State.lineWell (s : State) (b tile : Nat) : Prop :=
  match s.readPlace b tile with
  | .at tier frame => (s.frame (frameKey tier frame)).upset = .good ∧ (s.contents b tile (.at tier frame)).isSome = true
  | _ => True

/-- The device's own reads of a tile give data at once: its line is good and sealed under the tile's subkeys, and no open tag
holds it (10:R244; 12:R304). -/
def State.readsWell (s : State) (b tile : Nat) : Prop :=
  (s.box b).tagTarget tile = false ∧ s.lineWell b tile

/-- A packet's command is taken from sender `w` on this device, with no fragments, and nothing stands before its own
rules (13:R325 to R328, R334, R346; 12:R292, R294; 14:R370); the memory it reads gives its data at once, and its box holds no
reserved command (log 60). -/
structure State.Takes (s : State) (h : Hdr) (op : Nat) (p : List Byte) (w : Sender) : Prop where
  admitted : s.screened h op p = .from w
  flags : h.flags = 0
  frag : h.frag = 0
  fresh : w.key.isSome = true → (s.session w.k).seqOf h.seq.toNat op = .take
  row : ∃ r, opRow op = some r ∧ s.gate w r = none ∧ s.route w r p h.target.toNat = .here
  line : h.line = .good
  reads : ∀ t ∈ partTiles (s.cmdReads w.k op p), s.readsWell w.k t
  free : (s.box w.k).reserved = []

/-- The reply to a synchronous command that leaves state `t` (13:R326, R329). -/
def State.says (s t : State) (w : Sender) (h : Hdr) (op status : Nat) (ps : List Byte) : State :=
  t.answer w h op (s.devIndex w.k) status 0 ps (op ≠ 1)

/-- The state in which an operation's command has been answered with ACCEPTED, and the operation's number (13:R331,
R332). -/
def State.begun (s : State) (w : Sender) (h : Hdr) (op : Nat) : State × Nat :=
  match (s.acceptSeq w h).startOp w.k op with
  | some (t, o) => (t.answer w h op (s.devIndex w.k) stAccepted o [], o)
  | none => (s, 0)
/-- A slot for the operation is free (13:R332). -/
def State.hasSlot (s : State) (w : Sender) (h : Hdr) (op : Nat) : Prop := ((s.acceptSeq w h).startOp w.k op).isSome = true

/-- A command that is taken passes its own rules: it answers OK, or starts an operation that finds a slot (13:R331). -/
structure State.Accepts (s : State) (h : Hdr) (op : Nat) (p : List Byte) (w : Sender) : Prop extends State.Takes s h op p w where
  passes : match command op w p (s.acceptSeq w h) with
    | .no _ _ => False
    | .sync _ st _ => st = stOk
    | .go _ => s.hasSlot w h op

/-- The identity record of INFO (13:R353). -/
def State.infoRecord (s : State) (w : Sender) (p : List Byte) : List Byte :=
  let head := leBytes 4 0x4E474700 ++ leBytes 4 0x00000100 ++ leBytes 1 s.lcs ++ leBytes 7 0 ++ p ++ s.devicePk
    ++ (if w.port = 2 && !s.keyless then s.mekPk else leBytes 1568 0) ++ s.certSig
  head ++ s.deviceSign head

/-- The rows of R334 whose opcode is a row of its own. -/
def hostRows : List (Nat × (Hdr → List Byte → Instr)) :=
  [(0x0000, .info), (0x0001, .sessionRoll), (0x0002, .groupBind), (0x0003, .mgtSession), (0x0010, .opStatus), (0x0011, .opRead),
   (0x0012, .opAbort), (0x0013, .opRelease), (0x0014, .eventRead), (0x0100, .boxOpen), (0x0101, .boxClose), (0x0104, .groupCfg),
   (0x0110, .ethCfg), (0x0111, .linkCak), (0x0120, .modelInstall), (0x0121, .modelStoreErase), (0x0200, .regionMap),
   (0x0201, .regionUnmap), (0x0202, .tileUnd), (0x0203, .tileMove), (0x0210, .xferReg), (0x0211, .xferDrop), (0x0212, .xferRun),
   (0x0220, .wtLoad), (0x0221, .wtChannel), (0x0222, .sceneChange), (0x0300, .scriptLoad), (0x0301, .launch), (0x0400, .curtainCfg),
   (0x0401, .curtainStatus), (0x0403, .curtainResolve), (0x0405, .sceneRestore), (0x0407, .ifealeImport), (0x0408, .localRelease),
   (0x0500, .attest), (0x0501, .keyRelease), (0x0502, .keyPut), (0x0503, .keyDestroy), (0x0504, .rekey), (0x0505, .keyGen),
   (0x0506, .approve), (0x0507, .alarmRead), (0x0600, .lcStatus), (0x0601, .lcTransition), (0x0620, .spareReport),
   (0x0700, .regRead), (0x0701, .regWrite)]

/-- A box is LIVE on a device that is on. -/
def State.Up (s : State) (b : Nat) : Prop := (s.box b).st = 3 ∧ s.dev.on = true

/-- No launch of the box's open epoch runs or waits, no tag of one is open, no epoch walk is under way, and no discard
is decided (11:R262, R267). -/
structure State.EpochDone (s : State) (b : Nat) : Prop where
  launches : ∀ l ∈ (s.box b).launches, l.epoch = (s.box b).openE → l.st ≠ LaunchSt.running ∧ l.st ≠ LaunchSt.queued
  tags : ∀ p ∈ (s.box b).tags, ∀ l ∈ (s.box b).launches, l.epoch = (s.box b).openE → l.num = p.2.launch → p.2.st ≠ 1
  walked : (s.box b).walking = false
  open_ : (s.box b).outcome = none

end Sys2Proof.Machine
end

