-- ==== Sys2Proof/WellFormed.lean ====
section
/-! DEFINITION. Which commands have an encoding: the restrictions that the spec puts on the fields of one script or
stream instruction (06:R131 to R133, 05:R108, 08:R192, R194, R196). Events and host commands are checked by their
meanings, and every value of their operands is well formed. -/
namespace Sys2Proof

/-- An unused mask register is 0 (log 23). -/
def VEn.ok (e : VEn) : Bool := e.masked || e.m == 0

/-- GS is 0 unless RND is stochastic (R108). -/
def RG.ok (g : RG) : Bool := g.rnd == .stoch || g.gs == 0

/-- W, the pairing of FMT with W, and RND with GS (R108). -/
def floatOk (e : VEn) (f : Fmt) (g : RG) : Bool := e.ok && floatPair f e.w && g.ok

/-- PUT's fields (R194, R196): a block target has CA and CSLOT, any other has neither. -/
def PutOp.ok (o : PutOp) : Bool :=
  let blk : Bool := match o.fmtD with | some d => d.isBlockOnly | none => false
  (blk || (o.ca == 0 && o.cslot == 0)) && (match o.fmtD with | some d => putSrc o.fmtS && moveDst d | none => true)

/-- Whether a command is one that the spec's encodings can spell. -/
def WellFormed : Instr → Bool
  | .cwait _ _ e s => e || s == 0
  | .cpost _ _ _ r => decide (r.val ≤ 30)
  | .hload _ _ _ alt u => alt || u == 0
  | .hamax _ _ _ d => decide (d.toNat % 32 = 0)
  | .vmov _ e _ _ | .vbcast _ e _ _ | .viota _ e _ | .vand _ e _ _ _ | .vor _ e _ _ _ | .vxor _ e _ _ _ | .vnot _ e _ _
  | .vshl _ e _ _ _ | .vshr _ e _ _ _ | .vsra _ e _ _ _ | .vsmv _ e _ _ _ | .viadd _ e _ _ _ _ | .visub _ e _ _ _ _
  | .vimin _ e _ _ _ | .vimax _ e _ _ _ | .vimul _ e _ _ _ _ | .vmand _ e _ _ _ | .vmor _ e _ _ _ | .vmxor _ e _ _ _
  | .vmnot _ e _ _ | .vpopc _ e _ _ | .vperm _ e _ _ _ | .vcompress _ e _ _ _ _ | .vexpand _ e _ _ _ | .vcidx _ e _ _ _
  | .vrand _ e _ _ | .vrandu _ e _ _ | .vrandm _ e _ _ _ => e.ok
  | .vmvs _ w _ _ x => decide (x.val < w.lmax)
  | .vsetlen _ im a n => if im then a == 0 else n == 0
  | .vcmp _ e _ _ _ f _ => e.ok && anyPair f e.w
  | .vadd _ e _ _ _ f g | .vsub _ e _ _ _ f g | .vmul _ e _ _ _ f g | .vfma _ e _ _ _ _ f g | .vmin _ e _ _ _ f g
  | .vmax _ e _ _ _ f g | .vdiv _ e _ _ _ f g | .vsqrt _ e _ _ f g | .vrsqrt _ e _ _ f g | .vrecip _ e _ _ f g
  | .vexp2 _ e _ _ f g | .vlog2 _ e _ _ f g => floatOk e f g
  | .vabs _ e _ _ f | .vneg _ e _ _ f => e.ok && floatPair f e.w
  | .vcvt _ e o => e.ok && (o.rnd == .stoch || o.gs == 0) && cvtFmt o.fmtS && cvtFmt o.fmtD && cvtOffOk o.fmtS o.offS
      && cvtOffOk o.fmtD o.offD
  | .vrsum _ e d _ f g _ w | .vrssq _ e d _ f g _ w => e.ok && anyPair f e.w && g.ok && (!w || decide (d.val ≤ 30))
  | .vrmax _ e d _ f | .vrmin _ e d _ f => e.ok && anyPair f e.w && decide (d.val ≤ 30)
  | .vrtopk _ e _ _ k _ _ f => e.ok && anyPair f e.w && decide (1 ≤ k.toNat) && decide (k.toNat ≤ 16)
  | .vrand4 _ e d _ => e.ok && decide (d.val % 4 = 0)
  | .vadamw _ e o => e.ok && (o.rndm == .stoch || o.rndm == .near) && (o.rndm == .stoch || o.gs == 0) && copyFmt o.fmtC
      && (o.fmtC.isSome || (o.vd == 0 && !o.satc))
      && decide (o.sb.val ≤ 21)
  | .vgset _ _ f _ b => f == 0 || f == 3 || b == 0
  | .vamax _ _ d _ => decide (d.toNat % 32 = 0)
  | .vld _ e _ a | .vst _ e _ a => e.ok && vldOk a.toNat
  | .vldt _ e d a _ _ n => e.ok && decide (a.toNat % 64 = 0) && decide (d.val + n.val + 1 ≤ 32)
  | .vldm _ e _ a | .vstm _ e _ a => e.ok && vldmOk e.w a.toNat
  | .put _ o => o.ok
  | _ => true

end Sys2Proof
end

