-- ==== Sys2Proof/Certificates/Slice0/Obligations.lean ====
section
/-! DEFINITION. The statements for the provers: the block's step and encodings, script slots, streams, memory,
launches and recovery, links and groups, power and parts, and the host's commands. Each docstring names the rules. -/
open Sys2Proof Sys2Proof.Machine

/-- A step takes the command at the front of the queue and runs it on the state with the queue's rest (the model's own
form of a step, log 1). On an empty queue the block's own sequencers and stream engines put their next commands into
the queue, and nothing else changes (the model's choice, log 1): what they put is a bundle's slots and a stream
instruction of the scripts and streams that are loaded, so that a block that runs no launch idles. -/
def Obligations.StepRunsTheFrontCommand : Prop :=
  (∀ (c : Instr) (rest : List Instr) (s : State),
     step { s with pending := c :: rest } = exec c { s with pending := rest }) ∧
  (∀ s : State, s.pending = [] → step s = .next { s with pending := s.ownWork } ∧
     ((∀ k, k < 128 → s.running k = none ∧ s.streaming k = none) → step s = .next s))

/-- What every power-up gives that the spec states: no box is open, no key slot holds a key, no frame is taken, no packet
is in flight; a core's counters, cues, remap report and records, VLEN, and the generator bindings 14 and 15 (05:R126;
the CORE registers of 06 and 05). -/
def Obligations.ResetLeaves : Prop :=
  let s := State.reset
  s.pending = [] ∧ s.out = [] ∧ s.reqs = [] ∧
  (∀ b, (s.box b).st = 0 ∧ (s.box b).frozen = false ∧ (s.box b).launches = []) ∧
  (∀ k, s.slot k = {}) ∧
  ∀ k, let c := s.core k
    c.st = .idle ∧ c.scyc = 0 ∧ c.offset = 0 ∧ c.faultKind = 0 ∧ c.slipEvents = 0 ∧ c.slipCycles = 0 ∧ c.misses = 0 ∧
    c.standbyRuns = 0 ∧ c.understudyUses = 0 ∧ c.stale = 0 ∧ c.use = 0 ∧ c.vlen = 0 ∧ c.bind0 = 14 ∧ c.bind1 = 15 ∧
    c.flight = [] ∧ ∀ q, c.cue q = {}

/-- Every script instruction that the encodings can spell has a slot and a word, and that slot decodes that word to the
instruction, with every operand (06:R129, R131 to R133; 05:R108). NOP is word 0 of any slot. -/
def Obligations.SlotEncodingRoundTrip : Prop :=
  (∀ (iss : Issue) (k : Nat), decodeSlot iss k 0 = .ok (.nop iss)) ∧
  ∀ (i : Instr) (iss : Issue), issueOf i = some iss → WellFormed i = true → (∀ j, i ≠ .nop j) →
    ∃ k w, encodeSlot i = some (k, w) ∧ k < 8 ∧ w < 2 ^ 64 ∧ decodeSlot iss k w = .ok i

/-- Every stream instruction that the encodings can spell has a word, which decodes to the instruction with every operand
(08:R192, R194, R196). -/
def Obligations.StreamEncodingRoundTrip : Prop :=
  ∀ (i : Instr) (x : Ctx), ctxOf i = some x → WellFormed i = true →
    ∃ w, encodeStream i = some w ∧ w < 2 ^ 64 ∧ decodeStream x w = .ok i

/-- A word that a slot decodes is the word of the instruction it decodes to, and that instruction is one the encodings can
spell: no two words of a slot spell one instruction, and no reserved bit is dropped (06:R129, R137). A 64-bit word
that decodes as a stream instruction is the word of that instruction (08:R192). -/
def Obligations.DecodingIsExact : Prop :=
  (∀ (iss : Issue) (k w : Nat) (i : Instr), k < 8 → w < 2 ^ 64 → decodeSlot iss k w = .ok i →
     issueOf i = some iss ∧ WellFormed i = true ∧ ((i = .nop iss ∧ w = 0) ∨ encodeSlot i = some (k, w))) ∧
  (∀ (x : Ctx) (w : Nat) (i : Instr), w < 2 ^ 64 → decodeStream x w = .ok i →
     ctxOf i = some x ∧ WellFormed i = true ∧ encodeStream i = some w)

/-- The words of the example program of 08:R209, and slot words spelt from the encoding tables of 06:R131 to R133 and
05:R108, decode to what the spec gives them. -/
def Obligations.ExampleWordsDecode : Prop :=
  let x : Ctx := ⟨0x28, 5⟩
  let i : Issue := ⟨0x28, true⟩
  decodeStream x 0x0D40000000000000 = .ok (.mark x 1) ∧
  decodeStream x 0x0440000000000001 = .ok (.adda x 1 1) ∧
  decodeStream x 0x0300000000000004 = .ok (.seta x 0 4) ∧
  decodeStream x 0x080C04BC00000007 =
    .ok (.get x ⟨0x602, 1, false, none, .near, false, false, false, false, false, false, 0, 7⟩) ∧
  decodeStream x 0x0A00000000000000 = .ok (.credit x false) ∧
  decodeStream x 0x0200000000020000 = .ok (.addb x 0x20000) ∧
  decodeStream x 0x0600000000000003 = .ok (.djnz x 0 3) ∧
  decodeStream x 0x0E00000000000000 = .ok (.rearm x) ∧
  decodeSlot i 0 0x0816800000000000 = .ok (.cwait i 5 true 2) ∧
  decodeSlot i 0 0x0500000010000020 = .ok (.loop i 0x10 0x20) ∧
  decodeSlot i 1 0x010A510000000100 = .ok (.cret i 5 1 0x11 (.off 0x100)) ∧
  decodeSlot i 1 0x0382498000000000 = .ok (.cpost i 0x41 9 6) ∧
  decodeSlot i 2 0x0B190A6000000000 = .ok (.scmp i .flt 3 4 (.reg 5)) ∧
  decodeSlot i 2 0x03190100FFFFFFFF = .ok (.sadd i 3 4 (.imm 0xFFFFFFFF)) ∧
  decodeSlot i 3 0x0100208218000000 = .ok (.hload i 2 1 true 3) ∧
  decodeSlot i 4 0x02C0000000000040 = .ok (.hamax i 1 true 0x40) ∧
  decodeSlot i 5 0x20A4432000000000 = .ok (.vadd i ⟨.w32, true, 1⟩ 2 3 (.vec 4) .fp32 ⟨.near, 0⟩) ∧
  decodeSlot i 5 0x18430C9240000000 = .ok (.vcmp i ⟨.w16, false, 0⟩ 6 3 (.scal 4) .fp16 .gt) ∧
  decodeSlot i 6 0x0281000400122018 = .ok (.vldt i ⟨.w32, false, 0⟩ 8 0x1000 9 0x20 3) ∧
  decodeSlot i 7 0x0140600030000000 = .ok (.vst i ⟨.w16, false, 0⟩ 3 0xC0) ∧
  decodeSlot i 6 0x0400000000000000 = .error rejEncoding

/-- The integer scalar instructions (06:R395, R134): results from the next cycle on, SMUL's from the third; nothing else
of the core's data changes, and nothing outside the core. Shift counts of 32 or more give 0, or the sign. The FP32
scalar instructions (06:R395, R134; 05:R109, R110, R113): the exact result rounded once to nearest, usable from the
fourth cycle on; FLT and FLE fail on a NaN and take +0 as equal to −0. SLD and SST move 4 little-endian bytes at
(S[Sa] + the immediate) mod 2^32, its bits [1:0] as 0, modulo 8 MiB (06:R395, R134), where no stream holds the bank
(R142). -/
def Obligations.ScalarResults : Prop :=
  (∀ (s : State) (k : Fin 128) (b : Nat) (l : Launch), s.Quiet k b l → ∀ (sd sa : Fin 32) (y : BOp) (imm : W32),
     let a := (s.core k.val).sget sa.val
     let v := (s.core k.val).bop y
     s.Does (.sli (at1 k) sd imm) k id [(1, putS sd imm)] ∧
     s.Does (.smov (at1 k) sd sa) k id [(1, putS sd a)] ∧
     s.Does (.sadd (at1 k) sd sa y) k id [(1, putS sd (a + v))] ∧
     s.Does (.ssub (at1 k) sd sa y) k id [(1, putS sd (a - v))] ∧
     s.Does (.sand (at1 k) sd sa y) k id [(1, putS sd (a &&& v))] ∧
     s.Does (.sor (at1 k) sd sa y) k id [(1, putS sd (a ||| v))] ∧
     s.Does (.sxor (at1 k) sd sa y) k id [(1, putS sd (a ^^^ v))] ∧
     s.Does (.sshl (at1 k) sd sa y) k id [(1, putS sd (a <<< v.toNat))] ∧
     s.Does (.sshr (at1 k) sd sa y) k id [(1, putS sd (a >>> v.toNat))] ∧
     s.Does (.ssra (at1 k) sd sa y) k id [(1, putS sd (a.sshiftRight v.toNat))] ∧
     s.Does (.smul (at1 k) sd sa y) k id [(3, putS sd (a * v))] ∧
     s.Does (.scyc (at1 k) sd) k id [(1, putS sd (BitVec.ofNat 32 (s.core k.val).scyc))] ∧
     s.Does (.scmp (at1 k) .eq sd sa y) k id [(1, putS sd (if a = v then 1 else 0))] ∧
     s.Does (.scmp (at1 k) .ne sd sa y) k id [(1, putS sd (if a = v then 0 else 1))] ∧
     s.Does (.scmp (at1 k) .lt sd sa y) k id [(1, putS sd (if a.toInt < v.toInt then 1 else 0))] ∧
     s.Does (.scmp (at1 k) .le sd sa y) k id [(1, putS sd (if a.toInt ≤ v.toInt then 1 else 0))] ∧
     s.Does (.scmp (at1 k) .ltu sd sa y) k id [(1, putS sd (if a.toNat < v.toNat then 1 else 0))] ∧
     s.Does (.scmp (at1 k) .leu sd sa y) k id [(1, putS sd (if a.toNat ≤ v.toNat then 1 else 0))]) ∧
  (∀ (s : State) (k : Fin 128) (b : Nat) (l : Launch), s.Quiet k b l → ∀ (sd sa : Fin 32) (y : BOp),
     let d := Fmt.fp32.decode
     let a := ((s.core k.val).sget sa.val).toNat
     let v := ((s.core k.val).bop y).toNat
     let z := ((s.core k.val).sget sd.val).toNat
     let out (r : Rslt) : W32 := BitVec.ofNat 32 (Fmt.fp32.finish r .near 0)
     s.Does (.sfadd (at1 k) sd sa y) k id [(4, putS sd (out ((d a).add (d v)).exact))] ∧
     s.Does (.sfsub (at1 k) sd sa y) k id [(4, putS sd (out ((d a).add (d v).neg).exact))] ∧
     s.Does (.sfmul (at1 k) sd sa y) k id [(4, putS sd (out ((d a).mul (d v)).exact))] ∧
     s.Does (.sffma (at1 k) sd sa y) k id [(4, putS sd (out (((d a).mul (d v)).add (d z)).exact))] ∧
     s.Does (.sfmin (at1 k) sd sa y) k id [(4, putS sd (BitVec.ofNat 32 (Fmt.fp32.minCode a v)))] ∧
     s.Does (.sfmax (at1 k) sd sa y) k id [(4, putS sd (BitVec.ofNat 32 (Fmt.fp32.maxOf a v)))] ∧
     s.Does (.scmp (at1 k) .flt sd sa y) k id
       [(1, putS sd (if d a ≠ .nan ∧ d v ≠ .nan ∧ (d a).cmp (d v) < 0 then 1 else 0))] ∧
     s.Does (.scmp (at1 k) .fle sd sa y) k id
       [(1, putS sd (if d a ≠ .nan ∧ d v ≠ .nan ∧ (d a).cmp (d v) ≤ 0 then 1 else 0))]) ∧
  (∀ (s : State) (k : Fin 128) (b : Nat) (l : Launch), s.Quiet k b l → ∀ (sd sa : Fin 32) (imm : W32),
     let c := s.core k.val
     let n := (c.sget sa.val + imm).toNat
     let a := (n - n % 4) % 0x800000
     c.streamHolds a = false →
     s.Does (.sld (at1 k) sd sa imm) k id [(4, putS sd (BitVec.ofNat 32 (leNat (c.stageBytes a 4))))] ∧
     s.Does (.sst (at1 k) sd sa imm) k id [(3, putStage [(a, leBytes 4 (c.sget sd.val).toNat)])])

/-- A script access to a bank that a stream holds faults with kind 0x02, and the access does not take effect (06:R142,
R156). Re-arming a cue that is armed and not yet consumed ends the launch with fault kind 0x03, and a CWAIT on a cue
that is not armed, or off its deadline, with kind 0x01 (06:R138, R141, R156): the core has faulted at this bundle and
tells the device, and its registers and cue table stay. Stream programs fault (08:R200, R201, R208): a CREDIT or GETU
of another buffer outside UNDERSTUDY with kind 0x3, a misaligned LDA or REARM address with kind 0x2, a RACC whose tag
no plan entry names with kind 0x5: the context stops with its kind, the core's first stream fault names it, and the
core has told the device of the launch's end. -/
def Obligations.ScriptAndStreamFaults : Prop :=
  (∀ (s : State) (k : Fin 128) (b : Nat) (l : Launch), s.Quiet k b l → ∀ (sd sa : Fin 32) (imm : W32),
     let c := s.core k.val
     c.streamHolds (sldAddr (c.sget sa.val) imm) = true →
     ∃ c', exec (.sld (at1 k) sd sa imm) s = .next (s.putCore b l.num k.val c') ∧
       c'.st = .faulted ∧ c'.faultKind = 2 ∧ c'.faultBundle = c.bptr ∧ c'.s = c.s ∧ c'.stage = c.stage ∧
       c'.msgs = [.fault]) ∧
  (∀ (s : State) (k : Fin 128) (b : Nat) (l : Launch), s.Quiet k b l →
     ∀ (buf sb : Fin 8) (cue : Fin 64) (pol : BitVec 2) (dl : Dl) (st : Fin 128) (en : Bool),
     let c := s.core k.val
     let faults (i : Instr) (kind : Nat) : Prop :=
       ∃ c', exec i s = .next (s.putCore b l.num k.val c') ∧ c'.st = .faulted ∧ c'.faultKind = kind ∧
         c'.faultBundle = c.bptr ∧ c'.msgs = [.fault] ∧ c'.s = c.s ∧ c'.cues = c.cues ∧ c'.ctxs = c.ctxs
     ((c.cue cue.val).armed = true → faults (.carm (at1 k) cue pol dl) 3 ∧ faults (.cret (at1 k) st buf cue dl) 3) ∧
     ((c.cue cue.val).armed = false ∨ (c.cue cue.val).ddl ≠ c.scyc → faults (.cwait (at1 k) cue en sb) 1)) ∧
  (∀ (s : State) (x : Ctx) (b : Nat) (l : Launch), s.Streams x b l →
     ∀ (o : GetOp) (a : Fin 3) (off : W32) (tag : BitVec 12) (cue : Fin 64) (doff toff : BitVec 15) (tile : Nat),
     let c := s.core x.core.val
     let y := c.ctx x.ctx.val
     let faults (i : Instr) (kind : Nat) : Prop :=
       exec i s = .next ((s.served x (fun y => { y with pc := y.pc + 1 })).streamFault b l.num x.core.val x.ctx.val kind y.pc)
     (y.pol ≠ 2 → faults (.credit x true) 3 ∧ faults (.getu x o) 3) ∧
     (off.toNat % 4 ≠ 0 → faults (.lda x a off) 2) ∧ (y.list % 8 ≠ 0 → faults (.rearm x) 2) ∧
     (y.held.testBit y.cur = true → y.outs.length < 16 → (y.base + toff.toNat * 16384) % 2 ^ 50 = tile * 16384 →
       y.fits (doff.toNat * 64) 16384 = true → (∀ e ∈ l.plan, e.tag ≠ tag.toNat) → faults (.racc x tag cue doff toff) 5))

/-- The moves of the vector engine (05:R108, R103, R104, R105). Comparisons and mask instructions (05:R113, R108): one bit
per active element; with a NaN operand NE and UN hold and nothing else does; VPOPC counts. Elements written to a
vector register read back, and every other element keeps its value; mask bits likewise (05:R102 to R104). -/
def Obligations.VectorMoveAndMaskResults : Prop :=
  (∀ (s : State) (k : Fin 128) (b : Nat) (l : Launch), s.Quiet k b l →
     ∀ (e : VEn) (d a : Fin 32) (x : Fin 512) (w : VW) (n : BitVec 10),
     let c := s.core k.val
     let W := e.w.bits
     let S := (c.sget a.val).toNat
     s.Does (.vmov (at1 k) e d a) k id [(2, putV d W (c.each e (c.el e a)))] ∧
     s.Does (.vbcast (at1 k) e d a) k id [(2, putV d W (c.each e (fun _ => S % 2 ^ W)))] ∧
     s.Does (.viota (at1 k) e d) k id [(2, putV d W (c.each e (fun i => i % 2 ^ W)))] ∧
     s.Does (.vsmv (at1 k) e d a x) k id
       [(2, putV d W (if x.val ∈ c.active e then [(x.val, S % 2 ^ W)] else []))] ∧
     s.Does (.vmvs (at1 k) w d a x) k id [(2, putS d (BitVec.ofNat 32 (elemAt w.bits (c.vget a.val) x.val)))] ∧
     s.Does (.vsetlen (at1 k) true a n) k id [(1, fun c => { c with vlen := min 512 n.toNat })] ∧
     s.Does (.vsetlen (at1 k) false a n) k id [(1, fun c => { c with vlen := min 512 S })]) ∧
  (∀ (s : State) (k : Fin 128) (b : Nat) (l : Launch), s.Quiet k b l →
     ∀ (e : VEn) (d ma mb : Fin 8) (sd a : Fin 32) (y : VB) (f : Fmt) (cd : VCond),
     let c := s.core k.val
     let P (i : Nat) : Bool := (c.mget ma.val).getLsbD i
     let Q (i : Nat) : Bool := (c.mget mb.val).getLsbD i
     s.Does (.vcmp (at1 k) e d a y f cd) k id
       [(2, putM d (c.eachBit e (fun i => cmpHolds f cd (c.el e a i) (c.vbElem y e.w.bits i))))] ∧
     s.Does (.vmand (at1 k) e d ma mb) k id [(2, putM d (c.eachBit e (fun i => P i && Q i)))] ∧
     s.Does (.vmor (at1 k) e d ma mb) k id [(2, putM d (c.eachBit e (fun i => P i || Q i)))] ∧
     s.Does (.vmxor (at1 k) e d ma mb) k id [(2, putM d (c.eachBit e (fun i => xor (P i) (Q i))))] ∧
     s.Does (.vmnot (at1 k) e d ma) k id [(2, putM d (c.eachBit e (fun i => !P i)))] ∧
     s.Does (.vpopc (at1 k) e sd ma) k id [(2, putS sd (BitVec.ofNat 32 ((c.active e).filter P).length))]) ∧
  ((∀ (w : VW) (old : VReg) (ws : List (Nat × Nat)), (ws.map Prod.fst).Nodup → (∀ p ∈ ws, p.1 < w.lmax ∧ p.2 < 2 ^ w.bits) →
     let r := mergeBits old (elemWrites w.bits ws).1 (elemWrites w.bits ws).2
     (∀ p ∈ ws, elemAt w.bits r p.1 = p.2) ∧
     ∀ i, i < w.lmax → (∀ p ∈ ws, p.1 ≠ i) → elemAt w.bits r i = elemAt w.bits old i) ∧
   ∀ (old : MReg) (ws : List (Nat × Bool)), (ws.map Prod.fst).Nodup → (∀ p ∈ ws, p.1 < 512) →
     let r := mergeBits old (maskWrites ws).1 (maskWrites ws).2
     (∀ p ∈ ws, r.getLsbD p.1 = p.2) ∧ ∀ i, (∀ p ∈ ws, p.1 ≠ i) → r.getLsbD i = old.getLsbD i)

/-- The bitwise and shift instructions of the vector engine (05:R108, R112): a count of w or more gives 0, or the sign.
The integer instructions of the vector engine on two's-complement elements (05:R112, R105): sums and products are
exact, and saturated with OVF = 0 or cut to w bits with OVF = 1. Saturation and wrapping of an exact integer to w
bits, read back as two's complement (05:R112, 02:R41, R55). -/
def Obligations.IntegerElementResults : Prop :=
  (∀ (s : State) (k : Fin 128) (b : Nat) (l : Launch), s.Quiet k b l → ∀ (e : VEn) (d a : Fin 32) (y : VB),
     let c := s.core k.val
     let W := e.w.bits
     let A := c.el e a
     let B := c.vbElem y W
     s.Does (.vand (at1 k) e d a y) k id [(2, putV d W (c.each e (fun i => A i &&& B i)))] ∧
     s.Does (.vor (at1 k) e d a y) k id [(2, putV d W (c.each e (fun i => A i ||| B i)))] ∧
     s.Does (.vxor (at1 k) e d a y) k id [(2, putV d W (c.each e (fun i => A i ^^^ B i)))] ∧
     s.Does (.vnot (at1 k) e d a) k id [(2, putV d W (c.each e (fun i => 2 ^ W - 1 - A i)))] ∧
     s.Does (.vshl (at1 k) e d a y) k id [(2, putV d W (c.each e (fun i => A i * 2 ^ B i % 2 ^ W)))] ∧
     s.Does (.vshr (at1 k) e d a y) k id [(2, putV d W (c.each e (fun i => A i / 2 ^ B i)))] ∧
     s.Does (.vsra (at1 k) e d a y) k id
       [(2, putV d W (c.each e (fun i => lowBits W (signedOf W (A i) / (2 ^ B i : Nat)))))]) ∧
  (∀ (s : State) (k : Fin 128) (b : Nat) (l : Launch), s.Quiet k b l → ∀ (e : VEn) (d a : Fin 32) (y : VB) (o : Bool),
     let c := s.core k.val
     let W := e.w.bits
     let A (i : Nat) : Int := signedOf W (c.el e a i)
     let B (i : Nat) : Int := signedOf W (c.vbElem y W i)
     s.Does (.viadd (at1 k) e d a y o) k id [(2, putV d W (c.each e (fun i => intOut W o (A i + B i))))] ∧
     s.Does (.visub (at1 k) e d a y o) k id [(2, putV d W (c.each e (fun i => intOut W o (A i - B i))))] ∧
     s.Does (.vimul (at1 k) e d a y o) k id [(4, putV d W (c.each e (fun i => intOut W o (A i * B i))))] ∧
     s.Does (.vimin (at1 k) e d a y) k id [(2, putV d W (c.each e (fun i => lowBits W (min (A i) (B i)))))] ∧
     s.Does (.vimax (at1 k) e d a y) k id [(2, putV d W (c.each e (fun i => lowBits W (max (A i) (B i)))))]) ∧
  (∀ (w : VW) (x : Int),
     signedOf w.bits (intOut w.bits false x)
       = max (-((2 ^ (w.bits - 1) : Nat) : Int)) (min (((2 ^ (w.bits - 1) : Nat) : Int) - 1) x) ∧
     ((intOut w.bits true x : Int) - x) % (2 ^ w.bits : Nat) = 0 ∧
     intOut w.bits false x < 2 ^ w.bits ∧ intOut w.bits true x < 2 ^ w.bits)

/-- VCMP on float elements (05:R113): NE and UN hold when an operand is NaN and every other condition fails; else the
order of the values decides, +0 and −0 being equal. A value that a float format holds is not changed by rounding to
it, under any RND and random bits (02:R36, R53; 05:R109: a result that is exact). The order of values that
comparisons, minima, maxima and rankings use (05:R109, R110, R113, R119): a finite value is its rational number, −Inf
lies below and +Inf above every finite one, and the order is total. Minimum, maximum and absolute value of numbers
(05:R109, R110): of two operands that are not NaN the minimum is one that lies above neither and the maximum one that
lies below neither; VABS clears the sign alone, and of a NaN gives the canonical one. The absolute maximum of a record
(02:R57): a finite value enters as the lowest FP32 code whose value is not below its magnitude, at most 0x7F7F_FFFF,
and the record keeps the larger of what it held and that; values that are not finite leave it. -/
def Obligations.FloatValueRules : Prop :=
  (∀ (f : Fmt) (a b : Nat), f.isFloat = true →
     let x := f.decode a
     let y := f.decode b
     ((x = .nan ∨ y = .nan) → ∀ cd, cmpHolds f cd a b = (cd == .ne || cd == .un)) ∧
     (x ≠ .nan → y ≠ .nan → ∀ cd, cmpHolds f cd a b = match cd with
       | .eq => decide (x.cmp y = 0) | .ne => decide (x.cmp y ≠ 0) | .lt => decide (x.cmp y < 0)
       | .le => decide (x.cmp y ≤ 0) | .gt => decide (0 < x.cmp y) | .ge => decide (0 ≤ x.cmp y)
       | .un => false | .ord => true) ∧
     (x.isZero = true → y.isZero = true → x.cmp y = 0)) ∧
  (∀ (f : Fmt) (c : Nat) (rnd : Rnd) (r : Nat), f.isFloat = true → c < 2 ^ f.width → f.decode c ≠ .nan →
     f.finish (f.decode c).exact rnd r = c) ∧
  (let num (s : Bool) (n : Nat) (e : Int) : ℚ := (if s then -1 else 1) * (n : ℚ) * 2 ^ e
   (∀ (s t : Bool) (n m : Nat) (e g : Int),
     ((Val.fin s n e).cmp (Val.fin t m g) < 0 ↔ num s n e < num t m g) ∧
     ((Val.fin s n e).cmp (Val.fin t m g) = 0 ↔ num s n e = num t m g) ∧
     (0 < (Val.fin s n e).cmp (Val.fin t m g) ↔ num t m g < num s n e) ∧
     (Val.inf true).cmp (.fin s n e) < 0 ∧ 0 < (Val.inf false).cmp (.fin s n e) ∧
     0 < (Val.fin s n e).cmp (.inf true) ∧ (Val.fin s n e).cmp (.inf false) < 0) ∧
   (Val.inf true).cmp (.inf false) < 0 ∧ 0 < (Val.inf false).cmp (.inf true) ∧ ∀ s, (Val.inf s).cmp (.inf s) = 0) ∧
  (∀ (f : Fmt) (a b : Nat), f = .fp32 ∨ f = .bf16 ∨ f = .fp16 → a < 2 ^ f.width → b < 2 ^ f.width →
     let x := f.decode a
     let y := f.decode b
     let lo := f.decode (f.minCode a b)
     let hi := f.decode (f.maxOf a b)
     (x ≠ .nan → y ≠ .nan → (f.minCode a b = a ∨ f.minCode a b = b) ∧ lo.cmp x ≤ 0 ∧ lo.cmp y ≤ 0 ∧
       (f.maxOf a b = a ∨ f.maxOf a b = b) ∧ 0 ≤ hi.cmp x ∧ 0 ≤ hi.cmp y) ∧
     (∀ s n e, x = .fin s n e → f.decode (f.absCode a) = .fin false n e) ∧
     (∀ s, x = .inf s → f.decode (f.absCode a) = .inf false) ∧ (x = .nan → f.absCode a = f.nanCode)) ∧
  (let num (v : Val) : ℚ := match v with | .fin _ n e => (n : ℚ) * 2 ^ e | _ => 0
   (∀ (n : Nat) (e : Int), amaxForm n e ≤ 0x7F7FFFFF ∧
     (∀ d < amaxForm n e, num (Fmt.fp32.decode d) < (n : ℚ) * 2 ^ e) ∧
     ((n : ℚ) * 2 ^ e ≤ num (Fmt.fp32.decode 0x7F7FFFFF) → (n : ℚ) * 2 ^ e ≤ num (Fmt.fp32.decode (amaxForm n e)))) ∧
   ∀ a : Amax, (∀ s n e, a.enter (.fin s n e) = { a with amax := max a.amax (amaxForm n e) }) ∧
     (∀ s, a.enter (.inf s) = a) ∧ a.enter .nan = a)

/-- VMIN and VMAX on codes (05:R110): a NaN operand gives the canonical NaN, max(+0, −0) is +0 and min(+0, −0) is −0 in
either operand order. -/
def Obligations.MinimumAndMaximumRule : Prop :=
  ∀ (f : Fmt) (a b : Nat), f = .fp32 ∨ f = .bf16 ∨ f = .fp16 → a < 2 ^ f.width → b < 2 ^ f.width →
    ((f.decode a = .nan ∨ f.decode b = .nan) → f.minCode a b = f.nanCode ∧ f.maxOf a b = f.nanCode) ∧
    f.maxOf (f.zeroCode false) (f.zeroCode true) = f.zeroCode false ∧
    f.maxOf (f.zeroCode true) (f.zeroCode false) = f.zeroCode false ∧
    f.minCode (f.zeroCode false) (f.zeroCode true) = f.zeroCode true ∧
    f.minCode (f.zeroCode true) (f.zeroCode false) = f.zeroCode true

/-- The float instructions of the vector engine (05:R109 to R111, R105, R122): the exact result rounded once under RND,
with one draw of the generator under RND = 0b10; VMIN and VMAX ignore RND and draw nothing (the model's reading, log
61). VCVT, VADAMW and VAMAX (05:R115, R116, R125, R58): converted elements, the updated parameters, and the record:
conversions enter it before a read or clear of it, and a read clears it after. -/
def Obligations.VectorFloatResults : Prop :=
  (∀ (s : State) (k : Fin 128) (b : Nat) (l : Launch), s.Quiet k b l →
     ∀ (e : VEn) (d a y z : Fin 32) (v : VB) (f : Fmt) (g : RG),
     let c := s.core k.val
     let W := e.w.bits
     let D := f.decode
     let A (i : Nat) : Val := D (c.el e a i)
     let B (i : Nat) : Val := D (c.vbElem v W i)
     let Y (i : Nat) : Val := D (c.el e y i)
     let Z (i : Nat) : Val := D (c.el e z i)
     let out (n : Nat) (r : Nat → Rslt) : List (Nat × (Core → Core)) :=
       [(n, putV d W (c.each e (fun i => f.finish (r i) g.rnd ((c.gen g.gs.val).elemBits W i))))]
     let G := drawn g.rnd g.gs
     s.Does (.vadd (at1 k) e d a v f g) k G (out 4 (fun i => ((A i).add (B i)).exact)) ∧
     s.Does (.vsub (at1 k) e d a v f g) k G (out 4 (fun i => ((A i).add (B i).neg).exact)) ∧
     s.Does (.vmul (at1 k) e d a v f g) k G (out 4 (fun i => ((A i).mul (B i)).exact)) ∧
     s.Does (.vfma (at1 k) e d a y z f g) k G (out 4 (fun i => (((A i).mul (Y i)).add (Z i)).exact)) ∧
     s.Does (.vmin (at1 k) e d a v f g) k id
       [(4, putV d W (c.each e (fun i => f.minCode (c.el e a i) (c.vbElem v W i))))] ∧
     s.Does (.vmax (at1 k) e d a v f g) k id
       [(4, putV d W (c.each e (fun i => f.maxOf (c.el e a i) (c.vbElem v W i))))] ∧
     s.Does (.vabs (at1 k) e d a f) k id [(4, putV d W (c.each e (fun i => f.absCode (c.el e a i))))] ∧
     s.Does (.vneg (at1 k) e d a f) k id [(4, putV d W (c.each e (fun i => f.negCode (c.el e a i))))] ∧
     s.Does (.vdiv (at1 k) e d a v f g) k G (out 14 (fun i => (A i).div (B i))) ∧
     s.Does (.vsqrt (at1 k) e d a f g) k G (out 14 (fun i => (A i).sqrt)) ∧
     s.Does (.vrsqrt (at1 k) e d a f g) k G (out 14 (fun i => (A i).rsqrt)) ∧
     s.Does (.vrecip (at1 k) e d a f g) k G (out 14 (fun i => (A i).recip)) ∧
     s.Does (.vexp2 (at1 k) e d a f g) k G (out 14 (fun i => (A i).exp2)) ∧
     s.Does (.vlog2 (at1 k) e d a f g) k G (out 14 (fun i => (A i).log2))) ∧
  (∀ (s : State) (k : Fin 128) (b : Nat) (l : Launch), s.Quiet k b l →
     ∀ (e : VEn) (o : VCvtOp) (p : VAdamOp) (rc : Fin 4) (dst : BitVec 23) (clr : Bool),
     let c := s.core k.val
     (let ws := o.fmtS.width
      let wd := o.fmtD.width
      let act := (List.range (min c.vlen (128 * (32 / max ws wd)))).filter (fun i => !e.masked || (c.mget e.m.val).getLsbD i)
      let grid := signedOf 16 (c.sget o.se.val).toNat
      let cv : Conv := ⟨o.fmtD, false, o.rnd, o.sat, o.ovf, c.sget o.sp.val, c.sget o.sq.val,
        if o.fmtS = .bi32 then some grid else none, if o.fmtD = .bi32 then some grid else none⟩
      let row := cv.row (act.map (fun i => (srcOf o.fmtS grid (elemAt ws (c.vget o.vs.val) (o.offS.val * 128 + i)),
        (c.gen o.gs.val).elemBits (min ws wd) i))) Amax.zero
      s.Does (.vcvt (at1 k) e o) k (drawn o.rnd o.gs)
        [(4, enterRec (2 + o.rc.val) row.2.2), (4, putV o.vd wd ((act.map (fun i => o.offD.val * 128 + i)).zip row.1))]) ∧
     (let act := (List.range (min c.vlen 128)).filter (fun i => !e.masked || (c.mget e.m.val).getLsbD i)
      let sc := (List.range 11).map (fun i => c.sget (p.sb.val + i))
      let g := c.gen p.gs.val
      let el (r : Fin 32) (i : Nat) : Nat := elemAt 32 (c.vget r.val) i
      let r (i : Nat) : AdamOut := adamElem p sc (el p.va i) (el p.vb i) (el p.vc i) (g.half i 0 0) (g.half i 0 1) Amax.zero
      let total := act.foldl (fun (a : Amax) i => (⟨max a.amax (r i).ra.amax, a.nan + (r i).ra.nan, a.inf + (r i).ra.inf,
        a.sat + (r i).ra.sat, a.sticky + (r i).ra.sticky⟩ : Amax)) Amax.zero
      s.Does (.vadamw (at1 k) e p) k (drawn p.rndm p.gs)
        ([(24, enterRec (2 + p.rc.val) total), (24, putV p.va 32 (act.map (fun i => (i, (r i).theta)))),
          (24, putV p.vc 32 (act.map (fun i => (i, (r i).moments))))]
         ++ (match p.fmtC with
             | some f => [(24, putV p.vd f.width (act.map (fun i => (i, (r i).copy.getD 0))))]
             | none => []))) ∧
     (c.mayAccess dst.toNat 32 = true →
       s.Does (.vamax (at1 k) rc dst clr) k id
         [(1, fun c => if clr then c.setRecord (2 + rc.val) Amax.zero else c),
          (2, putStage [(dst.toNat, (c.record (2 + rc.val)).bytes ++ leBytes 12 0)])]))

/-- Routing (05:R117): a1 < a2 < … are the active elements whose bit in the named mask is 1. -/
def Obligations.VectorRoutingResults : Prop :=
  ∀ (s : State) (k : Fin 128) (b : Nat) (l : Launch), s.Quiet k b l →
    ∀ (e : VEn) (d x y sc : Fin 32) (m : Fin 8),
    let c := s.core k.val
    let W := e.w.bits
    let as := (c.active e).filter (fun i => (c.mget m.val).getLsbD i)
    let n := as.length
    let cnt : W32 := BitVec.ofNat 32 n
    s.Does (.vperm (at1 k) e d x y) k id
      [(6, putV d W (c.each e (fun i => if c.el e y i < e.w.lmax then c.el e x (c.el e y i) else 0)))] ∧
    s.Does (.vcompress (at1 k) e d x m sc) k id
      [(6, putV d W ((List.range n).map (fun j => (j, c.el e x (as.getD j 0))))), (6, putS sc cnt)] ∧
    s.Does (.vcidx (at1 k) e d m sc) k id
      [(6, putV d W ((List.range n).map (fun j => (j, as.getD j 0 % 2 ^ W)))), (6, putS sc cnt)] ∧
    s.Does (.vexpand (at1 k) e d x m) k id
      [(6, putV d W ((List.range n).map (fun j => (as.getD j 0, c.el e x j))))]

/-- Reductions (05:R118 to R120): sums rounded once or exact, the first-ranked element with its index, and the K
first-ranked ones. Ranking (03:R80; 05:R119): the elements in rank order are the same elements, an element that ranks
before another stands before it, NaN first, and elements of one rank stand in the order of their positions. Random
draws and generator state (05:R121 to R123): each draw takes DRAW at issue and steps it once, modulo 2^48. -/
def Obligations.VectorReductionAndRandomResults : Prop :=
  (∀ (s : State) (k : Fin 128) (b : Nat) (l : Launch), s.Quiet k b l →
     ∀ (e : VEn) (d x sc : Fin 32) (f : Fmt) (g : RG) (o w up : Bool) (n : BitVec 5),
     let c := s.core k.val
     let codes := (c.active e).map (c.el e x)
     let pairs := (c.active e).map (fun i => (i, c.el e x i))
     let r := (c.gen g.gs.val).half 0 0 0
     let G := drawn g.rnd g.gs
     let sums (sq : Bool) : List (Nat × (Core → Core)) :=
       if f.isFloat then [(10, putS d (BitVec.ofNat 32 (floatSum sq f g.rnd r codes)))]
       else if w then
         [(10, putS d (BitVec.ofInt 32 (intSum sq f codes))),
          (10, putS (d + 1 : Fin 32).val (BitVec.ofNat 32 (lowBits 64 (intSum sq f codes) / 2 ^ 32)))]
       else [(10, putS d (BitVec.ofNat 32 (intOut 32 o (intSum sq f codes))))]
     let rank (up : Bool) : List (Nat × (Core → Core)) :=
       [(8, putS d (BitVec.ofNat 32 (rankFirst f up pairs).1)), (8, putS (d + 1 : Fin 32).val (BitVec.ofNat 32 (rankFirst f up pairs).2))]
     let top := (ranked f up pairs).take n.toNat
     let lane (j : Nat) : Nat :=
       if j < 16 then (top[j]?.map (fun p => canonCode f p.2)).getD 0 else (top[j - 16]?.map Prod.fst).getD 0
     s.Does (.vrsum (at1 k) e d x f g o w) k G (sums false) ∧
     s.Does (.vrssq (at1 k) e d x f g o w) k G (sums true) ∧
     s.Does (.vrmax (at1 k) e d x f) k id (rank false) ∧
     s.Does (.vrmin (at1 k) e d x f) k id (rank true) ∧
     s.Does (.vrtopk (at1 k) e d x n up sc f) k id
       [(12, putV d 32 ((List.range 32).map (fun j => (j, lane j)))), (12, putS sc (BitVec.ofNat 32 top.length))]) ∧
  (∀ (f : Fmt) (up : Bool) (xs : List (Nat × Nat)), xs.Pairwise (fun a b => a.1 < b.1) → (∀ p ∈ xs, p.2 < 2 ^ f.width) →
     (ranked f up xs).Perm xs ∧
     (ranked f up xs).Pairwise (fun a b => rankBefore f up a.2 b.2 = true ∨ (rankBefore f up b.2 a.2 = false ∧ a.1 < b.1)) ∧
     ∀ a b, f = .fp32 ∨ f = .bf16 ∨ f = .fp16 → f.decode a = .nan → f.decode b ≠ .nan →
       rankBefore f up a b = true ∧ rankBefore f up b a = false) ∧
  (∀ (s : State) (k : Fin 128) (b : Nat) (l : Launch), s.Quiet k b l →
     ∀ (e : VEn) (d a y : Fin 32) (g : Fin 16) (m : Fin 8) (arr : Fin 2) (fd : BitVec 2),
     let c := s.core k.val
     let x := c.gen g.val
     let W := e.w.bits
     let G (c : Core) : Core := c.setGen g.val { x with draw := (x.draw + 1) % 2 ^ 48 }
     let lanes (f : Nat → Nat) : List (Nat × Nat) := c.each e (fun i => f (i * W / 32) / 2 ^ (i * W % 32) % 2 ^ W)
     let A := (c.sget a.val).toNat
     let B := (c.sget y.val).toNat
     s.Does (.vrand (at1 k) e d g) k G [(6, putV d W (lanes (fun q => x.word q 0)))] ∧
     s.Does (.vrand4 (at1 k) e d g) k G
       ((List.range 4).map (fun j => (6, putV (Fin.ofNat 32 (d.val + j)) W (lanes (fun q => x.word q j))))) ∧
     s.Does (.vrandu (at1 k) e d g) k G
       [(6, putV d W (lanes (fun q => Fmt.fp32.finish (.fin false ⟨x.word q 0 / 2 ^ 8, -24, false⟩) .near 0)))] ∧
     s.Does (.vrandm (at1 k) e m g a) k G [(6, putM m (c.eachBit e (fun i => decide (x.elemWord W i < A))))] ∧
     s.Does (.vgset (at1 k) g fd a y) k id
       [(1, fun c => c.setGen g.val (match fd.toNat with
         | 0 => { c.gen g.val with key := A + B * 2 ^ 32 }
         | 1 => { c.gen g.val with sid := A }
         | 2 => { c.gen g.val with step := A }
         | _ => { c.gen g.val with draw := A + B % 2 ^ 16 * 2 ^ 32 }))] ∧
     s.Does (.vgget (at1 k) g a y) k id
       [(1, putS a (BitVec.ofNat 32 x.draw)), (1, putS y (BitVec.ofNat 32 (x.draw / 2 ^ 32)))] ∧
     s.Does (.vgbind (at1 k) arr g) k id
       [(1, fun c => if arr.val = 0 then { c with bind0 := g } else { c with bind1 := g })])

/-- Vector loads and stores (05:R114, R105), where no stream holds a bank of the active elements' bytes. -/
def Obligations.VectorMemoryResults : Prop :=
  ∀ (s : State) (k : Fin 128) (b : Nat) (l : Launch), s.Quiet k b l →
    ∀ (e : VEn) (d st nr : Fin 32) (m : Fin 8) (a : BitVec 23) (col : BitVec 9),
    let c := s.core k.val
    let W := e.w.bits
    let B := W / 8
    let act := c.active e
    let stride := (c.sget st.val).toNat - (c.sget st.val).toNat % 64
    let row (i r : Nat) : Nat := ((a.toNat + i * stride) % 0x800000 + (col.toNat + r) * W / 8) % 0x800000
    ((∀ i ∈ act, c.mayAccess (a.toNat + i * W / 8) B = true) →
      s.Does (.vld (at1 k) e d a) k id
        [(4, putV d W (act.map (fun i => (i, leNat (c.stageBytes (a.toNat + i * W / 8) B)))))] ∧
      s.Does (.vst (at1 k) e d a) k id
        [(3, putStage (act.map (fun i => (a.toNat + i * W / 8, leBytes B (c.el e d i)))))]) ∧
    ((∀ i ∈ act, c.mayAccess (row i 0) ((nr.val + 1) * W / 8) = true) →
      s.Does (.vldt (at1 k) e d a st col nr) k id
        ((List.range (nr.val + 1)).map (fun r => (nr.val + 1 + 4,
          putV (Fin.ofNat 32 (d.val + r)) W (act.map (fun i => (i, leNat (c.stageBytes (row i r) B)))))))) ∧
    ((∀ i ∈ act, c.mayAccess (a.toNat + i / 8) 1 = true) →
      s.Does (.vldm (at1 k) e m a) k id
        [(4, putM m (c.eachBit e (fun i => (leNat (c.stageBytes (a.toNat + i / 8) 1)).testBit (i % 8))))]) ∧
    (c.mayAccess a.toNat (e.w.lmax / 8) = true →
      s.Does (.vstm (at1 k) e m a) k id
        [(3, putStage [(a.toNat, leBytes (e.w.lmax / 8)
          (act.foldl (fun v i => v + if (c.mget m.val).getLsbD i then 2 ^ i else 0) 0))])])

/-- HAMAX reads the drain port's record at the end of its cycle, in stage memory two cycles after issue, and clears it
where CLR is 1 (03:R81, R58); HDPARAM sets C0 for drains from the next cycle on (04:R96); HLOAD's plane is usable 64
cycles after issue (03:R64, R65, R132, R148). HMUL, PRELOAD, HSAVE, HRESTORE and HDRAIN issue and put their row
accesses in flight, each at the cycle that its rule gives its row (03:R73, R75, R78, R85; 06:R132): input row j of an
HMUL at c + j, or c + 2j in double-pass mode, a drain's row i at d + i, a save's at a + 8i, a restore's words at a +
8i + q. -/
def Obligations.HingeResults : Prop :=
  (∀ (s : State) (k : Fin 128) (b : Nat) (l : Launch), s.Quiet k b l →
     ∀ (arr : Fin 2) (clr alt : Bool) (dst : BitVec 23) (sc ba : Fin 32) (desc : BitVec 12) (u : Fin 64),
     let c := s.core k.val
     s.Does (.hdparam (at1 k) arr sc) k id [(1, fun c' => { c' with c0 := Tab.set one32 c'.c0 arr.val (c.sget sc.val) })] ∧
     (c.mayAccess dst.toNat 32 = true →
       s.Does (.hamax (at1 k) arr clr dst) k id
         [(1, fun c' => if clr then c'.setRecord arr.val Amax.zero else c'),
          (2, putStage [(dst.toNat, (c.record arr.val).bytes ++ leBytes 12 0)])]) ∧
     (∀ h, c.hloadOp (desc.toNat + (if alt && c.use.getLsbD u.val then 1 else 0)) ba = some h → c.hloadMay h = true →
       s.Does (.hload (at1 k) desc ba alt u) k (fun c' => { c' with loaded := (h.arr * 2 + h.plane) :: c'.loaded })
         [(64, fun c' => { c' with planes := Tab.set {} c'.planes (h.arr * 2 + h.plane) (c.readPlane h), fresh := c'.fresh + 1 })])) ∧
  (∀ (s : State) (k : Fin 128) (b : Nat) (l : Launch), s.Quiet k b l → ∀ (desc : BitVec 12) (ba bb : Fin 32),
     let c := s.core k.val
     let run (i : Instr) (ps : List (Nat × Micro)) : Prop :=
       exec i s = .next (s.setCore k.val ((c.rowsIn i ps).endCycle ((s.box b).env l k.val)))
     (∀ d, c.hmulOp desc.toNat ba bb = some d → c.mulPlanesOk d = true → c.mulMay d 0 = true →
       let dbl := c.mulMode d = .double
       run (.hmul (at1 k) desc ba bb) ((List.range d.rows).map (fun j =>
         (if dbl then 2 * j else j, .mulRow d j ((d.accRow + j) % 512) (if dbl then 15 else 14))))) ∧
     (∀ d, c.preloadOp desc.toNat ba bb = some d →
       c.mayAccess (rowAddr d.src (if d.kind = 1 then d.stride else 0) 0) (128 * (fmtOf d.fmt).width / 8) = true →
       run (.preload (at1 k) desc ba bb) ((List.range (if d.kind = 1 then d.rows else 1)).map (fun i =>
         (i, .preRow d i ((d.accRow + i) % 512))))) ∧
     (∀ d, c.hsaveOp desc.toNat ba bb = some d →
       run (.hsave (at1 k) desc ba bb) ((List.range d.rows).flatMap (fun i =>
         ((arrsOf d.arrs).zip (List.range (arrsOf d.arrs).length)).map (fun am =>
           (8 * i, .saveRow d am.2 am.1 i ((d.firstRow + i) % 512)))))) ∧
     (∀ d, c.hsaveOp desc.toNat ba bb = some d →
       (∀ m < (arrsOf d.arrs).length, c.mayAccess ((d.addr + m * d.rows * 0x400) % 0x800000) 128 = true) →
       run (.hrestore (at1 k) desc ba bb) ((List.range d.rows).flatMap (fun i =>
         ((arrsOf d.arrs).zip (List.range (arrsOf d.arrs).length)).flatMap (fun am =>
           (List.range 8).map (fun q => (8 * i + q, .restWords d am.2 am.1 i ((d.firstRow + i) % 512) q)))))) ∧
     (∀ d, c.hdrainOp desc.toNat ba bb = some d →
       run (.hdrain (at1 k) desc ba bb) ((List.range d.rows).map (fun i =>
         (i, .drainRead d (c.sget d.sp) (c.sget d.sq) (signedOf 16 (c.sget d.se).toNat) (c.c0Of d.arr) (c.bound d.arr) i
           ((d.accRow + i) % 512))))))

/-- An HMUL accumulates each row's sums of products with the plane's columns, row j's j + 14 cycles after issue, or 2j +
15 in double-pass mode, to the accumulator row of each of its arrays as that stands then (03:R66, R68, R73). PRELOAD,
HSAVE and HRESTORE move whole accumulator rows (03:R75, R85, R86): a preload's row i is its own source row, or the one
source row that KIND 0 gives to all, in the accumulator from issue + i + 3 on; the words of a saved row i are in stage
memory from issue + 8i + 10 on, little-endian, 1 KiB a row, one array's rows after the other's; a restored row i is in
the accumulator from issue + 8i + 10 on. A drain (03:R77 to R80; 04:R92 to R95; 05:R121): row i is read at issue + i,
goes through the element-wise stage with its operand row and through the derivative stage with its kept data, and its
conversion, block scales and top-k record are in stage memory 9 cycles later; the conversion is in the port's record 7
cycles later, and under RND = 0b10 the bound generator makes one draw a row, in order; the accumulator keeps its
words. A row's stores are taken not to meet what a later row reads. -/
def Obligations.HmulAndHdrainRows : Prop :=
  (∀ (s : State) (k : Fin 128) (b : Nat) (l : Launch), s.Quiet k b l → ∀ (desc : BitVec 12) (ba bb : Fin 32) (d : HmulD),
     let c := s.core k.val
     c.hmulOp desc.toNat ba bb = some d → c.mulPlanesOk d = true → (∀ j < d.rows, c.mulMay d j = true) →
     s.Does (.hmul (at1 k) desc ba bb) k id ((List.range d.rows).map (fun j =>
       (if c.mulMode d = .double then 2 * j + 15 else j + 14, fun c' => (arrsOf d.arrs).foldl (fun c' a =>
         c'.setWords a ((d.accRow + j) % 512) 0 (List.zipWith (fun w r => accStep w d.accMode r)
           (c'.rowWords a ((d.accRow + j) % 512))
           ((List.range 128).map (fun n => rowSum (List.zipWith Val.mul (c.mulInput d j) ((c.plane a d.plane).column n)))))) c')))) ∧
  (∀ (s : State) (k : Fin 128) (b : Nat) (l : Launch), s.Quiet k b l → ∀ (desc : BitVec 12) (ba bb : Fin 32),
     let c := s.core k.val
     (∀ d, c.preloadOp desc.toNat ba bb = some d →
       let f := fmtOf d.fmt
       let src (i : Nat) : Nat := rowAddr d.src (if d.kind = 1 then d.stride else 0) i
       let word (x : Nat) : W64 := if f = .acc64 then BitVec.ofNat 64 x else preloadWord (f.decode x)
       (∀ i < d.rows, c.mayAccess (src i) (128 * f.width / 8) = true) → 0 < d.rows →
       s.Does (.preload (at1 k) desc ba bb) k id ((List.range d.rows).map (fun i =>
         (i + 3, fun c' => c'.setWords d.arr ((d.accRow + i) % 512) 0
           ((unpackBits f.width 128 (c.stageBytes (src i) (128 * f.width / 8))).map word))))) ∧
     (∀ d, c.hsaveOp desc.toNat ba bb = some d →
       let arrs := (arrsOf d.arrs).zip (List.range (arrsOf d.arrs).length)
       let at_ (m i : Nat) : Nat := (d.addr + m * d.rows * 0x400 + i * 0x400) % 0x800000
       let row (i : Nat) : Nat := (d.firstRow + i) % 512
       ((∀ i < d.rows, ∀ m < (arrsOf d.arrs).length, c.mayAccess (at_ m i) 0x400 = true) →
         s.Does (.hsave (at1 k) desc ba bb) k id ((List.range d.rows).flatMap (fun i => arrs.map (fun am =>
           (8 * i + 10, putStage [(at_ am.2 i, (c.rowWords am.1 (row i)).flatMap (fun w => leBytes 8 w.toNat))]))))) ∧
       ((∀ i < d.rows, ∀ m < (arrsOf d.arrs).length, ∀ q < 8, c.mayAccess ((at_ m i + q * 128) % 0x800000) 128 = true) →
         s.Does (.hrestore (at1 k) desc ba bb) k id ((List.range d.rows).flatMap (fun i =>
           (List.range 8).flatMap (fun q => arrs.map (fun am =>
             (8 * i + 10, fun c' => c'.setWords am.1 (row i) (16 * q) ((List.range 16).map (fun j =>
               BitVec.ofNat 64 (leNat (c.stageBytes (at_ am.2 i + q * 128 + 8 * j) 8)))))))))))) ∧
  (∀ (s : State) (k : Fin 128) (b : Nat) (l : Launch), s.Quiet k b l → ∀ (desc : BitVec 12) (ba bb : Fin 32) (d : HdrainD),
     let c := s.core k.val
     let cv := drainConv d (c.sget d.sp) (c.sget d.sq) (signedOf 16 (c.sget d.se).toNat)
     let c0 := Fmt.fp32.decode (c.c0Of d.arr).toNat
     let gen (i : Nat) : Gen := (List.range i).foldl (fun g _ => g.next) (c.gen (c.bound d.arr).val)
     let read (i : Nat) : List DVal := (c.rowWords d.arr ((d.accRow + i) % 512)).map (fun w => ⟨(accSrc w).v, (accSrc w).sticky⟩)
     let ewF := fmtOf d.ewFmt
     let ewAt (i : Nat) : Nat × Nat := (rowAddr d.ewSrc d.ewStride i, 128 * ewF.width / 8)
     let ew (i : Nat) : List DVal := if d.ewOp = 0 then read i else
       List.zipWith (fun (x : DVal) o => drainVal (if d.ewOp = 1 then x.v.add o else x.v.mul o) x.sticky) (read i)
         ((unpackBits ewF.width 128 (c.stageBytes (ewAt i).1 (ewAt i).2)).map ewF.decode)
     let derAt (i : Nat) : Nat × Nat := (derivAddr d i, (derivRow d.deriv).2)
     let kept (i n : Nat) : Bool × Bool × Val := derivElem d.deriv (c.stageBytes (derAt i).1 (derAt i).2) n
     let factor (a : Val) : Val := if d.deriv = 5 then (if a.isFin then a.mul ((Val.fin false 1 0).add a.neg) else .nan)
       else if d.deriv = 6 then (if a.isFin then (Val.fin false 1 0).add (a.mul a).neg else .nan)
       else if d.deriv = 9 then a.mul c0 else a
     let zero (x : DVal) : DVal := ⟨.fin false 0 0, x.sticky⟩
     let times (x : DVal) (f : Val) : DVal := drainVal (x.v.mul f) x.sticky
     let der (x : DVal) (y : Bool × Bool × Val) : DVal :=
       if d.deriv = 0 then x
       else if d.deriv = 1 then (if y.1 then x else zero x)
       else if d.deriv = 2 then (if y.1 then times x c0 else zero x)
       else if d.deriv = 3 then (if y.1 then x else times x c0)
       else if d.deriv = 4 then (if y.1 && y.2.1 then times x c0 else zero x)
       else times x (factor y.2.2)
     let out (i : Nat) : List DVal := ((List.range 128).zip (ew i)).map (fun nx => der nx.2 (kept i nx.1))
     let row (i : Nat) := cv.row (((out i).map (fun x => (⟨x.v, x.sticky⟩ : Src))).zip
       ((List.range 128).map (fun n => if cv.rnd = .stoch then (gen i).half n 0 0 else 0))) Amax.zero
     let runs (i : Nat) : List (Nat × List Byte) := drainRuns d i (row i).1 (row i).2.1
     let apart (p q : Nat × Nat) : Prop := ∀ x < p.2, ∀ y < q.2, (p.1 + x) % 0x800000 ≠ (q.1 + y) % 0x800000
     c.hdrainOp desc.toNat ba bb = some d → d.arr < 2 → d.ewOp ≤ 2 →
     (∀ i < d.rows, (∀ r ∈ runs i, c.mayAccess r.1 r.2.length = true) ∧
       (d.ewOp ≠ 0 → c.mayAccess (ewAt i).1 (ewAt i).2 = true) ∧ (d.deriv ≠ 0 → c.mayAccess (derAt i).1 (derAt i).2 = true)) →
     (∀ i < d.rows, ∀ j < d.rows, i < j → ∀ r ∈ runs i, (d.ewOp ≠ 0 → apart (r.1, r.2.length) (ewAt j)) ∧
       (d.deriv ≠ 0 → apart (r.1, r.2.length) (derAt j))) →
     s.Does (.hdrain (at1 k) desc ba bb) k id ((List.range d.rows).flatMap (fun i =>
       [(i + 6, drawn cv.rnd (c.bound d.arr)), (i + 7, enterRec d.arr (row i).2.2), (i + 9, putStage (runs i))])))

/-- Control flow (06:R128, R131, R136, R152, R397): a bundle of one slot issues in one cycle and the next place is the
branch target, the loop's body or what follows; nothing else changes. A PPOINT with no preemption pending issues in
one cycle. A LOOP of count 0 skips its body. The loop stack at an END (06:R397): the innermost loop that ends there
repeats while iterations are left; a loop that is done is removed and the next enclosing one that ends there is
counted; otherwise the next bundle follows. HALT stops the core with its cues disarmed, and the core has stopped for
its launch (06:R155). SBRET ends a segment: bit SB of S31 is set, the other bits stay, the run is counted, and a CWAIT
whose cue is still not visible is held again under STALL (06:R145, R146). -/
def Obligations.ControlFlowResults : Prop :=
  (∀ (s : State) (k : Fin 128) (b : Nat) (l : Launch), s.Quiet k b l →
     ∀ (t e : BitVec 14) (sa : Fin 32) (n : BitVec 24),
     let c := s.core k.val
     let run (i : Instr) (c' : Core) : Prop := exec i s = .next (s.setCore k.val c')
     let S := c.sget sa.val
     let enter (n : Nat) : Core :=
       if n = 0 then c.stepTo ((endCount e.toNat c.loops).1 % 2 ^ 14) (endCount e.toNat c.loops).2
       else c.stepTo ((c.bptr + 1) % 2 ^ 14) (⟨c.bptr + 1, e.toNat, n⟩ :: c.loops)
     run (.nop (at1 k)) c.along ∧
     run (.jmp (at1 k) t) (c.stepTo t.toNat c.loops) ∧
     run (.brz (at1 k) sa t) (if S = 0 then c.stepTo t.toNat c.loops else c.along) ∧
     run (.brnz (at1 k) sa t) (if S = 0 then c.along else c.stepTo t.toNat c.loops) ∧
     run (.loop (at1 k) n e) (enter n.toNat) ∧
     run (.loopr (at1 k) sa e) (enter (S.toNat % 2 ^ 24)) ∧
     ((s.box b).preemptPending l k.val = false → run (.ppoint (at1 k)) c.along)) ∧
  (∀ (q f r : Nat) (ls : List LoopEntry),
     endCount q (⟨f, q, r + 2⟩ :: ls) = (f, ⟨f, q, r + 1⟩ :: ls) ∧
     endCount q (⟨f, q, 1⟩ :: ls) = endCount q ls ∧
     (∀ x : LoopEntry, x.last ≠ q → endCount q (x :: ls) = (q + 1, x :: ls)) ∧
     endCount q [] = (q + 1, [])) ∧
  ((∀ (s : State) (k : Fin 128) (b : Nat) (l : Launch), s.Quiet k b l →
     ∃ c', exec (.halt (at1 k)) s = .next (((s.setCore k.val c').coreStopped b l.num k.val).stopPoints b l.num) ∧
       c'.st = .halted ∧ c'.cues = [] ∧ c'.flight = [] ∧ c'.msgs = [] ∧ c'.offset = (s.core k.val).offset ∧
       c'.slipEvents = (s.core k.val).slipEvents ∧ c'.slipCycles = (s.core k.val).slipCycles ∧ c'.s = (s.core k.val).s ∧
       c'.toks = (s.core k.val).toks) ∧
   ∀ (s : State) (k : Fin 128) (b : Nat) (l : Launch) (sb : Nat) (h : Held) (q sl : Nat) (en : Bool), s.Runs k b l →
     let c := s.core k.val
     c.st = .standby → c.seg = some (sb, false) → c.heldAt = some h → c.flight = [] → c.accs = [] → c.bundle = [] →
     waitOf h.slots = some (q, en, sl) → (c.cue q).armed = true → (c.cue q).ddl = c.scyc → (c.cue q).vis = false →
     (c.cue q).pol = 1 → (c.slot sl).armed = false → (s.box b).preemptPending l k.val = false →
     exec (.sbret (at1 k)) s = .next (s.setCore k.val { c.sset 31 (c.sget 31 ||| BitVec.ofNat 32 (2 ^ sb)) with
       st := .held, seg := none, bundle := [], bptr := h.ptr, loops := (endCount c.bptr c.loops).2, now := c.now + 1,
       seq := c.seq + 1, standbyRuns := min (c.standbyRuns + 1) (2 ^ 32 - 1) }))

/-- SBREG, CARM, CRET, CDROP and CPOST (06:R131, R138, R139, R145; 08:R191, R201): what each arms, disarms, records or
posts, with the deadline that it computes. A CPOST to a core outside the box is dropped and counted. A CWAIT at its
deadline (06:R141, R143 to R145): a visible cue is consumed, with USE bit 0, and its bundle issues without delay, the
primary cue of a pair disarming the other; under STALL, which an odd cue of a pair acts as (R148), the bundle is held
and the miss counted; under STANDBY with an armed slot the core switches to the slot's segment. -/
def Obligations.CueResults : Prop :=
  (∀ (s : State) (k : Fin 128) (b : Nat) (l : Launch), s.Quiet k b l →
     ∀ (sb buf : Fin 8) (entry : BitVec 14) (cue : Fin 64) (pol : BitVec 2) (dl : Dl) (st dest : Fin 128) (r : Fin 32),
     let c := s.core k.val
     let D := (c.scyc + c.dlVal dl) % 2 ^ 40
     let arm (c : Core) (q p : Nat) (f : Option (Nat × Nat)) : Core := c.setCue q ⟨true, D, p, false, false, f⟩
     let x := c.ctx st.val
     s.Does (.sbreg (at1 k) sb entry) k (fun c => c.setSlot sb.val ⟨true, entry.toNat⟩) [] ∧
     ((c.cue cue.val).armed = false →
       s.Does (.carm (at1 k) cue pol dl) k (fun c => arm c cue.val (if pol = 1 then 1 else 0) none) []) ∧
     (s.Does (.cdrop (at1 k) cue) k (fun c => (List.range 128).foldl (fun c i =>
         if Tab.has c.ctxs i then c.updCtx i (fun y => (List.range 8).foldl (fun y j =>
           if y.armed.testBit j && y.cueOf j == cue.val then { y with armed := setBitN y.armed j false } else y) y)
         else c) (c.setCue cue.val {})) []) ∧
     (x.pol ≠ 2 → buf.val ≤ x.nbuf → x.armed.testBit buf.val = false → (c.cue cue.val).armed = false →
       s.Does (.cret (at1 k) st buf cue dl) k
         (fun c => (arm c cue.val x.pol (some (st.val, buf.val))).updCtx st.val (fun y =>
           { y with cues := Tab.set 0 y.cues buf.val cue.val, armed := setBitN y.armed buf.val true }))
         (if x.held.testBit buf.val then []
          else [(1, fun c => c.updCtx st.val (fun y => { y with held := setBitN y.held buf.val true }))])) ∧
     (x.pol = 2 → buf.val % 2 = 0 → cue.val % 2 = 0 → buf.val + 1 ≤ x.nbuf →
       (∀ j < 2, x.armed.testBit (buf.val + j) = false ∧ (c.cue (cue.val + j)).armed = false) →
       let one (j : Nat) (c : Core) : Core := (arm c (cue.val + j) 2 (some (st.val, buf.val + j))).updCtx st.val (fun y =>
         { y with cues := Tab.set 0 y.cues (buf.val + j) (cue.val + j), armed := setBitN y.armed (buf.val + j) true })
       let give (j : Nat) : List (Nat × (Core → Core)) :=
         if x.held.testBit (buf.val + j) then []
         else [(1, fun c => c.updCtx st.val (fun y => { y with held := setBitN y.held (buf.val + j) true }))]
       s.Does (.cret (at1 k) st buf cue dl) k (fun c => one 1 (one 0 c)) (give 0 ++ give 1)) ∧
     (let d := (c.sget (r.val + 1)).toNat % 2 ^ 8 * 2 ^ 32 + (c.sget r.val).toNat
      (s.boxOfCore dest.val = some b → (∀ m ∈ (s.box b).launches, Tab.has m.saved dest.val = false) →
       let t := s.setCore k.val c.along
       exec (.cpost (at1 k) dest cue r) s
         = .next (t.setCore dest.val ((t.core dest.val).receive ⟨.post, cue.val, d, 0, 0, false, 1⟩))) ∧
      (s.boxOfCore dest.val ≠ some b →
       exec (.cpost (at1 k) dest cue r) s
         = .next (s.setCore k.val { c.along with stale := min (c.stale + 1) (2 ^ 32 - 1) })))) ∧
  (∀ (s : State) (k : Fin 128) (b : Nat) (l : Launch), s.Quiet k b l → ∀ (cue : Fin 64) (en : Bool) (sb : Fin 8),
     let c := s.core k.val
     let q := c.cue cue.val
     let i : Instr := .cwait (at1 k) cue en sb
     q.armed = true → q.ddl = c.scyc →
     (q.vis = true → l.replay = false ∨ q.pol ≠ 2 ∨ cue.val % 2 = 1 →
       exec i s = .next (s.setCore k.val
         (let d := { (c.setCue cue.val {}) with use := c.use &&& ~~~(BitVec.ofNat 64 (2 ^ cue.val)) }
          (if q.pol = 2 ∧ cue.val % 2 = 0 then d.setCue (cue.val + 1) {} else d).along))) ∧
     (q.vis = false → (s.box b).preemptPending l k.val = false →
       (q.pol = 0 ∨ (q.pol = 1 ∧ (en = false ∨ (c.slot sb.val).armed = false)) ∨
           (q.pol = 2 ∧ (cue.val % 2 = 1 ∨ (l.replay = false ∧ (l.under = false ∨ 4096 ≤ l.logged)))) →
         exec i s = .next (s.setCore k.val { c with
           st := .held, bundle := [], misses := min (c.misses + 1) (2 ^ 32 - 1),
           heldAt := some ⟨[i], c.bptr, c.now, 0x80, decide (c.busy ≤ c.scyc)⟩ })) ∧
       (q.pol = 1 → en = true → (c.slot sb.val).armed = true →
         exec i s = .next (s.setCore k.val { c.setSlot sb.val { c.slot sb.val with armed := false } with
           st := .standby, bundle := [], misses := min (c.misses + 1) (2 ^ 32 - 1),
           heldAt := some ⟨[i], c.bptr, c.now, 0x81, decide (c.busy ≤ c.scyc)⟩, seg := some (sb.val, true), bptr := (c.slot sb.val).entry }))))

/-- An understudy is taken (06:R127, R148, R149, R151): USE bit c is 1, both cues are disarmed and the primary's fill is
abandoned, the bundle issues 4 cycles later and the slip of 4 cycles moves the offset, and one record of 16 bytes goes
to the launch's log, whose line reads good. -/
def Obligations.UnderstudyIsTaken : Prop :=
  ∀ (s : State) (k : Fin 128) (b : Nat) (l : Launch), s.Quiet k b l → ∀ (cue : Fin 64) (en : Bool) (sb : Fin 8),
    let c := s.core k.val
    let q := c.cue cue.val
    q.armed = true → q.ddl = c.scyc → q.vis = false → q.pol = 2 → cue.val % 2 = 0 → (c.cue (cue.val + 1)).vis = true →
    l.under = true → l.logged < 4096 → l.replay = false → c.understudyUses < 2 ^ 32 - 1 → c.slipEvents < 2 ^ 32 - 1 →
    (∀ t ∈ partTiles [(l.log + 16 * l.logged, 16)], s.lineWell b t) →
    ∃ c' t, exec (.cwait (at1 k) cue en sb) s = .next t ∧ t.core k.val = c' ∧
      c'.use = c.use ||| BitVec.ofNat 64 (2 ^ cue.val) ∧ c'.cue cue.val = { aband := true } ∧ c'.cue (cue.val + 1) = {} ∧
      c'.understudyUses = c.understudyUses + 1 ∧ c'.offset = c.offset + 4 ∧ c'.slipEvents = c.slipEvents + 1 ∧
      c'.slipKind = 0x82 ∧ c'.slipHold = 4 ∧ c'.scyc = c.scyc + 1 ∧ c'.now = c.now + 5 ∧ c'.st = .running ∧ c'.s = c.s ∧
      t = ((s.setCore k.val c').rangeWrite b (l.log + 16 * l.logged) 16
        (Tab.block 0 0 (underRecord l.num c.scyc ((s.box b).localCore k.val) cue.val
          (match q.buf with | some (x, _) => x | none => 0) (s.box b).step))).updLaunch b l.num
          (fun l => { l with logged := l.logged + 1 })

/-- Events of a core (06:R139, R144, R145, R154, R156): the 24 switch cycles run out and the segment may issue; tokens of
the synchroniser become visible; the stall limit and script cycle 2^40 are faults 0x04 and 0x05; a preempted core is
restored from its image, with the tokens that arrived meanwhile visible, and resumes. -/
def Obligations.CoreEventResults : Prop :=
  (∀ (s : State) (k : Fin 128) (b : Nat) (l : Launch) (sb : Nat), s.Runs k b l →
    let c := s.core k.val
    c.st = .standby → c.seg = some (sb, true) → c.flight = [] →
    exec (.standbySwitchElapsed k) s = .next (s.setCore k.val { c with seg := some (sb, false), now := c.now + 24 })) ∧
  (∀ (s : State) (k : Fin 128) (b : Nat) (l : Launch) (n : Nat) (ks : List Nat) (die : List (Fin 64 × BitVec 40)),
    s.Runs k b l → let c := s.core k.val
    c.st = .running → c.heldAt = none →
    exec (.tokenVisible k n ks die) s = .next (s.setCore k.val (Core.applyTokens { c with toks := (takeAt c.toks ks).2 }
      ((takeAt c.toks ks).1 ++ die.map (fun p => ⟨.other, p.1.val, p.2.toNat, 0, 0, false, 1⟩))))) ∧
  (∀ (s : State) (k : Fin 128) (b : Nat) (l : Launch) (h : Held), s.HeldAt k b l h → h.kind ≠ 0x82 →
    let c := s.core k.val
    let limit := if l.stall = 0 then 2 ^ 32 else l.stall
    c.stalled ≤ limit →
    ∃ c', exec (.stallLimit k) s = .next (s.putCore b l.num k.val c') ∧ c'.st = .faulted ∧ c'.faultKind = 4 ∧
      c'.faultBundle = h.ptr ∧ c'.msgs = [.fault] ∧ c'.s = c.s) ∧
  (∀ (s : State) (k : Fin 128) (b : Nat) (l : Launch), s.Runs k b l →
    let c := s.core k.val
    c.st = .running → c.seg = none → c.flight = [] → 2 ^ 40 ≤ c.scyc →
    ∃ c', exec (.scriptCycleLimit k) s = .next (s.putCore b l.num k.val c') ∧ c'.st = .faulted ∧ c'.faultKind = 5 ∧
      c'.faultBundle = c.bptr ∧ c'.msgs = [.fault] ∧ c'.s = c.s) ∧
  (∀ (s : State) (k : Fin 128) (b : Nat) (l : Launch) (tile : Nat) (m : Mem), s.boxOfCore k.val = some b →
    (s.box b).st = 3 → (s.box b).frozen = false → (s.box b).preemptedOn k.val = some l →
    s.rangeMem b (l.preempt + ((s.box b).localCore k.val - l.core0) * imageSize) imageSize = some m →
    (∀ t ∈ partTiles [(l.preempt + ((s.box b).localCore k.val - l.core0) * imageSize, imageSize)], s.lineWell b t) →
    let t := s.updLaunch b l.num (fun l => { l with saved := Tab.erase l.saved k.val })
    let e := (t.box b).env l k.val
    let c := (Tab.get {} l.saved k.val).ofImage m
    exec (.coreRestore k tile .good) s
      = .next (t.putCore b l.num k.val ((c.visible e 0 (List.range c.toks.length) []).resume e)))

/-- A token (06:R139; 08:R200): it matches when its cue is armed, not yet visible, and has its deadline, and its fill was
not abandoned; a match makes the cue visible and, for a fill credit, passes the buffer's banks to the script; any
other token changes nothing but the count of stale ones. Tokens that become visible in one core cycle (01:R30;
06:R140): they are applied in ascending cue number, and for one cue fill credits before CPOST tokens before the cues
of the die controller and of tag completions, in whatever order they arrived. -/
def Obligations.TokenMatching : Prop :=
  (∀ (s : State) (k : Fin 128) (b : Nat) (l : Launch) (t : Token), s.Runs k b l →
     let c := s.core k.val
     let q := c.cue t.cue
     c.st = .running → c.heldAt = none → c.toks = [t] →
     (q.armed = true → q.vis = false → q.ddl = t.ddl → t.stale = false →
       exec (.tokenVisible k 0 [0] []) s = .next (s.setCore k.val
         (let d := { c with toks := [] }.setCue t.cue { q with vis := true }
          if t.kind = .fill then d.updCtx t.ctx (fun x => { x with held := setBitN x.held t.buf false }) else d))) ∧
     (q.armed = false ∨ q.vis = true ∨ q.ddl ≠ t.ddl ∨ t.stale = true →
       exec (.tokenVisible k 0 [0] []) s
         = .next (s.setCore k.val { c with toks := [], stale := min (c.stale + 1) (2 ^ 32 - 1) }))) ∧
  (∀ (s : State) (k : Fin 128) (b : Nat) (l : Launch), s.Runs k b l →
     let c := s.core k.val
     c.st = .running → c.heldAt = none →
     (∃ us : List Token, us.Perm c.toks ∧
       us.Pairwise (fun x y => x.cue < y.cue ∨ (x.cue = y.cue ∧ x.kind.rank ≤ y.kind.rank)) ∧
       exec (.tokenVisible k 0 (List.range c.toks.length) []) s
         = .next (s.setCore k.val (us.foldl Core.applyToken { c with toks := [] }))) ∧
     ∀ (x y : Token) (n : Nat), c.toks = [x, y] → (y.cue < x.cue ∨ (y.cue = x.cue ∧ y.kind.rank < x.kind.rank)) →
       exec (.tokenVisible k n [0, 1] []) s
         = .next (s.setCore k.val (({ c with toks := [] }.applyToken y).applyToken x)))

/-- A missed bundle issues once its cue is visible (06:R141, R143, R151): after `n` cycles of the hold the token makes the
cue visible, the CWAIT consumes it, and the slip of the whole hold is counted, recorded with KIND 0x80 and added to
the offset. The hold of the interlock (03:R82 to R84): a bundle whose array accesses would touch a row or plane before
an earlier access allows is held until it may, and the hold is counted as one slip of its KIND and added to the
offset: here a drain of accumulator row `r` issued `d` cycles after a single-mode HMUL of that row, at most 13 cycles
after. The drain issues 14 cycles after the HMUL and reads the accumulated row; later it issues without a hold. -/
def Obligations.HeldBundlesIssue : Prop :=
  (∀ (s : State) (k : Fin 128) (b : Nat) (l : Launch) (h : Held) (n : Nat) (t : Token) (iss : Issue) (cue : Fin 64)
     (en : Bool) (sb : Fin 8),
     s.HeldAt k b l h → h.slots = [.cwait iss cue en sb] → h.kind = 0x80 →
     let c := s.core k.val
     c.toks = [t] → t.cue = cue.val → t.kind ≠ .fill → t.stale = false → (c.cue cue.val).armed = true →
     (c.cue cue.val).vis = false → (c.cue cue.val).ddl = t.ddl → t.ddl = c.scyc → (c.cue cue.val).pol = 0 →
     h.miss < c.now + n → c.stalled + n < (if l.stall = 0 then 2 ^ 32 else l.stall) →
     c.slipEvents < 2 ^ 32 - 1 → c.slipCycles + (c.now + n - h.miss) < 2 ^ 32 →
     ∃ c', exec (.tokenVisible k n [0] []) s = .next (s.setCore k.val c') ∧
       c'.st = .running ∧ c'.heldAt = none ∧ c'.cue cue.val = {} ∧ c'.scyc = c.scyc + 1 ∧ c'.now = c.now + n + 1 ∧
       c'.offset = c.offset + (c.now + n - h.miss) ∧ c'.slipKind = 0x80 ∧ c'.slipEvents = c.slipEvents + 1 ∧
       c'.slipCycles = c.slipCycles + (c.now + n - h.miss) ∧ c'.slipHold = min (c.now + n - h.miss) 0xFFFF ∧ c'.s = c.s) ∧
  ((∀ (s : State) (k : Fin 128) (b : Nat) (l : Launch) (x : HdrainD) (desc : BitVec 12) (ba bb : Fin 32)
     (plane d q bu mode : Nat) (sums : List RowSum), s.Runs k b l →
     let c := s.core k.val
     let e := (s.box b).env l k.val
     c.st = .running → c.heldAt = none → c.bundle = [] → c.seg = none → c.scyc < 2 ^ 40 → d < 14 → d ≤ c.now →
     c.hdrainOp desc.toNat ba bb = some x → x.rows = 1 → x.arr < 2 → x.accRow < 512 →
     c.accs = [.mul x.arr plane (c.now - d) x.accRow 1 false] →
     c.flight = [⟨keyAt (c.now + (14 - d)) phLand, q, bu, .accAdd x.arr x.accRow mode sums⟩] →
     c.slipEvents < 2 ^ 32 - 1 → c.slipCycles + 14 < 2 ^ 32 →
     let ws := List.zipWith (fun w r => accStep w mode r) (c.rowWords x.arr x.accRow) sums
     ∃ c', exec (.hdrain (at1 k) desc ba bb) s = .next (s.setCore k.val c') ∧
       c'.slipEvents = c.slipEvents + 1 ∧ c'.slipKind = 1 ∧ c'.slipArr = x.arr ∧ c'.slipHold = 14 - d ∧
       c'.slipCycles = c.slipCycles + (14 - d) ∧ c'.offset = c.offset + (14 - d) ∧ c'.scyc = c.scyc + 1 ∧
       c'.now = c.now + (14 - d) + 1 ∧ c' = (((c.slip 1 x.arr (14 - d)).advance e (14 - d)).commitPlain e [.hdrain (at1 k) desc ba bb]) ∧
       ∀ n, n < sums.length → n < 128 → c'.accWordAt x.arr x.accRow n = ws.getD n 0) ∧
   (∀ (now arr plane r d : Nat), arr < 2 → r < 512 → d < 14 →
     holdOf (now + d) [.drain arr 0 r 1] [.mul arr plane now r 1 false] = some (14 - d, 1, arr) ∧
     holdOf (now + 14 + d) [.drain arr 0 r 1] [.mul arr plane now r 1 false] = none))

/-- The stream instructions that act on their context alone (08:R192): the registers they set, and the next PC; the
context is the last served, and nothing else changes. JMP, DJNZ and MARK (08:R192, R203): the target, or the next
instruction when the counter has reached 0; a marker goes to the migration engines behind those sent before. CREDIT
(08:R200): the fill credit of the buffer's recorded cue, with the deadline that the cue table holds now, and stale
when the fill was abandoned; the buffer's ARMED and ABND bits are cleared and, with U = 0, CUR advances by 1, or by 2
under UNDERSTUDY. It waits in WAIT_ARM for the ARMED bit, and for the requests of the buffer. -/
def Obligations.StreamRegisterResults : Prop :=
  (∀ (s : State) (x : Ctx) (b : Nat) (l : Launch), s.Streams x b l → ∀ (imm : BitVec 50) (v : W32) (a : Fin 3),
     let run (i : Instr) (f : SCtx → SCtx) : Prop :=
       exec i s = .next (s.served x (fun c => { f c with pc := c.pc + 1 }))
     run (.streamNop x) id ∧
     run (.setb x imm) (fun c => { c with base := imm.toNat }) ∧
     run (.addb x imm) (fun c => { c with base := (c.base + imm.toNat) % 2 ^ 50 }) ∧
     run (.setl x imm) (fun c => { c with list := imm.toNat }) ∧
     run (.seta x a v) (fun c => { c with a := Tab.set 0 c.a a.val v }) ∧
     run (.adda x a v) (fun c => { c with a := Tab.set 0 c.a a.val (Tab.get 0 c.a a.val + v) }) ∧
     run (.streamEnd x) (fun c => { c with st := .done })) ∧
  (∀ (s : State) (x : Ctx) (b : Nat) (l : Launch), s.Streams x b l → ∀ (t : BitVec 12) (a : Fin 3),
     let c := s.core x.core.val
     let v := Tab.get 0 (c.ctx x.ctx.val).a a.val
     (t.toNat < c.nStream →
       exec (.streamJmp x t) s = .next (s.served x (fun y => { y with pc := t.toNat })) ∧
       exec (.djnz x a t) s = .next (s.served x (fun y =>
         { y with a := Tab.set 0 y.a a.val (v - 1), pc := if v = 1 then y.pc + 1 else t.toNat }))) ∧
     exec (.mark x a) s = .next ((s.updBox b (fun y => { y with markers := y.markers ++ [(l.num, v.toNat % 2 ^ 16)] })).served x
       (fun y => { y with pc := y.pc + 1 }))) ∧
  (∀ (s : State) (x : Ctx) (b : Nat) (l : Launch), s.Streams x b l → ∀ u : Bool,
     let c := s.core x.core.val
     let y := c.ctx x.ctx.val
     let buf := if u then (y.cur + 1) % (y.nbuf + 1) else y.cur
     let q := c.cue (y.cueOf buf)
     (u = true → y.pol = 2) →
     (y.armed.testBit buf = true → (∀ o ∈ y.outs, o.buf = buf → o.kind = .word) →
       let t := s.served x (fun y => { y with
         armed := setBitN y.armed buf false, abnd := setBitN y.abnd buf false, pc := y.pc + 1,
         cur := if u then y.cur else (y.cur + (if y.pol = 2 then 2 else 1)) % (y.nbuf + 1) })
       exec (.credit x u) s = .next (t.setCore x.core.val ((t.core x.core.val).receive
         ⟨.fill, y.cueOf buf, q.ddl, x.ctx.val, buf, y.abnd.testBit buf || !q.armed, 1⟩))) ∧
     (y.armed.testBit buf = false →
       exec (.credit x u) s = .next (s.setCore x.core.val (c.setCtx x.ctx.val { y with st := .waitArm }))))

/-- GET, GETU, PUT, LDA and REARM issue their requests (08:R193 to R196, R199, R201, R202): the tile at BASE + TOFF, or
its understudy, the buffer CUR or CUR + 1, the draws of a stochastic conversion, and what the request needs to
complete. LDA and REARM make the context wait for their word. RACC sends the tile of its buffer as a contribution to
the engine of its tag's device (08:R204; 10:R230 to R232, R239, R251): the plan's entry decides the device; RECW
writes the conversion record of 20 bytes and 12 zero bytes, and clears it where CLR is 1 (08:R197); XFER asks for a
run of its transfer and waits in WAIT_EXT (08:R205). A request completes at its stream (08:R193, R195 to R198, R202,
R209; 09:R219; 10:R233): a GET's bytes are in its buffer, its record updated and the channels that bound it count it,
a PUT's or RACC's buffer is free of it, a RACC that another device's engine refused has a bus error, an LDA's word is
in its A register, and a REARM's word is the next base, with the list advanced and the program started again, or the
end of the list. -/
def Obligations.StreamRequestResults : Prop :=
  (∀ (s : State) (x : Ctx) (b : Nat) (l : Launch), s.Streams x b l →
     ∀ (o : GetOp) (p : PutOp) (a : Fin 3) (off : W32) (tile : Nat),
     let c := s.core x.core.val
     let y := c.ctx x.ctx.val
     let blk := match o.fmtD with | some f => f.isBlockOnly | none => false
     let draws (conv : Bool) (rnd : Rnd) (n : Nat) (c : Core) : Core :=
       if conv && rnd = .stoch then c.setGen y.gs ((c.gen y.gs).after n) else c
     let count (t : Nat) : Nat := match s.peekFmt b x.core.val x.ctx.val t o.wing with | some f => 128 * f.perRow | none => 0
     let nb := (y.cur + 1) % (y.nbuf + 1)
     (y.outs.length < 16 → (blk = true → o.scl = true) → (blk = false → o.fmtD.isSome = true → o.scl = false) →
       (y.base + o.toff.toNat * 16384) % 2 ^ 50 = tile * 16384 →
       (y.held.testBit y.cur = true →
         exec (.get x o) s = .next (s.asked x b l.num tile o.wing o.noalloc (.get o false y.cur (c.gen y.gs)) .get y.cur
           o.fmtD.isSome (y.pc + 1) (draws o.fmtD.isSome o.rnd (count tile)) id)) ∧
       (y.pol = 2 → y.held.testBit nb = true → ((s.box b).tile tile).und = true →
         let t := ((s.box b).tile tile).utile
         exec (.getu x o) s = .next (s.asked x b l.num t o.wing o.noalloc (.get o true nb (c.gen y.gs)) .getu nb
           o.fmtD.isSome (y.pc + 1) (draws o.fmtD.isSome o.rnd (count t)) id))) ∧
     (y.outs.length < 16 → y.held.testBit y.cur = true →
       (y.base + p.toff.toNat * 16384) % 2 ^ 50 = tile * 16384 →
       let f := p.fmtD.getD p.fmtS
       y.fits 0 (moveEnd p.doff.toNat p.pitch.toNat p.orient p.fmtS.width f.perRow) = true →
       exec (.put x p) s = .next (s.asked x b l.num tile p.wing false
         (.put p y.cur (match p.qa with | some a => Tab.get 0 y.a a.val | none => one32)
           ((y.base / 16384 + (Tab.get 0 y.a p.ca.val).toNat) % 2 ^ 36) (c.gen y.gs)) .put y.cur p.fmtD.isSome (y.pc + 1)
         (draws p.fmtD.isSome p.rnd (128 * f.perRow)) id)) ∧
     (off.toNat % 4 = 0 → y.base % 4 = 0 →
       let t := (y.base + off.toNat) % 2 ^ 50
       exec (.lda x a off) s = .next (s.asked x b l.num (t / 16384) false false (.lda t) .word 0 false (y.pc + 1) id
         (fun y => { y with ldaTo := a.val }))) ∧
     (y.list % 8 = 0 →
       exec (.rearm x) s = .next (s.asked x b l.num (y.list / 16384) false false (.rearm y.list) .word 0 false y.pc id id))) ∧
  (∀ (s : State) (x : Ctx) (b : Nat) (l : Launch), s.Streams x b l →
     ∀ (tag : BitVec 12) (cue : Fin 64) (doff toff : BitVec 15) (clr : Bool) (xid : BitVec 16) (tile : Nat) (e : PlanEntry),
     let c := s.core x.core.val
     let y := c.ctx x.ctx.val
     let A (i : Nat) : W32 := Tab.get 0 y.a i
     (y.held.testBit y.cur = true → y.outs.length < 16 →
       (y.base + toff.toNat * 16384) % 2 ^ 50 = tile * 16384 →
       y.fits (doff.toNat * 64) 16384 = true → l.plan.find? (fun e => e.tag == tag.toNat) = some e →
       e.first ≤ tile → tile < e.first + e.count → (tile - e.first) % e.span = 0 →
       let q : Contrib := ⟨Fin.ofNat 16 b, tag, tile, s.boxIndex b, x.core.val, cue, BitVec.ofNat 64 (s.box b).step,
         BitVec.ofNat 16 (A 1).toNat, A 2, c.stageBytes (y.bufBase y.cur + doff.toNat * 64) 16384⟩
       let t := { s.asked x b l.num tile false false (.racc s.nextFlight) .racc y.cur false (y.pc + 1) id id with
         nextFlight := s.nextFlight + 1 }
       exec (.racc x tag cue doff toff) s = .next
         (if e.ddev = s.boxIndex b then t.setFlight s.nextFlight (some ⟨q, none, s.nextReq, false⟩)
          else (t.setFlight s.nextFlight (some ⟨q, some e.ddev, s.nextReq, false⟩)).send (.contribution e.ddev q))) ∧
     (y.held.testBit y.cur = true → (∀ o ∈ y.outs, o.conv = false) → y.fits (doff.toNat * 64) 32 = true →
       let c' := ({ c with served := x.ctx.val }.stageStore (y.bufBase y.cur + doff.toNat * 64)
         (y.cvr.bytes ++ leBytes 12 0)).noteLoads [(y.bufBase y.cur + doff.toNat * 64, 32)]
       exec (.recw x clr doff) s = .next (s.setCore x.core.val (c'.setCtx x.ctx.val
         { y with st := .run, pc := y.pc + 1, cvr := if clr then Amax.zero else y.cvr }))) ∧
     (((s.box b).xfer xid.toNat).isSome = true →
       exec (.xfer x xid) s = .next ((s.served x (fun y => { y with st := .waitExt, pc := y.pc + 1 })).askRun b xid.toNat
         (.ctx x.core.val x.ctx.val)))) ∧
  (∀ (s : State) (x : Ctx) (id : Nat) (r : Req) (refused : Bool), s.req id = some r → r.core = x.core.val → r.ctx = x.ctx.val →
     s.ownsReq id r = true →
     let c := s.core r.core
     (∀ (o : GetOp) (u : Bool) (buf : Nat) (g : Gen) (c' : Core), r.op = .get o u buf g → r.st = .served →
       c.deliver r.ctx o buf g r.got r.comp = .ok c' →
       exec (.streamRequestComplete x ⟨id, refused⟩) s = .next (((s.setCore r.core c').countServed r.box r.chans).reqDone id r)) ∧
     (∀ (o : PutOp) (buf : Nat) (q : W32) (comp : Nat) (g : Gen), r.op = .put o buf q comp g → r.st = .served →
       exec (.streamRequestComplete x ⟨id, refused⟩) s = .next (s.reqDone id r)) ∧
     (∀ k, r.op = .racc k → r.st = .served →
       exec (.streamRequestComplete x ⟨id, refused⟩) s = .next ((s.setFlight k none).reqDone id r)) ∧
     (∀ k f d, r.op = .racc k → r.st = .waiting → s.flight k = some f → f.dev = some d →
       exec (.streamRequestComplete x ⟨id, false⟩) s = .next ((s.setFlight k none).reqDone id r) ∧
       exec (.streamRequestComplete x ⟨id, true⟩) s
         = .next (((s.setFlight k none).streamFault r.box r.launch r.core r.ctx 1 r.pc).reqDone id r)) ∧
     (∀ a, r.op = .lda a → r.st = .served →
       exec (.streamWordArrive x id) s = .next ((s.setCore r.core (c.updCtx r.ctx (fun y =>
         { y with a := Tab.set 0 y.a y.ldaTo (BitVec.ofNat 32 r.word) }))).reqDone id r)) ∧
     (∀ a, r.op = .rearm a → r.st = .served → (c.ctx r.ctx).st ≠ .fault → r.word < 2 ^ 50 →
       exec (.streamWordArrive x id) s = .next ((s.setCore r.core (c.updCtx r.ctx (fun y =>
         { y with base := r.word, list := (y.list + 8) % 2 ^ 50, pc := 0 }))).reqDone id r)) ∧
     (∀ a, r.op = .rearm a → r.st = .served → (c.ctx r.ctx).st ≠ .fault → 2 ^ 63 ≤ r.word → r.word < 2 ^ 64 →
       exec (.streamWordArrive x id) s = .next ((s.setCore r.core (c.updCtx r.ctx (fun y =>
         { y with st := .done, pc := y.pc + 1 }))).reqDone id r)))

/-- A request at its memory controller (07:R172, R173, R175; 08:R199): a read takes the tile as its place stands and the
line's outcome is good; an ordinary PUT writes the tile. -/
def Obligations.MemoryRequestResults : Prop :=
  ∀ (s : State) (id : Nat) (r : Req), s.req id = some r → r.st = .waiting → s.waitsEarlier id r = false → s.dev.on = true →
    (s.box r.box).frozen = false →
    let rd := s.streamRead r.box r.core r.tile r.wing r.noalloc .good
    (∀ t, (s.box r.box).readMeets r.launch r.tile r.wing = .free → rd.2.1 = some t →
      (∀ a, r.op = .lda a → exec (.memRequest id .good) s
        = .next (rd.1.markReq id (fun r => { r with st := .served, word := leNat (t.data.bytes (a % 16384) 4), uses := rd.2.2 }))) ∧
      (∀ a, r.op = .rearm a → exec (.memRequest id .good) s
        = .next (rd.1.markReq id (fun r => { r with st := .served, word := leNat (t.data.bytes (a % 16384) 8), uses := rd.2.2 }))) ∧
      (∀ o u buf g, r.op = .get o u buf g → (sideNeedsComp t.side = false ∨ (o.fmtD = none ∧ o.scl = false)) →
        exec (.memRequest id .good) s = .next (rd.1.markReq id (fun r => { r with st := .served, got := t, uses := rd.2.2 })))) ∧
    (∀ (o : PutOp) (buf : Nat) (q : W32) (comp : Nat) (g : Gen) (u : State), r.op = .put o buf q comp g → o.wing = false →
      r.others = [] →
      let p := (s.core r.core).putTile r.ctx o buf q comp (s.box r.box).step g
      p.2.1 = [] →
      (s.setCore r.core ((s.core r.core).updCtx r.ctx (fun y => { y with cvr := p.2.2 }))).ordWrite r.box r.tile p.1 = some u →
      exec (.memRequest id .good) s = .next (((u.noteOver r r.tile p.1).markReq id (fun q =>
        { q with uses := q.uses ++ u.useOf r.box r.tile false })).markReq id (fun q => { q with st := .served })))

/-- A whole tile written by an ordinary write reads back, with the generation of its subkeys in its side record (07:R165,
R172; 12:R302, R308). A frame that is taken was free, lies in the pool that was asked for, belongs to the box
afterwards, and no other frame changes its state (07:R167 to R170). -/
def Obligations.TilesAndFrames : Prop :=
  (∀ (s t : State) (b tile : Nat) (d : TileData) (k : Nat × Nat), s.subkeys b tile = some k → s.writeTile b tile d = some t →
     t.readTile b tile = some ⟨d.data, d.side.write 3 (BitVec.ofNat 8 k.2)⟩) ∧
  (∀ (s t : State) (b tier seat f : Nat), tier < 3 → s.takeFrame b tier seat = some (t, f) →
     s.isTaken (frameKey tier f) = false ∧ Tab.get 0 t.taken (frameKey tier f) = b + 1 ∧
     (poolOf tier seat).1 ≤ f ∧ f < (poolOf tier seat).1 + (poolOf tier seat).2 ∧
     (∀ k, k ≠ frameKey tier f → Tab.get 0 t.taken k = Tab.get 0 s.taken k) ∧ t.frames = s.frames)

/-- The walker normalises the entries of the resolved epoch without changing what any read meets: after it no entry of the
box carries the resolved epoch, and every tile reads from the place it read from before (07:R175, R176). -/
def Obligations.EpochWalkKeepsWhatReadsMeet : Prop :=
  ∀ (s : State) (box : Fin 16), ∃ t, exec (.epochWalk box) s = .next t ∧
    (∀ tile, t.readPlace box.val tile = s.readPlace box.val tile) ∧
    ∀ tile, (t.box box.val).wingDone ((t.box box.val).tile tile) = false

/-- Frames, markers and migration (07:R173, R180 to R183): a released frame that no request reads returns to its pool; the
oldest marker reaches the engines, which queue the launch's prefetches that are due; the next tile of a move is
skipped and counted, or marked MIGRATING with a destination frame; a copied tile's entry changes to the destination,
the source frame, and the home that another move leaves, are released and the count of moved tiles grows. -/
def Obligations.MigrationResults : Prop :=
  (∀ (s : State) (tier : Fin 3) (frame : Nat), s.releasing.contains (frameKey tier.val frame) = true →
    s.inUse tier.val frame = false → ∃ t, exec (.frameRelease tier frame) s = .next t ∧
      t.isTaken (frameKey tier.val frame) = false ∧ t.releasing.contains (frameKey tier.val frame) = false ∧
      (∀ k, k ≠ frameKey tier.val frame → Tab.get 0 t.taken k = Tab.get 0 s.taken k ∧ t.frame k = s.frame k)) ∧
  (∀ (s : State) (box : Fin 16) (num k : Nat) (ms : List (Nat × Nat)) (l : Launch),
    (s.box box.val).markers = (num, k) :: ms → (s.box box.val).launch num = some l → (∀ m, l.marker = some m → m < k) →
    exec (.stageMarker box) s = .next (((s.updBox box.val (fun x => { x with markers := ms })).updLaunch box.val num
      (fun l => { l with marker := some k })).queueDue box.val num k)) ∧
  (∀ (s : State) (seat : Fin 16) (m : Move) (ms : List Move), (s.seat seat.val).moving = none →
    (s.seat seat.val).moves = m :: ms → (s.box m.box).st = 3 → (s.box m.box).frozen = false → s.dev.on = true →
    m.unpin = false → m.homing = false →
    let rest := if m.count ≤ 1 then ms else { m with first := m.first + 1, count := m.count - 1 } :: ms
    let s1 := (s.updSeat seat.val (fun x => { x with moves := rest })).queueHomes m.box
    (s1.skips m m.first = true → exec (.migTileStart seat) s
      = .next ((s1.updSeat seat.val (fun x => { x with migSkip := min (x.migSkip + 1) (2 ^ 32 - 1) })).movesDone m.box)) ∧
    (∀ (s2 : State) (f : Nat), s1.skips m m.first = false → s1.takeFrame m.box m.dtier m.dseat = some (s2, f) →
      exec (.migTileStart seat) s = .next ((s2.updTile m.box m.first (fun t => { t with st := tsMigrating })).updSeat seat.val
        (fun x => { x with moving := some ⟨{ m with count := 1 }, m.first, m.dtier, f⟩ })))) ∧
  (∀ (s : State) (seat : Fin 16) (m : Moving) (d : TileData), (s.seat seat.val).moving = some m → s.dev.on = true →
    let b := m.move.box
    let t := (s.box b).tile m.tile
    t.st = tsMigrating → (m.move.homing = true → t.tier = 3) → (m.dtier = 2 → s.dev.flashRo = false) →
    let s1 := s.updSeat seat.val (fun x => { x with moving := none })
    s1.checkedRead b m.tile (s1.placeAt b t.tier t.frame) .good 3 2 = (s1, some d) →
    let s2 := ((s1.putFrame b m.tile m.dtier m.dframe d).updTile b m.tile (fun t => { t with
        st := tsResident, tier := m.dtier, frame := m.dframe, pin := t.pin || m.move.pinAfter, home := none })).release t.tier t.frame
    let s3 := match m.move.homing, t.home with | false, some h => s2.release h.1 h.2 | _, _ => s2
    exec (.migTileComplete seat .good) s
      = .next ((s3.updSeat seat.val (fun x => { x with migDone := min (x.migDone + 1) (2 ^ 32 - 1) })).movesDone b))

/-- Contributions and tag completions (10:R230, R233, R245; 08:R204; 06:R154): what an engine accepts, returns for retry
or refuses completes, waits or fails its RACC; a returned one is sent again; a completed tag raises its cue with the
deadline that the core's cue table holds, or that the image of the launch preempted there holds. An addition to a
target tile that is in the staging store, or that the tag zeroes first, is accepted: the tile's staged value is the
old one combined with the contribution (10:R229, R236), and its request is served. Contributions before the engine's
step wait, later ones are refused (10:R233): a contribution of a later step than the tag's is returned for retry, one
of an earlier step is refused with cause 2, one of another grid than the plan's with cause 1, one to a tile that is no
target of the tag, or that another engine holds, with cause 4, and one to a tag that is complete or failed with cause
3, all without a change of the state. -/
def Obligations.ContributionResults : Prop :=
  ((∀ (s : State) (k : Nat) (f : Flight), s.flight k = some f → f.dev = none → f.retry = false → s.dev.on = true →
     (∀ r, s.req f.req = some r → s.waitsEarlier f.req r = false) →
     let seat := (s.engineOf f.c.box.val f.c.tile).1
     let r := s.contribute f.c .good
     let t := r.1.noteVerdict seat r.2
     exec (.contributionArrive (.own k) .good) s = .next (match r.2 with
       | .accept => (t.setFlight k none).markReq f.req
           (fun q => { q with st := .served, uses := t.useOf f.c.box.val f.c.tile false })
       | .refuse _ => (t.setFlight k none).markReq f.req (fun q => { q with st := .failed })
       | .retry _ => t.setFlight k (some { f with retry := true }))) ∧
   (∀ (s : State) (c : Contrib), s.dev.on = true → (s.box c.box.val).st = 3 → (s.box c.box.val).frozen = false →
     let r := s.contribute c .good
     let t := r.1.noteVerdict (s.engineOf c.box.val c.tile).1 r.2
     exec (.contributionArrive (.fabric c) .good) s = .next (match r.2 with
       | .accept => t | .refuse _ => t.send (.refuseBack c) | .retry _ => t.send (.retryBack c))) ∧
   (∀ (s : State) (k : Nat) (f : Flight), s.flight k = some f → exec (.contributionRetry k) s = .next (match f.dev with
       | some d => s.send (.contribution d f.c)
       | none => if f.retry then s.setFlight k (some { f with retry := false }) else s)) ∧
   (∀ (s : State) (core : Fin 128) (cue : Fin 64) (tag : BitVec 12) (b : Nat), s.boxOfCore core.val = some b →
     (∀ l ∈ (s.box b).launches, Tab.has l.saved core.val = false) →
     let c := s.core core.val
     exec (.tagCompletion core ⟨cue, tag⟩) s = .next (s.setCore core.val
       (c.receive ⟨.other, cue.val, (c.cue cue.val).ddl, 0, 0, !(c.cue cue.val).armed, 1⟩))) ∧
   (∀ (s : State) (core : Fin 128) (cue : Fin 64) (tag : BitVec 12) (b : Nat) (l : Launch), s.boxOfCore core.val = some b →
     (s.box b).runsOn core.val = none → (s.box b).launches = [l] → Tab.has l.saved core.val = true →
     l.awaits tag.toNat = true →
     let c := Tab.get {} l.saved core.val
     exec (.tagCompletion core ⟨cue, tag⟩) s = .next (s.updLaunch b l.num (fun l => { l with
       saved := Tab.upd {} l.saved core.val (fun c' => c'.receive
         ⟨.other, cue.val, (c.cue cue.val).ddl, 0, 0, !(c.cue cue.val).armed, 1⟩) }))) ∧
   (∀ (s : State) (k : Nat) (f : Flight) (e : PlanEntry) (q : Req) (seat : Nat), s.flight k = some f → f.dev = none →
     f.retry = false → s.dev.on = true → s.req f.req = some q → s.waitsEarlier f.req q = false →
     let c := f.c
     let b := c.box.val
     let t := (s.box b).tag c.tag.toNat
     let tt := t.tile c.tile
     let first := e.zero && decide (tt.count = 0)
     t.st = 1 → t.entry = some e → t.s = c.step.toNat → e.op = opAddInt → t.covers c.tile = true →
     s.engineOf b c.tile = (seat, true) → (s.box b).scene.active = false → (e.target = .bi32 → signedOf 16 c.grid.toNat = t.grid) →
     tt.complete = false → tt.count + 1 < e.required → (s.writePlace b c.tile).isSome = true →
     ((s.box b).tile c.tile).st ≠ tsMigrating → (s.seat seat).staged.length < 64 →
     (s.stagedAt seat b c.tag.toNat c.tile).isSome = true ∨ first = true →
     let old : Option Mem := if first then none else (s.stagedAt seat b c.tag.toNat c.tile).map TileData.data
     ∃ u, exec (.contributionArrive (.own k) .good) s = .next u ∧ u.flight k = none ∧
       (u.req f.req).map Req.st = some .served ∧ u.frames = s.frames ∧
       (((u.box b).tag c.tag.toNat).tile c.tile).count = tt.count + 1 ∧
       (u.stagedAt seat b c.tag.toNat c.tile).map TileData.data = some (combine e c.mag.toNat 0 old c.data).1)) ∧
  (∀ (s : State) (c : Contrib),
     let t := (s.box c.box.val).tag c.tag.toNat
     (t.st = 0 → c.step.toNat < (s.box c.box.val).step → s.contribute c .good = (s, .refuse 2)) ∧
     (t.st = 0 → (s.box c.box.val).step ≤ c.step.toNat → s.contribute c .good = (s, .retry 0)) ∧
     (t.st ≠ 0 → t.s < c.step.toNat → s.contribute c .good = (s, .retry 0)) ∧
     (t.st ≠ 0 → c.step.toNat < t.s → s.contribute c .good = (s, .refuse 2)) ∧
     (t.st ≠ 0 → t.st ≠ 1 → t.s = c.step.toNat → s.contribute c .good = (s, .refuse 3)) ∧
     ∀ (e : PlanEntry) (seat : Nat), t.st = 1 → t.s = c.step.toNat → t.entry = some e →
       (∀ i < e.span, s.engineOf c.box.val (c.tile + i) = (seat, true)) → (s.box c.box.val).scene.active = false →
       ((∃ i < e.span, t.covers (c.tile + i) = false) → s.contribute c .good = (s, .refuse 4)) ∧
       ((∀ i < e.span, t.covers (c.tile + i) = true) → e.target = .bi32 → signedOf 16 c.grid.toNat ≠ t.grid →
         s.contribute c .good = (s, .refuse 1)))

/-- The integer accumulation of BI32 and INT32 targets, element by element (10:R236, R237): INT32 elements add modulo
2^32; a BI32 contribution is limited to ±(2^(31 − g) − 1) before it is added, and the engine counts what it limited. -/
def Obligations.IntegerAccumulation : Prop :=
  ∀ (e : PlanEntry) (mag part : Nat) (old : Mem) (data : List Byte) (i : Nat), e.op = opAddInt → i < 4096 →
    let x := leNat (sliceBytes data (4 * i) 4)
    let o := leNat (old.bytes (4 * i) 4)
    let r := leNat ((combine e mag part (some old) data).1.bytes (4 * i) 4)
    (e.target = .int32 → r = (o + x) % 2 ^ 32) ∧
    (e.target = .bi32 → e.guardBits ≤ 30 →
      r = lowBits 32 (signedOf 32 o + max (-((2 ^ (31 - e.guardBits) : Nat) - 1 : Int)) (min ((2 ^ (31 - e.guardBits) : Nat) - 1 : Int) (signedOf 32 x)))) ∧
    (e.target = .bi32 → ((combine e mag part (some old) data).2 = 0 ↔
      ∀ j < 4096, (signedOf 32 (leNat (sliceBytes data (4 * j) 4))).natAbs ≤ 2 ^ (31 - e.guardBits) - 1))

/-- A queued launch that may start does (06:R153 to R155; 08:R189): each of its cores begins at bundle 0 with its script
and stream contexts, every other core is as it was, a core that held a lower launch has been set aside with it, and
the launch runs. The ledger entries that its plan names here read well. -/
def Obligations.LaunchStartsItsCores : Prop :=
  ∀ (s : State) (box : Fin 16) (num : W32) (l : Launch) (sc : ScriptImg), (s.box box.val).launch num.toNat = some l →
    Tab.get none (s.box box.val).scripts l.slot = some sc → s.mayStart box.val l = true →
    (∀ e ∈ l.plan, e.ddev = s.boxIndex box.val → e.ledger ≠ 0 → ∀ t ∈ partTiles [(e.ledger, 96)], s.lineWell box.val t) →
    ∃ t, exec (.launchStart box num) s = .next t ∧
      ((t.box box.val).launch num.toNat).map Launch.st = some LaunchSt.running ∧
      (∀ (j k : Nat) (img : CoreImg), ((s.box box.val).launchCores l)[j]? = some k → sc.cores[j]? = some img →
        t.core k = (s.core k).launched img) ∧
      (∀ k, k ∉ (s.box box.val).launchCores l → t.core k = s.core k) ∧
      ∀ (k : Nat) (m : Launch), k ∈ (s.box box.val).launchCores l → (s.box box.val).runsOn k = some m → m.num ≠ num.toNat →
        ∃ m', (t.box box.val).launch m.num = some m' ∧ Tab.get {} m'.saved k = s.core k

/-- The seal (11:R262, R267): once the open epoch's launches and tags are done, its walk over, READY goes to the lead of a
box without a mirror step; a failed tag makes the seal fail; on a mirror step the open wings go to the partner, and
READY follows its acknowledgement. The lead (11:R268, R286): READY and IMPORT_FAILURE of a device of the group are
noted, and the decision follows once every device has answered; at the deadline the lead discards with cause 3; a
heartbeat answers a device and counts it as present. A device whose heartbeats stop is counted as lost, and nothing
else changes on a device whose boxes are not bound to a group (11:R270). A mirrored wing of the open epoch that has a
wing frame already is stored in it and acknowledged, and one of another epoch than the open and the resolved one
changes nothing (11:R267, R274); the base mirror's end makes PARTNER valid and ends its operation (R275). -/
def Obligations.CurtainProtocolResults : Prop :=
  (∀ (s : State) (box : Fin 16), s.Up box.val → (s.box box.val).frozen = false → s.EpochDone box.val →
     (s.box box.val).cst = 1 →
     let b := box.val
     let x := s.box b
     let p := match x.curtain with | some c => c.p | none => 0
     (x.tagFailed = true → exec (.sealProceed box) s = .next (s.sealFails b 1)) ∧
     (x.tagFailed = false → ∀ t, x.wingRec = none → s.writeRecWing b = some t →
       (p = 0 ∨ (x.step + 1) % p ≠ 0 ∨ x.partner = 3 ∨ x.partner = 0 →
         exec (.sealProceed box) s
           = .next ((t.updBox b (fun y => { y with cst := 2 })).send (.ready b (t.box b).step (t.box b).openE))) ∧
       (0 < p → (x.step + 1) % p = 0 → x.partner = 2 → x.mirrorLeft = 0 → t.mirrorWings b ≠ [] →
         t.meetPlaces b (t.wingPlaces b) 1 5 = (t, true) →
         let ws := t.mirrorWings b
         exec (.sealProceed box) s = .next ((((List.range ws.length).zip ws).foldl (fun (s : State) (w : Nat × Nat × TileData) =>
           s.send (.mirrorTile b x.openE w.2.1 (decide (w.1 + 1 = ws.length)) w.2.2)) t).updBox b
             (fun y => { y with mirrorLeft := ws.length })))) ∧
     (0 < x.mirrorLeft → exec (.mirrorAck box) s
       = .next ((s.updBox b (fun y => { y with mirrorLeft := 0, cst := 2 })).send (.ready b x.step x.openE)))) ∧
  (∀ (s : State) (box : Fin 16) (dev : Fin 64), s.Up box.val → s.isLead box.val = true → dev.val < s.boxGroup box.val →
     let b := box.val
     let x := s.box b
     let step := BitVec.ofNat 64 x.step
     let epoch := BitVec.ofNat 32 x.openE
     let readied := dev.val :: x.lead.ready.filter (· ≠ dev.val)
     let t := s.updBox b (fun y => { y with lead := { y.lead with ready := readied } })
     x.step < 2 ^ 64 → x.openE < 2 ^ 32 →
     (x.lead.decided = false → x.cst ≠ 5 → (∀ d < s.boxGroup b, d ∈ readied) →
       exec (.ready box dev step epoch) s = .next ((List.range (s.boxGroup b)).foldl (fun (s : State) d =>
           s.send (.closeTo b d x.step x.openE)) (t.updBox b (fun y => { y with lead := { y.lead with decided := true } })))) ∧
     (x.cst ≠ 5 → (∃ d, d < s.boxGroup b ∧ d ∉ readied) → exec (.ready box dev step epoch) s = .next t) ∧
     (x.cst = 5 → exec (.importFailureReport box dev step epoch) s = .next ((s.updBox b (fun y => { y with lead := { y.lead with
         failed := dev.val :: y.lead.failed.filter (· ≠ dev.val) } })).leadDecides b)) ∧
     (x.lead.sealAt = true → x.lead.decided = false → exec (.curtainTimeout box epoch) s
       = .next ((List.range (s.boxGroup b)).foldl (fun (s : State) d => s.send (.discardTo b d x.openE 3 false))
           (s.updBox b (fun y => { y with lead := { y.lead with decided := true } })))) ∧
     exec (.heartbeat ⟨dev, []⟩) s
       = .next ((s.updDev (fun d => { d with lostPeers := d.lostPeers.filter (· ≠ dev.val) })).send .heartbeat)) ∧
  (∀ (s : State) (dev : Fin 64), s.dev.on = true → (∀ b, b < 16 → (s.box b).binding = none) →
     exec (.heartbeatLost dev) s = .next (s.updDev (fun d =>
       { d with lostPeers := if dev.val ∈ d.lostPeers then d.lostPeers else dev.val :: d.lostPeers }))) ∧
  (∀ (s : State) (box : Fin 16) (tile : Nat) (last : Bool) (payload side : List Byte) (c : CurtainCfg), s.Up box.val →
     let b := box.val
     let x := s.box b
     let k := c.mbase * 262144 + tile
     x.frozen = false → x.curtain = some c → c.p ≠ 0 → (s.subkeys b k).isSome = true → x.openE < 2 ^ 32 →
     (x.wingDone (x.tile k) = false → (x.tile k).st ≠ 0 → x.wingOpen (x.tile k) = true →
       (x.tile k).wlost = false → ((x.tile k).wtier = 2 → s.dev.flashRo = false) →
       exec (.mirrorWingReceive box (BitVec.ofNat 32 x.openE) ⟨tile, last⟩ payload side) s = .next
         ((s.putFrame b k (x.tile k).wtier (x.tile k).wframe
           ⟨Tab.block 0 0 (payload.take 16384), Tab.block 0 0 (side.take 64)⟩).send (.mirrorAck b x.openE))) ∧
     (∀ e : W32, e.toNat ≠ x.openE → e.toNat ≠ x.resolvedE → exec (.mirrorWingReceive box e ⟨tile, last⟩ payload side) s = .next s) ∧
     (∀ o, x.partner = 1 → x.baseOp = some o → (∀ p ∈ x.protectedTiles, s.lineWell b p.2) → exec (.baseMirrorComplete box) s
       = .next ((s.updBox b (fun y => { y with partner := 2, baseOp := none })).endOp b o stOk)))

/-- CLOSE on a device that is READY and has not lost its lead, with no tag of a sealed launch open (11:R267, R269, R270):
the open epoch resolves closed and the next opens, the step counter advances by 1, the step record written at the seal
is the committed one, the curtain is OPEN, LAST is closed, no launch of the epoch stays sealed, and no tile changes. A
discard of an epoch in which no launch runs and no tag of a sealed launch is open is applied at once (11:R269): the
epoch resolves discarded, the step counter and the step record stay, LAST is discarded with the cause, and the curtain
is OPEN again unless it is LOST, RESTORING or IMPORTED. -/
def Obligations.CloseAndDiscardResults : Prop :=
  (∀ (s : State) (box : Fin 16), s.Up box.val → (s.box box.val).cst = 2 → (s.box box.val).outcome = none →
     (s.box box.val).openE < 2 ^ 32 → (s.box box.val).step < 2 ^ 64 → (s.box box.val).orphan = false →
     (∀ p ∈ (s.box box.val).tags, ∀ l ∈ (s.box box.val).launches, l.st = LaunchSt.sealed → l.num = p.2.launch → p.2.st ≠ 1) →
     let x := s.box box.val
     ∃ t, exec (.close box (BitVec.ofNat 64 x.step) (BitVec.ofNat 32 x.openE)) s = .next t ∧
       let y := t.box box.val
       (y.openE = (x.openE + 1) % 2 ^ 32 ∧ y.resolvedE = x.openE ∧ y.closed = true ∧ y.step = (x.step + 1) % 2 ^ 64) ∧
       (y.cst = 0 ∧ y.last = 1 ∧ y.stepRec = x.wingRec.getD x.stepRec ∧ y.wingRec = none) ∧
       (∀ l ∈ y.launches, l.epoch = x.openE → l.st ≠ LaunchSt.sealed) ∧
       y.tiles = x.tiles ∧ y.regions = x.regions ∧ t.frames = s.frames ∧ ∀ c, c ≠ box.val → t.box c = s.box c) ∧
  (∀ (s : State) (box : Fin 16) (cause : Byte), s.Up box.val → (s.box box.val).outcome = none →
     (s.box box.val).openE < 2 ^ 32 → cause.toNat ≠ 7 →
     (∀ p ∈ (s.box box.val).tags, ∀ l ∈ (s.box box.val).launches, l.st = LaunchSt.sealed → l.num = p.2.launch → p.2.st ≠ 1) →
     (∀ l ∈ (s.box box.val).launches, l.epoch = (s.box box.val).openE → l.st ≠ LaunchSt.running ∧ l.st ≠ LaunchSt.queued) →
     let x := s.box box.val
     ∃ t, exec (.curtainDiscard box (BitVec.ofNat 32 x.openE) cause false) s = .next t ∧
       let y := t.box box.val
       (y.openE = (x.openE + 1) % 2 ^ 32 ∧ y.resolvedE = x.openE ∧ y.closed = false ∧ y.step = x.step) ∧
       (y.stepRec = x.stepRec ∧ y.wingRec = none ∧ y.last = 2 ∧ y.cause = cause.toNat) ∧
       y.cst = (if x.cst ≤ 2 then 0 else x.cst) ∧ y.tiles = x.tiles ∧ t.frames = s.frames ∧
       ∀ c, c ≠ box.val → t.box c = s.box c)

/-- Local and shared-store takes (11:R276, R277; 12:R322): the record of the committed state is sealed under SKEY, counts
one use of it, and waits in flash; once complete its step goes to the lead, which commits it when every device has
reported it; a commit keeps the record and releases the one before; on a multiple of S the shared store's take is due.
A device commits a take exactly when every device of the group has reported its step, and forgets the reports of a
step that it commits (11:R276, R277). -/
def Obligations.TakeResults : Prop :=
  (∀ (s : State) (box : Fin 16) (dev : Fin 64) (step : W64) (c : CurtainCfg), s.Up box.val → (s.box box.val).curtain = some c →
     (s.box box.val).cst ≠ 5 →
     let b := box.val
     let x := s.box b
     let u := (s.dropRecords b (fun r => r.committed)).updBox b (fun y => { y with takeDue := none })
     let k := s.slot c.skey
     let held (fs : List (Nat × Nat × Nat)) : Prop := ∀ f ∈ fs, f.2.1 < 4 →
       ∃ d, (s.dropRecords b (fun r => r.committed)).heldRead b f.1 (.at f.2.1 f.2.2) .good 1 5
         = (s.dropRecords b (fun r => r.committed), some d)
     (∀ (n e : Nat) (fs : List (Nat × Nat × Nat)), x.takeDue = some (n, e, fs) → held fs → k.seals < 2 ^ 20 →
       (∀ f ∈ fs, ((s.dropRecords b (fun r => r.committed)).takeRead b f).isSome = true) →
       let r : SceneRec := ⟨e, (Config.random56 s.fresh).toNat, n, c.runs, s.boxIndex b, s.boxGroup b, k.key,
         fs.filterMap ((s.dropRecords b (fun r => r.committed)).takeRead b)⟩
       u.ownedSlot b c.skey 2 = true → r.frames ≤ u.quotaLeft b → s.dev.flashRo = false →
       exec (.localTake box) s = .next (({ u with fresh := u.fresh + 1 }.setSlot c.skey { k with seals := k.seals + 1 }).updDev
         (fun d => { d with retained := d.retained ++ [(⟨r, false, false, some b⟩ : LocalRec)] }))) ∧
     (∀ n e fs, x.takeDue = some (n, e, fs) → held fs → 2 ^ 20 ≤ k.seals →
       exec (.localTake box) s = .next (u.updBox b (fun y => { y with takeReject := true }))) ∧
     (∀ r, s.dev.retained.find? (fun r => r.box == some b && !r.complete) = some r →
       exec (.localTakeComplete box) s = .next ((s.updDev (fun d => { d with
         retained := d.retained.map (fun q => if q = r then { q with complete := true } else q) })).send
           (.localTaken b r.rec0.step))) ∧
     (s.isLead b = true → dev.val < s.boxGroup b →
       (let r := takeReports x.lead.localReports dev.val step.toNat (s.boxGroup b)
        let t := s.updBox b (fun y => { y with lead := { y.lead with localReports := r.2 } })
        exec (.localTakeReport box dev step) s = .next (if r.1 then
          (List.range (s.boxGroup b)).foldl (fun (s : State) d => s.send (.localCommitTo b d step.toNat)) t else t)) ∧
       (let r := takeReports x.lead.storeReports dev.val step.toNat (s.boxGroup b)
        let t := s.updBox b (fun y => { y with lead := { y.lead with storeReports := r.2 } })
        exec (.storeTakeReport box dev step) s = .next (if r.1 then
          (List.range (s.boxGroup b)).foldl (fun (s : State) d => s.send (.storeCommitTo b d step.toNat)) t else t))) ∧
     (let mine (r : LocalRec) : Bool := r.rec0.step == step.toNat && r.complete
      s.dev.retained.any (fun r => r.box == some b && mine r && !r.committed) = true →
       exec (.localCommit box step) s = .next ((s.updDev (fun d => { d with retained := (d.retained.map (fun r =>
           if r.box = some b && mine r then { r with committed := true } else r)).filter (fun r =>
             decide (r.box ≠ some b) || (mine r || !r.committed)) })).updBox b (fun y => { y with
         localStep := some step.toNat, storeDue := if c.s ≠ 0 ∧ step.toNat % c.s = 0 then some step.toNat else y.storeDue }))) ∧
     (∀ n, x.storeDue = some n → x.members ≤ 1 → exec (.storeTake box) s
       = .next ((s.updBox b (fun y => { y with storeDue := none })).askRun b c.xstore (.store n))) ∧
     (x.storeStep ≠ some step.toNat → exec (.storeCommit box step) s
       = .next (s.updBox b (fun y => { y with storeStep := some step.toNat, storeHalf := !y.storeHalf })))) ∧
  (∀ (rs : List (Nat × Nat)) (dev step group : Nat),
     ((takeReports rs dev step group).1 = true ↔ ∀ d < group, d = dev ∨ (d, step) ∈ rs) ∧
     ((takeReports rs dev step group).1 = true → ∀ d, (d, step) ∉ (takeReports rs dev step group).2) ∧
     ((takeReports rs dev step group).1 = false → (dev, step) ∈ (takeReports rs dev step group).2))

/-- A restore from the partner writes the next tile that arrives and counts it, and fails with INTEGRITY_FAIL on bytes of
another length or a line that cannot be corrected (11:R282). With every tile written and the step record's step the
one asked for, the restore completes: the counters realign, the step and epochs are the record's, the curtain is OPEN,
and the partner hears of it (R275, R282, R283). -/
def Obligations.RestoreResults : Prop :=
  ∀ (s : State) (box : Fin 16) (r : Restore) (c : CurtainCfg), s.Up box.val → (s.box box.val).cst = 3 →
    (s.box box.val).restore = some r → (s.box box.val).curtain = some c →
    let b := box.val
    let x := s.box b
    (∀ (tile j : Nat) (rest : List (Nat × Nat)) (bytes : List Byte) (t : State), r.src = 0 → r.todo = (tile, j) :: rest →
      bytes.length = 16448 → (x.tile tile).st = tsRestoring →
      (s.updBox b (fun y => { y with restore := some { r with todo := rest } })).restoreTile b tile (TileData.ofBytes bytes) = some t →
      exec (.restoreTileWrite box bytes .good) s = .next ((t.updBox b (fun y => { y with
        restore := y.restore.map (fun q => { q with written := q.written + 1 }) })).opProgress b r.opid (r.written + 1))) ∧
    (∀ (tile j : Nat) (rest : List (Nat × Nat)) (bytes : List Byte), r.src = 0 → r.todo = (tile, j) :: rest →
      bytes.length ≠ 16448 → exec (.restoreTileWrite box bytes .good) s = .next (s.failRestore b stIntegrity)) ∧
    (∀ bytes n, exec (.restoreTileWrite box bytes (.uncorrectable n)) s = .next (s.failRestore b stIntegrity)) ∧
    (∀ q, x.frozen = false → (∀ i < 5, s.lineWell b (c.steprec + i)) → r.todo = [] → s.liveRec b = some q → q.step ≠ r.step →
      exec (.restoreComplete box) s = .next (s.failRestore b stBadParam)) ∧
    (∀ q, x.frozen = false → (∀ i < 5, s.lineWell b (c.steprec + i)) → r.todo = [] → r.src = 0 → r.dpos = false → s.liveRec b = some q → q.step = r.step → realign q x.coreList.length = (q, 0, 0) →
      (∀ m ∈ x.runs, m.who ≠ .restore) →
      exec (.restoreComplete box) s = .next (((((s.updBox b (fun y => { y with
        step := q.step, resolvedE := q.epoch, closed := true, openE := (q.epoch + 1) % 2 ^ 32, cst := 0, restore := none,
        history := (q.epoch, true) :: y.history, partner := if y.partner = 1 then 2 else y.partner,
        stepRec := q })).loadGens b q).opResult b r.opid 0).endOp b r.opid stOk).send (.restored b)))

/-- Scene changes and the rekey walk (09:R224 to R226; 12:R307, R309): the next layer's copy begins when every old launch
has passed it; a layer whose records have all arrived is replaced; a marked region in which no tile is left to walk is
walked complete, and a tile that migrates makes the walker wait. The walk of one tile of a marked region leaves the
tile's frame under the current subkeys and advances CURSOR past it (12:R309). -/
def Obligations.SceneAndRekeyResults : Prop :=
  (∀ (s : State) (box : Fin 16) (tile : Nat) (line : LineOutcome) (y : Layer), s.Up box.val → (s.box box.val).frozen = false →
     let b := box.val
     let x := s.box b
     (x.scene.layer = some y →
       (x.scene.st = 1 → x.scene.srcKind = 0 → (∀ n ∈ x.scene.old, x.passedLayer n y = true) →
         exec (.sceneLayerCopy box) s = .next (s.updBox b (fun z => { z with scene := { z.scene with st := 2, written := 0 } }))) ∧
       (x.scene.st = 1 → (∃ n ∈ x.scene.old, x.passedLayer n y = false) → exec (.sceneLayerCopy box) s = .next s) ∧
       (x.scene.st = 2 → x.scene.srcKind ≠ 0 → y.count ≤ x.scene.written →
         exec (.sceneLayerDone box ⟨tile, line⟩) s = .next ((s.layerReplaced b).startRuns b x.runs.length)) ∧
       (x.scene.st = 2 → x.scene.srcKind = 2 → (∀ l ∈ x.loading, l.kind ≠ 2) →
         exec (.modelRecordFetch box) s = .next (s.sceneRecord b (s.slot x.scene.keyslot).key
           (match Tab.get none s.dev.store x.scene.source with
             | some q => sliceBytes q.bytes (0x40 + 16464 * (y.src + x.scene.written)) 16464
             | none => [])))) ∧
     (∀ n r, x.rekey.active = true → x.nextMarked = some (n, r) →
       (x.nextWalked n r = none → exec (.rekeyWalkTile box line) s
         = .next ((s.updRegion b n (fun r => { r with rot := false })).rekeyDone b)) ∧
       (∀ t, x.nextWalked n r = some t → (x.tile t).st = tsMigrating → exec (.rekeyWalkTile box line) s = .next s))) ∧
  (∀ (s : State) (box : Fin 16) (n t : Nat) (r : Region) (d : TileData), s.Up box.val → (s.box box.val).frozen = false →
     let b := box.val
     let x := s.box b
     let f := ((x.tile t).tier, (x.tile t).frame)
     let k := s.slot r.tumbler
     x.rekey.active = true → x.nextMarked = some (n, r) → x.region n = some r → x.nextWalked n r = some t → (x.tile t).st = tsResident →
     x.walkFrames t = [f] → f.1 < 3 → (f.1 = 2 → s.dev.flashRo = false) → s.frameOk b f.1 f.2 = true → (s.frame (frameKey f.1 f.2)).kid ≠ k.kid →
     s.checkedRead b t (.at f.1 f.2) .good 4 3 = (s, some d) →
     ∃ u, exec (.rekeyWalkTile box .good) s = .next u ∧
       u.frames = (s.setFrame (frameKey f.1 f.2) ⟨k.kid, d.data, d.side.write 3 (BitVec.ofNat 8 k.gen), .good⟩).frames ∧
       ∃ r', (u.box b).region n = some r' ∧ r'.cursor = t - n * 262144 + 1)

/-- Transfers (13:R340, R344; 09:R212): the next record of an inbound run is written as an ordinary tile and the next one
asked for; a record that fails its check ends the run with INTEGRITY_FAIL; the remote's last acknowledgement ends an
outbound run; a request is sent again up to 7 times, counted afresh from the last record that came, and the 8th
timeout ends the run with HW_FAULT; a record that congestion has marked has a notification sent. -/
def Obligations.TransferResults : Prop :=
  ∀ (s : State) (box : Fin 16) (xid : BitVec 16) (r : Run) (q : Xfer) (o : Nat) (bytes : List Byte) (marked : Bool), s.dev.on = true →
    (s.box box.val).runOf xid.toNat = some r → (s.box box.val).xfer xid.toNat = some q → r.who = .op o →
    let b := box.val
    let key := (s.slot q.slot).key
    let u := s.responded b xid.toNat marked
    (marked = true → u.out = s.out ++ [.cnp q.port b xid.toNat]) ∧
    (q.dir = 1 → s.ownedSlot b q.slot 2 = true → r.hdr ≠ [] →
      (openRecord key r.hdr 0x30 r.next bytes = none →
        exec (.xferRecordArrive box xid ⟨bytes, marked⟩) s = .next (u.endRun b { r with retries := 0 } stIntegrity)) ∧
      (∀ d t, openRecord key r.hdr 0x30 r.next bytes = some d → u.ordWrite b (q.first + r.next) d = some t →
        r.next + 1 < q.tiles →
        exec (.xferRecordArrive box xid ⟨bytes, marked⟩) s = .next
          (((t.updRun b xid.toNat (fun r => { r with next := r.next + 1 })).opProgress b o (r.next + 1)).send
            (.rdmaRead b xid.toNat (r.next + 1))))) ∧
    (q.dir = 2 → (∀ p ∈ (s.box b).runs, p.started = true) → exec (.xferWriteComplete box xid) s = .next ((s.opProgress b o q.tiles).endRun b r stOk)) ∧
    (r.retries < 7 → exec (.roceRetryTimeout box xid) s
      = .next (s.updRun b xid.toNat (fun r => { r with retries := r.retries + 1 }))) ∧
    (7 ≤ r.retries → exec (.roceRetryTimeout box xid) s = .next (s.endRun b r stHwFault))

/-- A box becomes SEATED with a new encapsulation key, and its opening ends OK (12:R291). A close destroys every key that
the box owns, cancels its walk, loads, runs and restore, and stops its launches (12:R293); when it completes the box
is FREE: its frames and seats are released, the stage memory, accumulators, registers, stores, planes and streams of
its cores are cleared, its session and records are gone, no key slot is its own, and the BOX_CLOSE ends OK. -/
def Obligations.BoxSeatedAndClosed : Prop :=
  ∀ (s : State) (box : Fin 16), s.dev.on = true →
    let b := box.val
    ((s.box b).st = 1 → exec (.boxSeated box) s = .next (((s.updDev (fun d => { d with kids := d.kids + 1 })).updBox b (fun x =>
      { x with st := 2, kem := some (s.dev.kids + 1) })).endOp mgmt (s.box b).openOp stOk)) ∧
    (∀ op, let t := s.beginClose b op
      (t.box b).st = 4 ∧ (t.box b).closeOp = op ∧ (∀ p ∈ t.ring, p.2.owner = b → p.2.st = 0) ∧ (t.box b).tags = [] ∧
      (t.box b).loading = [] ∧ (t.box b).runs = [] ∧ (t.box b).restore = none ∧ (t.box b).rekey.active = false) ∧
    ((s.box b).st = 4 → ∃ t, exec (.boxCloseComplete box) s
        = .next (match (s.box b).closeOp with | some o => t.endOp mgmt o stOk | none => t) ∧
      (∀ k ∈ (s.box b).coreList, let c := t.core k
        c.stage = [] ∧ c.acc = [] ∧ c.planes = [] ∧ c.s = [] ∧ c.v = [] ∧ c.m = [] ∧ c.vlen = 0 ∧ c.gs = [] ∧ c.script = [] ∧
        c.descs = [] ∧ c.stream = [] ∧ c.ctxs = [] ∧ c.cues = [] ∧ c.recs = [] ∧ c.flight = [] ∧ c.toks = []) ∧
      (∀ k, k ∉ (s.box b).coreList → t.core k = s.core k) ∧ t.ring = s.ring ∧
      t.box b = {} ∧ t.session b = {} ∧ (∀ p ∈ t.taken, p.2 ≠ b + 1) ∧ (∀ r ∈ t.dev.retained, r.box ≠ some b) ∧
      (∀ k ∈ (s.box b).keyList, (t.seat k).owner ≠ some b ∧ (t.seat k).cache = []) ∧
      ∀ c, c ≠ b → t.box c = s.box c)

/-- Host Ethernet (13:R342 to R344, R354; 15:R390): the port's own addresses are answered on a secured port; a frame whose
packet number does not rise in its association, the present one or the one before it, or that fails, is counted; MKA
installs a key as an association of its own and keeps the one before; a link that comes up does so only with a module
in full power; a module that needs more than 16 W, or that is taken out, loses the port's link; a lost link ends the
port's association. Fabric links (12:R312, R314; 13:R349, R350): a port with lanes comes up with an attested peer
under fresh keys of each direction, and stays in training with another; an exchange sends this device's key,
ciphertext, certificate and signature and replaces the keys; a frame that fails is counted and resent; a transit cell
goes on in the slots of a seat held by a box of the same group, is discarded and counted otherwise, and is dropped
after 16 hops. Lanes (13:R351): a failed lane that carried traffic is retired and the port stops until the spare has
trained, when it resumes on its new map and every box is told; a port left with one lane runs on it, and one left with
none is down, each with its capacity event. -/
def Obligations.LinkResults : Prop :=
  (∀ (s : State) (port : Fin 3), s.dev.on = true → ∀ (ok : Bool) (addr : List Byte) (an : Fin 4) (pn : W64) (sak : BitVec 256) (box : Fin 16) (xid : BitVec 16)
       (watts : Nat),
     let p := port.val
     let e := s.eth p
     (s.keyless = false → e.up = true → e.secured = true →
       exec (.neighbourEcho port (s.nvsBytes (2 + 12 * p) 4)) s = .next (s.send (.echo p)) ∧
       (s.nvsBytes (7 + 12 * p) 1 ≠ leBytes 4 0 →
         exec (.neighbourEcho port (s.nvsBytes (7 + 12 * p) 1)) s = .next (s.send (.echo p))) ∧
       (addr ≠ s.nvsBytes (2 + 12 * p) 4 → addr ≠ s.nvsBytes (7 + 12 * p) 1 → exec (.neighbourEcho port addr) s = .next s)) ∧
     (e.up = true → e.secured = true → e.cak = true →
       exec (.macsecFrameReceive port ⟨an, pn⟩ ok) s = .next (s.updEth p (fun e =>
         if ok = true ∧ an.val = e.an ∧ e.pn < pn.toNat then { e with pn := pn.toNat }
         else if ok = true ∧ an.val ≠ e.an ∧ e.oldAn = some an.val ∧ e.oldPn < pn.toNat then { e with oldPn := pn.toNat }
         else { e with drop := satAdd 24 e.drop 1 }))) ∧
     (e.up = true → e.cak = true → exec (.mkaSecured port ⟨an, sak⟩) s = .next (s.updEth p (fun e =>
       { e with secured := true, oldSak := e.sak, oldAn := if e.secured then some e.an else none, oldPn := e.pn,
                sak := sak, an := an.val, pn := 0, sakAsked := false }))) ∧
     (e.secured = true → e.sakAsked = false → exec (.sakChange port) s
       = .next ((s.updEth p (fun e => { e with sakAsked := true })).send (.sakRequest p))) ∧
     exec (.hostLinkUp port) s
       = .next (if e.plugged = true ∧ e.lowPower = false then s.updEth p (fun e => { e with up := true }) else s) ∧
     (∀ h : p < 2,
       exec (.roceCnpReceive ⟨p, h⟩ box xid) s = .next (s.updEth p (fun e => { e with congested := e.congested + 1 })) ∧
       exec (.roceRequestDrop ⟨p, h⟩) s = .next (s.updDev (fun d => { d with ethDrop := satAdd 32 d.ethDrop 1 })) ∧
       (watts ≤ 16 → exec (.osfpModuleChange ⟨p, h⟩ true watts) s
         = .next (s.updEth p (fun e => { e with plugged := true, lowPower := false }))) ∧
       ((∀ b, b < 16 → (s.box b).runs = []) →
         (16 < watts → exec (.osfpModuleChange ⟨p, h⟩ true watts) s = .next (s.updEth p (fun e => { e with
           plugged := true, lowPower := true, up := false, secured := false, pn := 0, oldAn := none, oldPn := 0, sakAsked := false }))) ∧
         exec (.osfpModuleChange ⟨p, h⟩ false watts) s = .next (s.updEth p (fun e => { e with
           plugged := false, lowPower := false, up := false, secured := false, pn := 0, oldAn := none, oldPn := 0, sakAsked := false })) ∧
         exec (.hostLinkLoss ⟨p, h⟩) s = .next (s.updEth p (fun e => { e with
           up := false, secured := false, pn := 0, oldAn := none, oldPn := 0, sakAsked := false }))))) ∧
  (∀ (s : State) (port : Fin 4) (q : Peer) (seat : Fin 16) (pk : List Byte) (hops : Nat), s.dev.on = true →
     let p := port.val
     (5 ≤ s.dev.phase → s.goodLanes p ≠ [] →
       (s.peerOk q = true → exec (.linkTrain port q) s
         = .next ((((s.laneMap p true).updFab p (fun f => { f with
             peer := q.index.toNat, peerPk := q.pk, peerTest := q.lcs == 1, paused := false })).linkExchange p).suspendCut)) ∧
       (s.peerOk q = false → exec (.linkTrain port q) s
         = .next (((s.laneMap p false).updFab p (fun f => { f with
             peer := 0xFF, peerPk := [], keyId := 0, keyOut := 0, keyIn := 0 })).suspendCut))) ∧
     (let n := s.dev.kids + 1
      let t := s.linkExchange p
      t.dev.kids = n ∧ (∃ ek ct, t.out = s.out ++ [.linkOffer p ek ct s.cert (Config.deviceSign s.seed (ek ++ ct))]) ∧
      (t.fab p).keyId = n ∧ (t.fab p).keyOut = Config.linkKey n true ∧ (t.fab p).keyIn = Config.linkKey n false ∧
      (t.fab p).frames = 0 ∧ ∀ r, r ≠ p → t.fab r = s.fab r) ∧
     (2 ≤ (s.fab p).st →
       exec (.linkRekey port) s = .next (s.linkExchange p) ∧
       (s.keyless = false → (s.fab p).frames + 1 < 2 ^ 32 →
         exec (.fabricFrameReceive port true) s = .next (s.updFab p (fun f => { f with frames := f.frames + 1 })) ∧
         exec (.fabricFrameReceive port false) s = .next ((s.updFab p (fun f =>
           { f with frames := f.frames + 1, resent := f.resent + 1 })).send (.resend p))) ∧
       (2 ^ 32 ≤ (s.fab p).frames + 1 → ∀ ok, exec (.fabricFrameReceive port ok) s = .next s) ∧
       (s.keyless = false → hops ≤ 16 → (∃ b g, (s.seat seat.val).owner = some b ∧ (s.box b).binding = some g ∧ g.leadPk = pk) →
         exec (.fabricCellTransit port seat pk hops) s = .next (s.send (.cell p seat.val))) ∧
       (s.keyless = false → hops ≤ 16 → (∀ b g, (s.seat seat.val).owner = some b → (s.box b).binding = some g → g.leadPk ≠ pk) →
         exec (.fabricCellTransit port seat pk hops) s = .next (s.updFab p (fun f => { f with discard := satAdd 16 f.discard 1 }))) ∧
       (16 < hops → exec (.fabricCellTransit port seat pk hops) s = .next s))) ∧
  (∀ (s : State) (l : LaneId), s.dev.on = true →
     let p := l.port.val
     let bit := 6 * p + (if l.rx then 3 else 0) + l.lane.val
     let t := s.retireLane bit
     let f := s.fab p
     ((s.nvs 0x88).toNat.testBit bit = true → exec (.laneFail l) s = .next s) ∧
     ((s.nvs 0x88).toNat.testBit bit = false → f.st ≠ 0 → (t.goodLanes p).length < (s.goodLanes p).length →
       (∀ a b, t.goodLanes p = [a, b] → f.lane0 = l.lane.val ∨ f.lane1 = l.lane.val →
         exec (.laneFail l) s = .next (t.updFab p (fun f => { f with paused := true }))) ∧
       (∀ a, t.goodLanes p = [a] → exec (.laneFail l) s
         = .next (((t.laneMap p (decide (2 ≤ f.st))).updFab p (fun f => { f with paused := false })).tellEvent 0x0102 0xFF
             (fun _ => true)).degrade) ∧
       (t.goodLanes p = [] → exec (.laneFail l) s
         = .next ((((t.laneMap p false).updFab p (fun f => { f with peer := 0xFF, peerPk := [], paused := false })).tellEvent
             0x0103 0xFF (fun _ => true)).degrade).suspendCut)) ∧
     (f.paused = true → exec (.laneSpareTrained l.port) s
       = .next (((s.laneMap p (decide (2 ≤ f.st))).updFab p (fun f => { f with paused := false })).tellEvent 0x0001 0xFF
           (fun _ => true))))

/-- The sequence window (13:R326): SEQ 0 is never accepted; a SEQ above H, or one of H − 1,023 to H that has not been
accepted, is taken; once accepted it is not taken again; the session's H is the highest, and no SEQ below H − 1,023 is
taken; after H is 0xFFFF_FFFF only SESSION_ROLL is. The sequence windows of the block (13:R326): at reset and across
every step, each session has seen no SEQ above its H and none below H − 1,023. -/
def Obligations.SequenceWindow : Prop :=
  (∀ (x : Session) (seq op : Nat), (∀ n ∈ x.seen, n ≤ x.h ∧ x.h < n + 1024) →
     (x.seqOf 0 op = .drop) ∧
     (0 < seq → (x.h < seq ∨ (x.h < seq + 1024 ∧ seq ∉ x.seen)) → (x.h = 0xFFFFFFFF → op = 1) → x.seqOf seq op = .take) ∧
     (x.seqOf seq op = .take → (x.accept seq).seqOf seq op ≠ .take ∧ (x.accept seq).h = max x.h seq ∧
       ∀ n ∈ (x.accept seq).seen, n ≤ (x.accept seq).h ∧ (x.accept seq).h < n + 1024) ∧
     (seq + 1024 ≤ x.h → x.seqOf seq op ≠ .take) ∧
     (x.h = 0xFFFFFFFF → seq ≤ x.h → op ≠ 1 → x.seqOf seq op ≠ .take)) ∧
  (let Inv (s : State) : Prop := ∀ k, ∀ n ∈ (s.session k).seen, n ≤ (s.session k).h ∧ (s.session k).h < n + 1024
   Inv State.reset ∧ ∀ s t, Inv s → step s = .next t → Inv t)

/-- Packets that carry no whole command (13:R323, R325, R327): a datagram that is not well formed counts in ETH_DROP, one
whose tag fails in ETH_AUTH_FAIL; the first fragment of a command is held, and 100 ms later the assembly is discarded;
an authenticated command with an unknown opcode is answered BAD_OPCODE. Operations and groups (13:R332, R346, R347): a
completed operation's slot expires; a member acts on a reserved command at COMMIT and forgets it with its slot at
CANCEL; the lead keeps a member's status record, answers a synchronous command with the target's reply, and a member
without the binding answers a forwarded command with HW_FAULT. A command forwarded to the box that is bound to its
lead is executed there and its answer goes back to the lead (13:R345 to R347): a synchronous one with its reply, an
operation with ACCEPTED under the lead's OPID. -/
def Obligations.PacketAndGroupResults : Prop :=
  (∀ (s : State) (h : Hdr) (op : BitVec 16) (p : List Byte) (w : Sender) (session : Fin 20), s.answers = true →
     exec (.datagramDrop .notWellFormed) s = .next (s.updDev (fun d => { d with ethDrop := satAdd 32 d.ethDrop 1 })) ∧
     exec (.datagramDrop .tagFailed) s = .next (s.updDev (fun d => { d with authFail := satAdd 32 d.authFail 1 })) ∧
     (s.screened h op.toNat p = .authFail → exec (.commandFragment h op p) s
       = .next (s.updDev (fun d => { d with authFail := satAdd 32 d.authFail 1 }))) ∧
     (s.screened h op.toNat p = .from w → h.frag.toNat < 63 → h.flags.toNat.testBit 1 = true → (s.session (asmOf w)).asm = none →
       (w.key.isSome = true → (s.session w.k).seqOf h.seq.toNat op.toNat = .take) →
       exec (.commandFragment h op p) s = .next (s.updSession (asmOf w) (fun x =>
         { x with asm := some ⟨h.seq.toNat, op.toNat, [(h.frag.toNat, p)], none⟩ }))) ∧
     exec (.assemblyTimeout session) s = .next (s.updSession session.val (fun x => { x with asm := none })) ∧
     (s.screened h op.toNat p = .from w → w.key.isSome = true → (s.session w.k).seqOf h.seq.toNat op.toNat = .take →
       h.flags = 0 → h.frag = 0 → opRow op.toNat = none →
       exec (.unlistedOpcode h op p) s
         = .next ((s.acceptSeq w h).answer w h op.toNat (s.devIndex w.k) stBadOpcode 0 []))) ∧
  (∀ (s : State) (box : Fin 16) (dev : Fin 64) (opid seq : W32) (status : Byte) (params : List Byte), s.dev.on = true →
     let b := box.val
     (∀ (o : Op) (session : Fin 20), (s.session session.val).op opid.toNat = some o → o.partsRunning = false →
       exec (.opSlotExpire session opid) s = .next (s.dropOp session.val o)) ∧
     (∀ r, exec (.opStatusRefresh box dev opid r) s = .next (s.updOp b opid.toNat (fun o =>
       { o with parts := o.parts.map (fun q => if q.1 = dev.val then (q.1, r) else q) }))) ∧
     (s.isLead b = false → (∃ r ∈ (s.box b).reserved, r.1 = opid.toNat) → exec (.cancel box opid) s
       = .next ((s.updBox b (fun x => { x with reserved := x.reserved.filter (fun r => r.1 ≠ opid.toNat) })).updSession b
           (fun x => { x with ops := x.ops.filter (fun o => o.opid ≠ opid.toNat) }))) ∧
     (∀ op p f, s.isLead b = false → (s.box b).reserved.find? (fun r => r.1 == opid.toNat) = some (opid.toNat, op, p) →
       let t := s.updBox b (fun x => { x with reserved := x.reserved.filter (fun r => r.1 ≠ opid.toNat) })
       command op (s.boxSender b 0) p t = .go f → exec (.commit box opid) s = .next (f t opid.toNat)) ∧
     (∀ f, s.dev.forwarded.find? (fun f => f.box == b && f.hdr.seq == seq && f.hdr.target.toNat == dev.val) = some f →
       (s.boxKey b).isSome = true →
       let t := s.updDev (fun d => { d with forwarded := d.forwarded.filter (fun q =>
         !(q.box == b && q.hdr.seq == seq && q.hdr.target.toNat == dev.val)) })
       exec (.forwardedReply box dev 0 seq status params) s
         = .next (t.answer (t.boxSender b f.hdr.port.val) f.hdr f.opcode dev.val status.toNat 0 params)) ∧
     (∀ (lead lbox : Byte) (all : Bool) (code : BitVec 16) (pk : List Byte) (r : OpRow), (∀ c, c < 16 → (s.box c).binding = none) →
       opRow code.toNat = some r →
       exec (.forwardedCommand ⟨lead, pk⟩ lbox all opid code params) s = .next (s.send
         (if r.isOp then .forwardReply lead.toNat lbox.toNat opid.toNat 0 stHwFault []
          else .forwardReply lead.toNat lbox.toNat 0 opid.toNat stHwFault [])))) ∧
  (∀ (s : State) (b : Nat) (g : Binding) (r : OpRow) (opid : W32) (code : BitVec 16) (p pk : List Byte), s.dev.on = true → b < 16 →
     (s.box b).binding = some g → g.lead ≠ s.groupIndex → g.lead < 256 → g.leadBox < 256 →
     (∀ c, c < b → ∀ k, (s.box c).binding = some k → k.lead ≠ g.lead ∨ k.leadBox ≠ g.leadBox) →
     s.leadAttested g pk = true → (s.box b).st = 3 → opRow code.toNat = some r →
     s.gate { s.boxSender b 0 with key := some 0, port := 2 } r = none →
     (∀ t ∈ partTiles (s.cmdReads b code.toNat p), s.lineWell b t) →
     let i : Instr := .forwardedCommand ⟨BitVec.ofNat 8 g.lead, pk⟩ (BitVec.ofNat 8 g.leadBox) false opid code p
     (∀ t st ps, r.isOp = false → command code.toNat (s.boxSender b 0) p s = .sync t st ps →
       exec i s = .next (t.send (.forwardReply g.lead g.leadBox 0 opid.toNat st ps))) ∧
     (∀ e f, r.isOp = true → command code.toNat (s.boxSender b 0) p s = .go f → s.enterOp b opid.toNat code.toNat = some e →
       exec i s = .next ((f e opid.toNat).send (.forwardReply g.lead g.leadBox opid.toNat 0 stAccepted []))))

/-- Power (15:R381, R382, R384; 01:R24): feeds connect, disconnect and trip by their voltages; a sag is counted once and
ends only outside a loss; a loss begins when no feed is connected, at its disconnection or when it is told, and
recovers with one; a reference that fails is out; the probe line takes effect; a feed code takes effect with the codes
told of the partners, and on a powered device whose boxes' partners all meet 11:R264 nothing else changes. On a
powered device a feed code and the codes told of the partners take effect; each box whose codes and its partner's
break the rule of 11:R264 has its partner layer suspended, and one whose codes keep it goes on as it was (15:R381). -/
def Obligations.PowerEventResults : Prop :=
  (∀ (s : State) (b : Bool) (volt : BitVec 10) (ms : Nat) (ref : Fin 2) (low : Bool) (code : BitVec 4)
       (partnersA partnersB : List (Fin 16 × BitVec 4)),
     let f := s.feed b
     let told := (s.updFeed b (fun f => { f with fid := code.toNat })).updDev (fun d => { d with
       partnerFid := tellCodes (tellCodes d.partnerFid false partnersA) true partnersB })
     (400 ≤ volt.toNat → volt.toNat ≤ 600 →
       (f.present = false → f.openSw = false → exec (.feedConnect b volt) s
         = .next (s.updFeed b (fun f => { f with present := true, volt := volt.toNat }))) ∧
       (f.openSw = true → exec (.feedReconnect b volt) s
         = .next (s.updFeed b (fun f => { f with present := true, openSw := false, volt := volt.toNat })))) ∧
     (f.present = true → volt.toNat < 380 → exec (.feedDisconnect b volt) s
       = .next (s.updFeed b (fun f => { f with present := false, volt := volt.toNat })).lossBegins) ∧
     (f.present = true → f.openSw = false → 380 ≤ volt.toNat → volt.toNat ≤ 600 → exec (.feedConnect b volt) s
       = .next (s.updFeed b (fun f => { f with volt := volt.toNat }))) ∧
     (f.present = true → 600 < volt.toNat → exec (.feedOvervoltage b volt) s
       = .next (s.updFeed b (fun f => { f with present := false, openSw := true, volt := volt.toNat })).lossBegins) ∧
     (s.dev.on = true →
       (s.dev.sag = false → exec (.sagStart ms) s = .next { s with ms := ms, dev := { s.dev with
         sag := true, sagCount := satAdd 32 s.dev.sagCount 1, sagLast := some (min ms (2 ^ 32 - 1)) } }) ∧
       (s.dev.sag = true → exec (.sagStart ms) s = .next { s with ms := ms }) ∧
       (s.dev.sag = true → s.dev.loss = false → exec .sagEnd s = .next { s with dev := { s.dev with sag := false } }) ∧
       (s.dev.loss = true → exec .sagEnd s = .next s) ∧
       (s.dev.loss = false → s.fed = false → s.dev.sag = false → exec .lossStart s = .next { s with dev := { s.dev with
         loss := true, sag := true, sagCount := satAdd 32 s.dev.sagCount 1, sagLast := some (min s.ms (2 ^ 32 - 1)) } }) ∧
       (s.dev.loss = false → s.fed = false → s.dev.sag = true →
         exec .lossStart s = .next { s with dev := { s.dev with loss := true } }) ∧
       (s.dev.loss = true ∨ s.fed = true → exec .lossStart s = .next s) ∧
       (s.dev.loss = true → s.fed = true → exec .lossRecover s = .next { s with dev := { s.dev with loss := false } }) ∧
       (s.dev.loss = true → exec .lossTimeout s = .next s.powerOff)) ∧
     exec (.referenceFail ref) s
       = .next { s with dev := { s.dev with refs := listUpd s.dev.refs ref.val (fun _ => false) } } ∧
     exec (.probeChange low) s = .next { s with dev := { s.dev with probe := low } } ∧
     (s.dev.on = false → exec (.fidCodeChange b code partnersA partnersB) s = .next told) ∧
     (s.dev.on = true → (∀ k < 16, (told.partnerOf k).isSome = true →
         feedsOk told.dev.feedA.fid told.dev.feedB.fid (told.partnerCodes k).1 (told.partnerCodes k).2 = true) →
       exec (.fidCodeChange b code partnersA partnersB) s = .next told) ∧
     exec .thermalEmergencyEnd s = .next { s with dev := { s.dev with therm := false } }) ∧
  (∀ (s : State) (feedB : Bool) (code pa pb : BitVec 4) (k : Fin 16), s.dev.on = true →
     ∃ t, exec (.fidCodeChange feedB code [(k, pa)] [(k, pb)]) s = .next t ∧ (t.feed feedB).fid = code.toNat ∧
       t.feed (!feedB) = s.feed (!feedB) ∧ t.partnerCodes k.val = (pa.toNat, pb.toNat) ∧
       (∀ j, j ≠ k.val → t.partnerCodes j = s.partnerCodes j) ∧
       ∀ b < 16, (s.partnerOf b).isSome = true → (s.box b).partner = 1 ∨ (s.box b).partner = 2 →
         (t.box b).partner = (if feedsOk (t.feed false).fid (t.feed true).fid (t.partnerCodes b).1 (t.partnerCodes b).2 = true
           then (s.box b).partner else 3))

/-- The stop of a power loss (12:R288; 14:R357, R372; 15:R384): every box, session, frame and seat is gone and every core
is as at power-on but for its count of free values, and the latch bank, the settings store, the model store, the
firmware slots and the complete local records stay. -/
def Obligations.PowerLossKeepsWhatIsStored : Prop :=
  ∀ s : State, s.dev.on = true → s.dev.loss = true →
    ∃ t, exec .lossTimeout s = .next t ∧ t.dev.on = false ∧
      (∀ b, t.box b = {} ∧ t.session b = {}) ∧ (∀ k, t.seat k = {} ∧ t.slot k = {}) ∧ t.frames = [] ∧ t.reqs = [] ∧
      (∀ k, ∃ n, t.core k = { ({} : Core) with fresh := n }) ∧
      (∀ h, t.cells h = s.cells h) ∧ t.dev.rowChecks = s.dev.rowChecks ∧ t.dev.spareRows = s.dev.spareRows ∧
      t.dev.rowFaults = s.dev.rowFaults ∧ (s.dev.rowSeen = [] → ∀ r, t.row r = s.row r) ∧ (∀ i, t.nvs i = s.nvs i) ∧ t.dev.store = s.dev.store ∧ t.dev.fw = s.dev.fw ∧
      (∀ r, (∃ q ∈ t.dev.retained, q.rec0 = r ∧ q.complete = true) ↔ ∃ q ∈ s.dev.retained, q.rec0 = r ∧ q.complete = true) ∧
      ∀ q ∈ t.dev.retained, q.complete = true ∧ q.box = none

/-- Bring-up (14:R358, R362, R368 to R370): power good reads the latch bank, starts bring-up with the firmware that boots
and notes a last transition without its commit row; a phase ends with the next one, with FAULT when the house die has
failed, or waiting for a wipe when a transition is to be resolved; in B3 a seat 0 in service makes the device
REHEARSAL. A die whose seventeen cores all pass (14:R375, R376): the sixteen lowest serve its two seats, which are in
service when their other parts have passed, the highest stays out of use as the spare, and none is retired. Thermal
action (15:R387; 12:R293, R296): an emergency is entered once, with its event and every open box's count and time; a
trip closes the boxes and leaves the device in FAULT. -/
def Obligations.BringUpAndThermalResults : Prop :=
  (∀ (s : State) (r : PhaseReport),
     (let v := s.updDev (fun d => { d with rowSeen := d.rowFaults })
      s.dev.on = false →
       ((∀ k, k < 3 → v.row (intentRow k) ≠ 0 → v.row (commitRow k) ≠ 0) →
         exec .powerGood s = .next ({ v with ms := 0, dev := { v.dev with on := true, trans := none, resolved := false } }.boot)) ∧
       ∀ k, k < 3 → v.row (intentRow k) ≠ 0 → v.row (commitRow k) = 0 → (∀ j, k < j → j < 3 → v.row (intentRow j) = 0) →
         let w := (v.row (intentRow k)).toNat
         exec .powerGood s = .next ({ v with ms := 0, dev := { v.dev with
           on := true, trans := some ⟨k, w / 256 % 256, w / 65536 % 256, none⟩, resolved := true } }.boot)) ∧
     (s.dev.on = false ∨ s.dev.dstate = dsFault → exec (.bringupPhaseEnd r) s = .next s) ∧
     (s.dev.on = true → s.dev.dstate ≠ dsFault →
       let t := { s with ms := r.ms }
       (r.houseOk = false → s.dev.phase = 0 ∨ s.dev.phase = 1 ∨ (s.dev.phase = 2 ∧ s.dev.waitWipe = false) →
         exec (.bringupPhaseEnd r) s = .next t.fault) ∧
       (r.houseOk = true → s.dev.phase = 0 → exec (.bringupPhaseEnd r) s
         = .next (if s.dev.active = 2 then t else { t with dev := { s.dev with phase := 1 } })) ∧
       (r.houseOk = true → s.dev.phase = 1 →
         let u := ((t.updDev (fun d => { d with nvsLoaded := true, eth := [0, 1, 2].foldl (fun e p =>
           Tab.upd {} e p (fun x => { x with cak := Tab.has d.caks p })) d.eth })).nvsGroup [(1, s.nvs 1 + 1)]).1
         exec (.bringupPhaseEnd r) s = .next { u with dev := { u.dev with phase := 2 } }) ∧
       (r.houseOk = true → s.dev.phase = 2 → s.dev.waitWipe = false →
         let key := s.lcs = 1 ∨ s.lcs = 2
         exec (.bringupPhaseEnd r) s = .next { t with dev := { s.dev with
           keyReady := decide key, mek := if key then some (s.dev.kids + 1) else none, kids := s.dev.kids + 1,
           waitWipe := s.dev.trans.isSome, phase := if s.dev.trans.isSome then 2 else 3 } }) ∧
       (s.dev.phase = 2 → s.dev.waitWipe = true → exec (.bringupPhaseEnd r) s = .next t) ∧
       (s.dev.phase = 3 → let u := t.mapDie r 0 [0]
         exec (.bringupPhaseEnd r) s = .next { (if (u.seat 0).inService then u.setDstate dsRehearsal r.ms else u) with
           dev := { (if (u.seat 0).inService then u.setDstate dsRehearsal r.ms else u).dev with phase := 4 } }) ∧
       (s.dev.phase = 4 → r.badWires = [] → r.remaps = [] →
         let u := ((List.range 8).foldl (fun (s : State) d => s.mapDie r d [2 * d, 2 * d + 1]) { t with dev := { t.dev with
           halfSpokes := (List.range 8).filter (fun k => t.wiresOver k == 1) } }).countSpares
         let v := (List.range 8).foldl (fun (v : State) d => v.tellSpares (v.dieSpares d - t.dieSpares d) (2 * d)
           (fun b => (v.seat (2 * d)).owner = some b)) u
         let w := v.tellSpares (Tab.get 0 v.dev.spUsed 2 - Tab.get 0 t.dev.spUsed 2) 0xFF (fun _ => false)
         exec (.bringupPhaseEnd r) s = .next { w with dev := { w.dev with phase := 5 } }) ∧
       (s.dev.phase = 5 → exec (.bringupPhaseEnd r) s = .next (t.endB5 r)))) ∧
  (∀ (s : State) (r : PhaseReport) (d : Nat), d < 8 → s.retiredCores d = 0 → s.wiresOver d = 0 →
     (r.goodCores.getD d 0).toNat = 2 ^ 17 - 1 → r.goodSeats.getLsbD (2 * d) = true → r.goodSeats.getLsbD (2 * d + 1) = true →
     let t := s.mapDie r d [2 * d, 2 * d + 1]
     Tab.get 0 t.dev.coreMap d = 2 ^ 16 ∧ (t.seat (2 * d)).inService = true ∧ (t.seat (2 * d + 1)).inService = true ∧
       t.retiredCores d = 0) ∧
  (∀ (s : State) (ms : Nat), s.dev.on = true →
     (s.dev.therm = true → exec (.thermalEmergencyStart ms) s = .next s) ∧
     (s.dev.therm = false → ∃ t, exec (.thermalEmergencyStart ms) s = .next t ∧ t.dev.therm = true ∧
       ∀ b, b < 16 → t.box b = (if (s.box b).st = 0 then s.box b else { s.box b with
         thermCount := satAdd 16 (s.box b).thermCount 1,
         thermLast := some (min (ms - (s.box b).openedAt) (2 ^ 32 - 2)) })) ∧
     (s.dev.tripped = false → exec .thermalTrip s = .next (({ s with dev := { s.dev with tripped := true } }.forBoxes
       (fun s b => if (s.box b).st = 1 ∨ (s.box b).st = 2 ∨ (s.box b).st = 3 then s.beginClose b none else s)).fault)) ∧
     (s.dev.tripped = true → exec .thermalTrip s = .next s))

/-- Parts that fail at run time (14:R375; 03:R62): a core is retired, and one in use takes its seat out of service; an
array line is remapped to a good one, with its event, and one that is out of use already is only noted; a phase or a
sensor is spared while a spare is left and takes its seat out of service, or the device to FAULT, after that; a block
is spared, flash becomes read-only when no spare block is left, and after that a block counts as lost; a line of
memory and a row of the latch bank show what has become of them when they are next read. A seat that goes out of
service (14:R377; 07:R182; 10:R247): it serves no box, its bit leaves the box's seats while the box keeps the seats of
its opening; no move of its queue is left, and none of another of the box's seats into it; the box's open tags that
have a target there are open no longer; and where no tag is open and nothing moves, the tiles whose live frame lay
there are LOST and every other tile keeps its state. The loss of the last seat takes the device to FAULT (14:R370). -/
def Obligations.PartFailureResults : Prop :=
  (∀ s : State, s.dev.on = true → ∀ (die : Fin 8) (phys : Fin 17) (rx : Bool) (rail : Fin 34) (pt : Fin 72)
       (core : Fin 128) (arr : Fin 2) (col : Bool) (line : Fin 130) (row : Fin 1056) (bits : BitVec 288) (tier : Fin 3) (frame : Nat)
       (outcome : LineOutcome),
     let d := die.val
     let c := phys.val
     ((s.retiredCores d).testBit c = true → exec (.partFail (.core die phys)) s = .next s) ∧
     (s.retiredCores d = 0 → (s.nvsGroup [(0x80 + d, BitVec.ofNat 32 (2 ^ c))]).2 = true →
       let map := Tab.get 0 s.dev.coreMap d
       let u := (s.nvsGroup [(0x80 + d, BitVec.ofNat 32 (2 ^ c))]).1.updDev (fun x =>
         { x with coreMap := Tab.set 0 x.coreMap d (setBitN map c true) })
       (map.testBit c = true → exec (.partFail (.core die phys)) s = .next u) ∧
       (map.testBit c = false → exec (.partFail (.core die phys)) s
         = .next (u.seatOut (2 * d + ((List.range 17).filter (fun i => !map.testBit i)).findIdx (· == c) / 8)))) ∧
     exec (.partFail (.spokeWire die rx)) s = .next (s.wireFail d rx) ∧
     (s.dev.flashRo = false → exec (.partFail (.flashBlock true)) s = .next
       (((s.spLose 5).updDev (fun x => { x with flashRo := true })).tellEvent 0x0101 0xFF (fun _ => true)).degrade) ∧
     (s.dev.flashRo = false → exec (.partFail (.flashBlock false)) s = .next ((s.spUse 5).tellEvent 0x0001 0xFF (fun _ => false))) ∧
     (s.dev.flashRo = true → ∀ gone, exec (.partFail (.flashBlock gone)) s = .next (s.spLose 5)) ∧
     exec (.partFail (.row row bits)) s = .next (s.updDev (fun x => { x with rowFaults := Tab.set 0 x.rowFaults row.val bits })) ∧
     (let key := frameKey tier.val frame
      exec (.partFail (.line tier frame outcome)) s = .next (s.setFrame key { s.frame key with upset := outcome })) ∧
     (let w := if arr = 0 then (s.core core.val).remap0 else (s.core core.val).remap1
      let a := (remapPair w col).1
      let b := (remapPair w col).2
      let t := s.updDev (fun x => { x with linesGone := (core.val, arr.val, col, line.val) :: x.linesGone })
      let put (p : W32) : State := t.setCore core.val
        (if arr = 0 then { s.core core.val with remap0 := p } else { s.core core.val with remap1 := p })
      (line.val = a ∨ line.val = b → exec (.partFail (.arrayLine core arr col line)) s = .next t) ∧
      (line.val ≠ a → line.val ≠ b → 0x80 ≤ b → (core.val, arr.val, col, b) ∉ s.dev.linesGone →
        exec (.partFail (.arrayLine core arr col line)) s = .next (((put (withPair w col a line.val)).spUse 2).tellEvent 0x0001 (core.val / 8)
          (fun q => decide ((s.seat (core.val / 8)).owner = some q))))) ∧
     (let t := { s with dev := { s.dev with railsGone := rail.val :: s.dev.railsGone } }
      let n := (s.dev.railsGone.filter (· == rail.val)).length
      exec (.partFail (.regulator rail)) s = .next (
       if n < 2 then (t.spUse 8).tellEvent 0x0001 ((railSeat rail.val).getD 0xFF) (fun b =>
         match railSeat rail.val with | some k => (t.seat k).owner = some b | none => false)
       else match railSeat rail.val with | some k => (t.spLose 8).seatOut k | none => (t.spLose 8).fault)) ∧
     (let t := { s with dev := { s.dev with sensorsGone := pt.val :: s.dev.sensorsGone } }
      (pt.val ∉ s.dev.sensorsGone → exec (.partFail (.sensor pt)) s = .next ((t.spUse 9).tellEvent 0x0001 ((pointSeat pt.val).getD 0xFF)
        (fun b => match pointSeat pt.val with | some k => (t.seat k).owner = some b | none => false))) ∧
      (pt.val ∈ s.dev.sensorsGone → exec (.partFail (.sensor pt)) s = .next (
       match pointSeat pt.val with | some k => (t.spLose 9).seatOut k | none => (t.spLose 9).fault)))) ∧
  (∀ (s : State) (b k tile : Nat), k < 16 → (s.seat k).inService = true → (s.seat k).owner = some b →
     (s.box b).st ≠ 3 ∨ (s.box b).launches = [] →
     (s.dev.phase = 15 → (∀ j < 16, j ≠ k → (s.seat j).inService = false) → (s.seatOut k).dev.dstate = dsFault) ∧
     (s.dev.phase ≠ 15 ∨ (∃ j < 16, j ≠ k ∧ (s.seat j).inService = true) →
     let x := s.box b
     let y := (s.seatOut k).box b
     let live (t : Tile) : Bool := decide (t.tier < 2) && seatOf t.tier t.frame == some k
     ((s.seatOut k).seat k).inService = false ∧ ((s.seatOut k).seat k).owner = none ∧ y.seats.getLsbD k = false ∧
       y.keySeats = x.keySeats ∧
       ((s.seatOut k).seat k).moves = [] ∧ ((s.seatOut k).seat k).moving = none ∧
       (∀ j < 16, ∀ m ∈ ((s.seatOut k).seat j).moves, ¬(m.box = b ∧ m.dtier < 2 ∧ m.dseat = k)) ∧
       (∀ tag u tier frame, (Tab.get {} x.tags tag).st = 1 → (Tab.get {} x.tags tag).covers u = true → Tab.has x.tiles u = true →
         s.readPlace b u = .at tier frame → seatOf tier frame = some k → (Tab.get {} y.tags tag).st ≠ 1) ∧
       ((∀ p ∈ x.tags, p.2.st ≠ 1) → (∀ j, (s.seat j).moving = none) → (x.tile tile).st ≠ 0 → x.wingDone (x.tile tile) = false →
         (y.tile tile).st = if live (x.tile tile) then tsLost else (x.tile tile).st)))

/-- The latch bank and the life cycle (14:R357, R360 to R362, R365): a token that does not match counts in every state,
one that matches opens the port in TEST while every box is FREE, and after three that failed none is tried; the end of
a wipe, of a transition that a command began or that bring-up waits for, programs the commit row and no other,
destroys the management session key, empties the model store and ends the transition; without a transition it does
nothing. The settings store (14:R372, R374): a group of writes whose registers are neither frozen nor spent is
committed whole, and each register reads what was written last; a group with a frozen register changes none. -/
def Obligations.LifeCycleAndSettings : Prop :=
  (∀ (s : State) (token : List Byte), s.dev.on = true →
     (3 ≤ s.dev.badTokens → exec (.lcUnlock token) s = .next s) ∧
     (s.dev.badTokens < 3 →
       (s.tokenOk 1 (sliceBytes token 0 32) = false →
         exec (.lcUnlock token) s = .next { s with dev := { s.dev with badTokens := s.dev.badTokens + 1 } }) ∧
       (s.tokenOk 1 (sliceBytes token 0 32) = true →
         (s.lcs = 1 → s.notFree = none → exec (.lcUnlock token) s = .next { s with dev := { s.dev with tapUnlock := true } }) ∧
         (s.lcs ≠ 1 ∨ s.notFree ≠ none → exec (.lcUnlock token) s = .next s))) ∧
     (s.dev.trans = none → exec .lcWipeDone s = .next s) ∧
     (∀ t, s.dev.trans = some t → t.op.isSome = true ∨ s.dev.waitWipe = true → ∃ u, exec .lcWipeDone s = .next u ∧
       u.dev.trans = none ∧ u.dev.mgtKey = none ∧ u.dev.store = [] ∧ u.dev.waitWipe = false ∧
       u.dev.keyReady = decide (t.dst = 1 ∨ t.dst = 2) ∧ (s.dev.waitWipe = true → u.dev.phase = 3) ∧
       (let h := s.rowHome (commitRow t.k)
        let v := transWord 0x43 t.src t.dst t.k
        t.dst ≠ 3 → s.rowBad h = false → (s.programCells h v).readsBack h v = true →
         u.cells h = s.cells h ||| v ∧ ∀ j, j ≠ h → u.cells j = s.cells j))) ∧
  (∀ (s : State) (vs : List (Nat × W32)),
     ((∀ p ∈ vs, p.1 ∉ s.dev.nvsFrozen ∧ s.cellUp p.1 = false) → (vs.map Prod.fst).Nodup →
       (s.nvsGroup vs).2 = true ∧ (∀ p ∈ vs, (s.nvsGroup vs).1.nvs p.1 = p.2) ∧
       ∀ i, i ∉ vs.map Prod.fst → (s.nvsGroup vs).1.nvs i = s.nvs i) ∧
     ((∃ p ∈ vs, p.1 ∈ s.dev.nvsFrozen) → (s.nvsGroup vs).2 = false ∧ ∀ i, (s.nvsGroup vs).1.nvs i = s.nvs i))

/-- A programmed bit of the latch bank is never cleared, whatever the step: neither in a row nor in a spare row (14:R357,
R358). -/
def Obligations.ProgrammedBitsStay : Prop :=
  ∀ (s t : State) (h : Nat), step s = .next t → s.cells h &&& t.cells h = s.cells h

/-- Operations of the device (09:R215; 12:R315; 14:R367): an installed model is in the store and its operation ends OK, an
install that waited resumes once a seat is free and waits again when none is, a report ends its ATTEST with its bytes
in section 0, and a self-test without failures ends OK with its results. -/
def Obligations.DeviceOperationResults : Prop :=
  ∀ s : State, s.dev.on = true →
    (∀ (o m : Nat) (q : Model), s.dev.installing = some (o, m, q, false) → s.seatFree = true →
      exec .modelInstallResume s = .next { s with dev := { s.dev with installing := some (o, m, q, true) } }) ∧
    (∀ (o m : Nat) (q : Model), s.dev.installing = some (o, m, q, true) → s.dev.flashRo = false → s.seatFree = true →
      exec .modelInstallComplete s = .next ({ s with dev := { s.dev with
        installing := none, store := Tab.set none s.dev.store m (some q) } }.endOp mgmt o stOk)) ∧
    (∀ (o m : Nat) (q : Model), s.dev.installing = some (o, m, q, true) → s.dev.flashRo = false → s.seatFree = false →
      exec .modelInstallComplete s = .next { s with dev := { s.dev with installing := some (o, m, q, false) } }) ∧
    (∀ (session : Fin 20) (opid : W32) (o : Op), (s.session session.val).op opid.toNat = some o → o.opcode = 0x0500 →
      o.ostatus = 1 → o.arg ≠ [] →
      exec (.attestComplete session opid) s = .next ((s.opBytes session.val o.opid (s.report
        (if fieldAt o.arg 0 1 = 1 then some (fieldAt o.arg 1 1) else none) (sliceBytes o.arg 4 32))).endOp session.val o.opid stOk)) ∧
    (∀ (w o : Nat) (seats : BitVec 16) (results : List (Fin 16 × Byte)), s.dev.selftest = some (w, o, seats) →
      (∀ r ∈ results, r.2 = 0) →
      exec (.selftestComplete results []) s = .next (({ s with dev := { s.dev with selftest := none } }.opBytes w o
        (((List.range 16).filter (fun k => seats.getLsbD k)).flatMap (fun k => leBytes 1 k ++ leBytes 7 0))).endOp w o stOk))

/-- The commands for identity, sessions and operations that their own rules accept (13:R326, R333, R352, R353): INFO's
record stands in section 0; SESSION_ROLL replaces the session key, H is 0 and the reply store empty; MGT_SESSION
replaces MEK whatever the outcome, and sets a fresh key when its signature, nonce and credential hold; a status
record, the bytes of a section, an abort, a release, and the oldest sixteen events. -/
def Obligations.SessionCommandResults : Prop :=
  ∀ (s : State) (h : Hdr) (p : List Byte) (w : Sender),
    let A := s.acceptSeq w h
    let f := fieldAt p
    let run (op : Nat) (i : Instr) (g : State → Nat → State) : Prop :=
      s.Accepts h op p w → exec i s = .next (g (s.begun w h op).1 (s.begun w h op).2)
    let tell (op : Nat) (i : Instr) (t : State) (ps : List Byte) : Prop :=
      s.Accepts h op p w → exec i s = .next (s.says t w h op stOk ps)
    run 0x0000 (.info h p) (fun B o => ((if w.port = 2 then B.updDev (fun d => { d with mekNonce := p }) else B).opBytes w.k o
      (B.infoRecord w p)).endOp w.k o stOk) ∧
    (∀ k, w.key = some k →
      let n := keyOf (Config.shake 32 (ascii "NGM4700-ROLL" ++ keyBytes k))
      let t := 64 * (s.box w.k).keySeat0
      let u := if w.k < 16 then A.setSlot t { A.slot t with key := n } else A.updDev (fun d => { d with mgtKey := some n })
      tell 0x0001 (.sessionRoll h p) (u.updSession w.k (fun x => { x with h := 0, seen := [], replies := [] })) []) ∧
    (let pk := sliceBytes p 0 64
     let cred := digest pk
     let held := s.nvsBytes 0x5F 16
     let signed := Config.verifyFast pk (digest s.mekPk ++ p.take 0x680) (p.drop 0x680)
     let fresh (B : State) : State := B.updDev (fun d =>
       { d with kids := d.kids + 1, mek := if d.mek.isSome then some (d.kids + 1) else none, mekNonce := [] })
     let key := keyOf (Config.shake 32 (ascii "NGM4700-MGT" ++ (match s.dev.mek with
       | some m => Config.kemOpen m (sliceBytes p 0x40 1568)
       | none => []) ++ digest s.mekPk ++ pk))
     (signed = false → run 0x0003 (.mgtSession h p) (fun B o => (fresh B).endOp w.k o stIntegrity)) ∧
     (signed = true → s.dev.mekNonce ≠ [] → sliceBytes p 0x660 32 = s.dev.mekNonce → held = cred →
       run 0x0003 (.mgtSession h p) (fun B o => (((fresh B).updDev (fun d => { d with mgtKey := some key })).updSession mgmt
         (fun x => { x with h := 0, seen := [], replies := [], asm := none })).endOp w.k o stOk)) ∧
     (signed = true → s.dev.mekNonce ≠ [] → sliceBytes p 0x660 32 = s.dev.mekNonce → held ≠ leBytes 64 0 → held ≠ cred →
       run 0x0003 (.mgtSession h p) (fun B o => (fresh B).endOp w.k o stNotAuth))) ∧
    (∀ o, (s.session w.k).op (f 0 4) = some o →
      (let C := A.sceneNow w.k (f 0 4)
       ∀ q, (C.session w.k).op (f 0 4) = some q → tell 0x0010 (.opStatus h p) C (opRecordBytes (C.opRecordOf w.k q))) ∧
      (o.partsRunning = false → f 4 1 = 0 → A.opLaunch w.k o = none →
        tell 0x0011 (.opRead h p) A (sliceBytes o.sec0 (f 8 8) (min (f 0x10 2) (o.sec0.length - f 8 8)))) ∧
      (∀ l bs, o.partsRunning = false → f 4 1 = 0 → A.opLaunch w.k o = some l →
        A.rangeRead w.k (l.resAddr + f 8 8) (min (f 0x10 2) (l.rlen - f 8 8)) = some bs → tell 0x0011 (.opRead h p) A bs) ∧
      (∀ l bs, o.partsRunning = false → f 4 1 = 1 → A.opLaunch w.k o = some l →
        A.rangeRead w.k (l.log + f 8 8) (min (f 0x10 2) ((if l.under then 16 * l.logged else 0) - f 8 8)) = some bs →
        tell 0x0011 (.opRead h p) A bs) ∧
      (let B := if o.ostatus = 1 then A.abortOp w.k o else A
       tell 0x0012 (.opAbort h p) (if o.parts.isEmpty then B else B.abortParts w.k o) []) ∧ tell 0x0013 (.opRelease h p) (A.dropOp w.k o) []) ∧
    (let es := (s.session w.k).events
     tell 0x0014 (.eventRead h p) (A.updSession w.k (fun x => { x with events := es.drop 16 }))
      ((es.take 16).flatMap (fun e => leBytes 2 e.code ++ leBytes 1 e.seat ++ leBytes 5 0 ++ leBytes 8 e.time)))

/-- The commands for boxes, groups, ports and the model store that their own rules accept (09:R215; 11:R276; 12:R289,
R291, R293; 13:R342, R343, R345): a box opens, closes, or is closed already; a group, a port's addresses and a CAK are
committed to the settings store; a model's install begins or waits for a free seat; the store is erased; retained
records are let go. A box that opens (12:R290, R291; 01:R28): it is OPENING with the seats, quota, models, channels,
members and keys of its command, an empty session, every seat its own, their keyring slots empty and their cores
initialised; nothing of another box changes. -/
def Obligations.BoxCommandResults : Prop :=
  (∀ (s : State) (h : Hdr) (p : List Byte) (w : Sender),
     let A := s.acceptSeq w h
     let f := fieldAt p
     let run (op : Nat) (i : Instr) (g : State → Nat → State) : Prop :=
       s.Accepts h op p w → exec i s = .next (g (s.begun w h op).1 (s.begun w h op).2)
     let tell (op : Nat) (i : Instr) (t : State) (ps : List Byte) : Prop :=
       s.Accepts h op p w → exec i s = .next (s.says t w h op stOk ps)
     let word (off : Nat) : W32 := BitVec.ofNat 32 (f off 4)
     run 0x0100 (.boxOpen h p) (fun B o => B.openBox p o) ∧
     ((s.box (f 0 1)).st = 0 ∨ (s.box (f 0 1)).st = 4 → tell 0x0101 (.boxClose h p) A []) ∧
     ((s.box (f 0 1)).st ≠ 0 → (s.box (f 0 1)).st ≠ 4 → run 0x0101 (.boxClose h p) (fun B o => B.beginClose (f 0 1) (some o))) ∧
     tell 0x0002 (.groupBind h p) (A.updBox w.k (fun x => { x with binding := some ⟨f 0 1, f 1 1, f 4 1, sliceBytes p 8 64⟩ })) [] ∧
     tell 0x0104 (.groupCfg h p) (A.nvsGroup ((0x6F, BitVec.ofNat 32 (f 0 1 + 256 * f 1 1))
       :: (List.range 16).map (fun i => (0x70 + i, word (4 + 4 * i))))).1 [] ∧
     tell 0x0110 (.ethCfg h p) (A.nvsGroup ((List.range 12).map (fun i => (2 + 12 * f 0 1 + i, word (4 + 4 * i))))).1 [] ∧
     (∀ cak, Config.keyUnwrap (keyOf (Config.shake 32 (ascii "NGM4700-CAK" ++ (match s.dev.mgtKey with
         | some k => keyBytes k
         | none => [])))) (sliceBytes p 0x24 40) = some cak →
       let g := (A.nvsGroup ((0x26 + 9 * f 0 1, BitVec.ofNat 32 (f 1 1))
         :: (List.range 8).map (fun i => (0x27 + 9 * f 0 1 + i, word (4 + 4 * i)))
         ++ (List.range 10).map (fun i => (0x41 + 10 * f 0 1 + i, (0 : W32))))).1
       tell 0x0111 (.linkCak h p) ((g.updDev (fun d => { d with caks := Tab.insert (f 0 1) cak (Tab.erase d.caks (f 0 1)) })).updEth
         (f 0 1) (fun e => { e with cak := true })) []) ∧
     run 0x0120 (.modelInstall h p) (fun B o => { B with dev := { B.dev with
       installing := some (o, f 0 1, ⟨p.drop 8⟩, s.seatFree) } }) ∧
     run 0x0121 (.modelStoreErase h p) (fun B o => { B with dev := { B.dev with store := [] } }.endOp mgmt o stOk) ∧
     tell 0x0408 (.localRelease h p) (A.updDev (fun d => { d with retained := d.retained.filter (fun r =>
       r.box.isSome || (f 0 8 != 2 ^ 64 - 1 && r.rec0.step != f 0 8)) })) []) ∧
  (∀ (s : State) (p : List Byte) (o k i : Nat), fieldAt p 0 1 < 16 → k < 16 → (fieldAt p 2 2).testBit k = true → i < 8 →
     let b := fieldAt p 0 1
     let t := s.openBox p o
     ((t.box b).st = 1 ∧ (t.box b).seats.toNat = fieldAt p 2 2 ∧ (t.box b).flashq = fieldAt p 4 4 ∧
       (t.box b).members = fieldAt p 0x11 1 ∧ (t.box b).openOp = o ∧ (t.box b).openE = 1 ∧ (t.box b).tiles = [] ∧
       (t.box b).launches = []) ∧
     t.session b = {} ∧ (t.seat k).owner = some b ∧ (t.seat k).capW = fieldAt p (0x20 + 2 * k) 2 ∧
     (∀ j, j < 64 → t.slot (64 * k + j) = {}) ∧ t.core (8 * k + i) = (s.core (8 * k + i)).opened ∧
     (∀ c, c ≠ b → t.box c = s.box c))

/-- The commands for the tile map, transfers, weights and scenes that their own rules accept (07:R163, R180, R185;
09:R216, R219, R221; 13:R338 to R340). -/
def Obligations.MemoryCommandResults : Prop :=
  ∀ (s : State) (h : Hdr) (p : List Byte) (w : Sender),
    let A := s.acceptSeq w h
    let b := w.k
    let x := s.box b
    let f := fieldAt p
    let run (op : Nat) (i : Instr) (g : State → Nat → State) : Prop :=
      s.Accepts h op p w → exec i s = .next (g (s.begun w h op).1 (s.begun w h op).2)
    let tell (op : Nat) (i : Instr) (t : State) (ps : List Byte) : Prop :=
      s.Accepts h op p w → exec i s = .next (s.says t w h op stOk ps)
    run 0x0200 (.regionMap h p) (fun B o =>
      match (B.mapRegion b (f 0 4) (f 4 2) (f 6 1)).bind (fun t =>
        (mapRuns p).foldl (fun (a : Option State) q => a.bind (fun t => t.mapTiles b (f 0 4) q)) (some t)) with
      | some t => t.endOp b o stOk
      | none => B.endOp b o stBadParam) ∧
    run 0x0201 (.regionUnmap h p) (fun B o => (B.unmapRegion b (f 0 4)).endOp b o stOk) ∧
    run 0x0202 (.tileUnd h p) (fun B o => (B.updTile b (f 0 8) (fun z =>
      if f 8 8 = 2 ^ 64 - 1 then { z with und := false, utile := 0 } else { z with und := true, utile := f 8 8 })).endOp b o stOk) ∧
    (∀ B o t, (B, o) = s.begun w h 0x0203 →
      B.queueMove ⟨b, f 0 8, f 8 4, f 0x0C 1, f 0x0D 1, (f 0x0E 1).testBit 0, (f 0x0E 1).testBit 1, some o, false, false⟩ = some t →
      run 0x0203 (.tileMove h p) (fun _ _ => t)) ∧
    (let q := (Config.queuePair s.fresh).toNat
     let z : Xfer := ⟨f 2 1, f 3 1, f 4 2, f 8 8, f 0x10 8, f 0x18 8, f 0x20 4, f 0x24 4, sliceBytes p 0x28 16, f 0x38 4, f 0x40 8, q⟩
     tell 0x0210 (.xferReg h p) ({ A with fresh := s.fresh + 1 }.updBox b (fun y =>
        { y with xfers := Tab.set none y.xfers (f 0 2) (some z) }))
       (leBytes 4 q ++ s.portGid (f 3 1))) ∧
    tell 0x0211 (.xferDrop h p) (A.updBox b (fun y => { y with xfers := Tab.set none y.xfers (f 0 2) none })) [] ∧
    run 0x0212 (.xferRun h p) (fun B o => B.askRun b (f 0 2) (.op o)) ∧
    (f 0 1 = 1 → run 0x0220 (.wtLoad h p) (fun B o => (B.updBox b (fun y => { y with
      loading := y.loading ++ [(⟨o, 1, f 2 2, f 4 2, f 6 2, f 8 4, [], [], [], 0, false⟩ : Load)] })).askRun b (f 6 2) (.shardMap o))) ∧
    (f 0 1 = 2 → ∀ B o, (B, o) = s.begun w h 0x0220 →
      let k := B.sourceKey b 2 (f 2 2) (f 4 2)
      let hdr := s.modelHdr (f 4 2)
      headerOk (k.1.slot k.2).key hdr = true →
      run 0x0220 (.wtLoad h p) (fun _ o => (k.1.updBox b (fun y => { y with
        loading := y.loading ++ [(⟨o, 2, k.2, f 4 2, f 6 2, f 8 4, [], hdr, [], 0, false⟩ : Load)] })).askRun b (f 6 2) (.shardMap o))) ∧
    tell 0x0221 (.wtChannel h p) (A.updBox b (fun y => { y with chans := Tab.upd {} y.chans (f 0 1) (fun c =>
      { c with active := f 1 1 == 1, tier := f 2 1, lo := f 3 1, hi := f 4 1, rate := f 8 4 }) })) [] ∧
    (∀ B o m, (B, o) = s.begun w h 0x0222 → B.rangeRead b (f 8 8) (32 * f 6 2) = some m →
      run 0x0222 (.sceneChange h p) (fun _ _ =>
        if B.layersOk b (f 0 1) m (f 6 2) = true then B.beginScene b o p m else B.endOp b o stBadParam)) ∧
    (x.scene.active = true → ¬ s.Accepts h 0x0222 p w)

/-- The commands for scripts, launches and the curtain that their own rules accept (06:R137; 11:R263, R271, R272, R281,
R285; 12:R322; 13:R336, R337): an image that fails the loader ends its operation with BAD_PARAM and the failure, one
that passes and is approved stands in its slot; a launch is queued; a configuration is taken; the status is told; an
outcome from the host is applied; a restore begins; an import writes the step record live. -/
def Obligations.LaunchCommandResults : Prop :=
  ∀ (s : State) (h : Hdr) (p : List Byte) (w : Sender),
    let A := s.acceptSeq w h
    let b := w.k
    let x := s.box b
    let f := fieldAt p
    let run (op : Nat) (i : Instr) (g : State → Nat → State) : Prop :=
      s.Accepts h op p w → exec i s = .next (g (s.begun w h op).1 (s.begun w h op).2)
    let tell (op : Nat) (i : Instr) (t : State) (ps : List Byte) : Prop :=
      s.Accepts h op p w → exec i s = .next (s.says t w h op stOk ps)
    (∀ B o img, (B, o) = s.begun w h 0x0300 → B.rangeRead b (f 8 8) (f 0x10 8) = some img →
      (∀ e, imageFail x.rehearsal img = some e →
        run 0x0300 (.scriptLoad h p) (fun B o => B.endOp b o stBadParam 0 0 (some e.detail))) ∧
      (imageFail x.rehearsal img = none → x.scriptApproved (scriptImg img).digest = true →
        run 0x0300 (.scriptLoad h p) (fun B o => (B.updBox b (fun y => { y with
          scripts := Tab.set none y.scripts (f 0 1) (some (scriptImg img)), digests := y.digests ++ [(scriptImg img).digest] })).endOp
            b o stOk 0 0 (some (f 0 1)))) ∧
      (imageFail x.rehearsal img = none → x.scriptApproved (scriptImg img).digest = false →
        run 0x0300 (.scriptLoad h p) (fun B o => B.endOp b o stNotAuth))) ∧
    (∀ B o sc l, (B, o) = s.begun w h 0x0301 → Tab.get none x.scripts (f 0 1) = some sc →
      B.makeLaunch b o (launchP p) sc.cores.length = some l →
      run 0x0301 (.launch h p) (fun _ _ => B.acceptLaunch b o l)) ∧
    run 0x0400 (.curtainCfg h p) (fun B o => B.takeCurtain b o p) ∧
    (x.takeReject = false → tell 0x0401 (.curtainStatus h p) A
      (leBytes 1 x.cst ++ leBytes 1 x.last ++ leBytes 1 x.cause ++ leBytes 1 x.partner ++ leBytes 4 x.openE ++ leBytes 4 x.resolvedE
        ++ leBytes 4 0 ++ leBytes 8 x.step ++ stepOrOnes x.mirrorStep ++ stepOrOnes x.localStep ++ stepOrOnes x.storeStep)) ∧
    (f 0 4 ≠ x.openE → tell 0x0403 (.curtainResolve h p) A [] ∧
      ∀ q, x.history.find? (fun q => q.1 == f 0 4) = some q → q.2 ≠ decide (f 4 1 = 1) → ¬ s.Accepts h 0x0403 p w) ∧
    (f 0 4 = x.openE → x.outcome.isSome = true → tell 0x0403 (.curtainResolve h p) A []) ∧
    (f 0 4 = x.openE → x.outcome = none →
      (f 4 1 = 1 → tell 0x0403 (.curtainResolve h p) (A.applyClose b) []) ∧
      (f 4 1 = 0 → tell 0x0403 (.curtainResolve h p) (A.beginDiscard b 4 false) [])) ∧
    (let rst (o : Nat) : Restore :=
      ⟨o, f 0 1, (f 1 1).testBit 0, (f 1 1).testBit 1, (f 1 1).testBit 2, f 8 8, f 0x10 8, f 0x18 8, f 2 2, [], 0, [], [], []⟩
     (f 0 1 ≠ 1 → run 0x0405 (.sceneRestore h p) (fun B o => B.beginRestore b (rst o))) ∧
     (∀ r, f 0 1 = 1 → s.localSource b (f 8 8) = some r →
       run 0x0405 (.sceneRestore h p) (fun B o => (B.claim b r).beginRestore b (rst o)))) ∧
    (let t := signedOf 8 (f 0 1)
     ∀ B o c r, (B, o) = s.begun w h 0x0407 → x.curtain = some c → x.launches = [] →
       r = ({ epoch := x.resolvedE, step := f 0x10 8, dstep := f 0x18 8, sample := f 0x20 8, batch := c.batch, flags := 1,
              gens := ((List.range x.coreList.length).zip x.coreList).foldl (fun e (q : Nat × Nat) =>
                (List.range 16).foldl (fun e g => Tab.set {} e (q.1 * 16 + g)
                  { (B.core q.2).gen g with step := f 0x18 8 % 2 ^ 32, draw := 0 }) e) [] } : StepRec) →
       run 0x0407 (.ifealeImport h p) (fun _ _ => (((B.updBox b (fun y => { y with
         step := f 0x10 8, cst := 5, imp := some ⟨if t = 0 then -7 else t, f 4 4, f 8 8⟩, impPassed := none })).putStepRec b
           r).loadGens b r).endOp b o stOk))

/-- The commands for keys that their own rules accept (12:R301, R306, R307, R315, R317 to R321): an attestation waits for
its report; a package's keys stand in their slots, and the last release makes the box LIVE; a slot is emptied or takes
a fresh key; a rotation starts; an approval is recorded; the first alarm is told. -/
def Obligations.KeyCommandResults : Prop :=
  ∀ (s : State) (h : Hdr) (p : List Byte) (w : Sender),
    let A := s.acceptSeq w h
    let f := fieldAt p
    let run (op : Nat) (i : Instr) (g : State → Nat → State) : Prop :=
      s.Accepts h op p w → exec i s = .next (g (s.begun w h op).1 (s.begun w h op).2)
    let tell (op : Nat) (i : Instr) (t : State) (ps : List Byte) : Prop :=
      s.Accepts h op p w → exec i s = .next (s.says t w h op stOk ps)
    run 0x0500 (.attest h p) (fun B o => B.updOp w.k o (fun q => { q with arg := p })) ∧
    (∀ es, s.openPackage w.box p true = some es →
      let x := s.box w.box
      let rel := x.released ||| BitVec.ofNat 8 (2 ^ f 0 1)
      (x.members = 1 → x.released = 0 → run 0x0501 (.keyRelease h p) (fun B o =>
        ((B.installKeys w.box 15 es).updBox w.box (fun y => { y with released := rel, st := 3 })).endOp w.k o stOk)) ∧
      (1 < x.members → rel.toNat ≠ 2 ^ x.members - 1 → run 0x0501 (.keyRelease h p) (fun B o =>
        ((B.installKeys w.box (f 0 1) es).updBox w.box (fun y => { y with released := rel })).endOp w.k o stOk)) ∧
      (1 < x.members → rel.toNat = 2 ^ x.members - 1 → run 0x0501 (.keyRelease h p) (fun B o =>
        ((((B.installKeys w.box (f 0 1) es).updBox w.box (fun y => { y with released := rel })).deriveCompany w.box).updBox w.box
          (fun y => { y with st := 3 })).endOp w.k o stOk))) ∧
    (∀ es, s.openPackage w.k p (decide (1 < (s.box w.k).members)) = some es → run 0x0502 (.keyPut h p) (fun B o =>
      (B.installKeys w.k (if 1 < (s.box w.k).members then f 0 1 else 15) es).endOp w.k o stOk)) ∧
    tell 0x0503 (.keyDestroy h p) (A.setSlot (f 0 2) {}) [] ∧
    run 0x0504 (.rekey h p) (fun B o => B.startRekey w.k (f 0 2) o) ∧
    (let n := s.dev.kids + 1
     let t := { A with fresh := s.fresh + 1, dev := { s.dev with kids := n } }
     (f 2 1 = 1 → tell 0x0505 (.keyGen h p) (t.setSlot (f 0 2)
       { st := 1, kind := 1, owner := w.k, member := 15, kid := n }) []) ∧
     (f 2 1 = 2 → tell 0x0505 (.keyGen h p) (t.setSlot (f 0 2)
       { st := 1, kind := 2, owner := w.k, member := 15, key := Config.randomKey s.fresh }) [])) ∧
    run 0x0506 (.approve h p) (fun B o => (B.updBox w.k (fun y => { y with
      approvals := y.approvals ++ [(⟨f 0 1, f 1 1, f 2 2, f 8 8, sliceBytes p 0x10 64⟩ : Approval)] })).endOp w.k o stOk) ∧
    (∀ a, (s.box w.k).alarm = some a → tell 0x0507 (.alarmRead h p) A (leBytes 1 a.cause ++ leBytes 1 (s.box w.k).alarms
      ++ leBytes 1 a.seat ++ leBytes 1 a.tier ++ leBytes 4 a.time ++ leBytes 8 a.tile ++ leBytes 2 a.line ++ leBytes 1 a.unit
      ++ leBytes 13 0))

/-- The commands for the life cycle, firmware, spares and diagnosis that their own rules accept (14:R358, R360, R364 to
R368, R379). -/
def Obligations.DeviceCommandResults : Prop :=
  ∀ (s : State) (h : Hdr) (p : List Byte) (w : Sender),
    let A := s.acceptSeq w h
    let f := fieldAt p
    let run (op : Nat) (i : Instr) (g : State → Nat → State) : Prop :=
      s.Accepts h op p w → exec i s = .next (g (s.begun w h op).1 (s.begun w h op).2)
    let tell (op : Nat) (i : Instr) (t : State) (ps : List Byte) : Prop :=
      s.Accepts h op p w → exec i s = .next (s.says t w h op stOk ps)
    let dg (k : Nat) : List Byte := match s.fwSlot k with | some q => sliceBytes q.digest 0 64 | none => leBytes 64 0
    tell 0x0600 (.lcStatus h p) A (leBytes 4 s.lcsWord ++ leBytes 4 s.fwSvn ++ leBytes 1 s.dev.active ++ leBytes 1 s.fwNext
      ++ leBytes 1 (bitN s.dev.fallback) ++ leBytes 5 0 ++ dg 0 ++ dg 1) ∧
    (f 0 1 ≠ 2 → ∀ B o, (B, o) = s.begun w h 0x0601 →
      let r := (B.transRows p).1
      run 0x0601 (.lcTransition h p) (fun _ _ => (r.programRow (intentRow r.transCount)
        (transWord 0x49 s.lcs (f 0 1) r.transCount)).updDev (fun d =>
          { d with trans := some ⟨r.transCount, s.lcs, f 0 1, some o⟩ }))) ∧
    (f 0 1 = 0 → run 0x0610 (.fwUpdateBegin h p) (fun B o =>
      (B.updDev (fun d => { d with staging := [], stageLen := f 4 4 })).endOp mgmt o stOk)) ∧
    (f 0 1 = 1 → run 0x0610 (.fwUpdateData h p) (fun B o =>
      (B.updDev (fun d => { d with staging := d.staging.store (f 4 4) (p.drop 8) })).endOp mgmt o stOk)) ∧
    (f 0 1 = 2 → let img := s.dev.staging.bytes 0 s.dev.stageLen
      (Config.verifyRoot false img (Config.firmwareSig img) = false →
        run 0x0610 (.fwUpdateEnd h p) (fun B o => B.endOp mgmt o stIntegrity)) ∧
      (Config.verifyRoot false img (Config.firmwareSig img) = true → Config.firmwareSvn img < s.minSvn →
        run 0x0610 (.fwUpdateEnd h p) (fun B o => B.endOp mgmt o stBadParam)) ∧
      (Config.verifyRoot false img (Config.firmwareSig img) = true → s.minSvn ≤ Config.firmwareSvn img →
        ∀ B o, (B, o) = s.begun w h 0x0610 →
        let k := 1 - s.dev.active
        let g := B.nvsGroup [(0x91, BitVec.ofNat 32 k)]
        g.2 = true → run 0x0610 (.fwUpdateEnd h p) (fun _ _ => (g.1.updDev (fun d => { d with
          fw := Tab.set none d.fw k (some ⟨digest img, Config.firmwareSvn img, true⟩) })).endOp mgmt o stOk))) ∧
    (f 0 1 = 3 → run 0x0610 (.fwUpdateCommitSvn h p) (fun B o =>
      (B.raiseSvn s.fwSvn).1.endOp mgmt o (if (B.raiseSvn s.fwSvn).2 then stOk else stHwFault))) ∧
    (s.Accepts h 0x0620 p w → ∃ ps, exec (.spareReport h p) s = .next (s.says A w h 0x0620 stOk ps) ∧ ps.length = 144 ∧
      fieldAt ps 0 1 = 1 ∧ fieldAt ps 4 4 = 8) ∧
    (f 0 1 = 1 → run 0x0702 (.diagSelftest h p) (fun B o => B.updDev (fun d =>
      { d with selftest := some (w.k, o, BitVec.ofNat 16 (f 2 2)) }))) ∧
    (f 0 1 = 2 → run 0x0702 (.diagBoxDebug h p) (fun B o => B.beginDebug (f 1 1) (f 0x28 8) o)) ∧
    (f 0 1 = 3 → run 0x0702 (.diagDeviceDebug h p) (fun B o => (B.updDev (fun d => { d with tapDebug := true })).endOp w.k o stOk)) ∧
    (f 0 1 = 4 → run 0x0702 (.diagDebugOff h p) (fun B o => (B.updDev (fun d => { d with tapDebug := false })).endOp w.k o stOk))

/-- Registers (00:R6 to R10; 06:R127; 08:R188; 13:R341): a REG_READ of one register tells its value and leaves what its
read leaves; ETH_CMD_PORT is written through the settings store; the low half of a core's script cycle or slip offset,
and of a box's step counter, latches its high half; the registers of a stream context read while its core runs no
launch. What registers refuse, over every register number (00:R6 to R9; 12:R297; 13:R341): a REG_WRITE of the
management session to any address but ETH_CMD_PORT, or with a reserved bit set, is answered BAD_PARAM; one of a box
session is answered BAD_PARAM at a register that the session may reach and NOT_AUTHORISED anywhere else; a REG_READ of
one word where no register lies is answered BAD_PARAM to the management session and NOT_AUTHORISED to a box, and of a
register out of reach NOT_AUTHORISED; none of them changes anything. No box reaches the settings store, the management
block, or another box's core or box registers. A read changes nothing but the session's own latches and the number of
the next free value. -/
def Obligations.RegisterCommandResults : Prop :=
  (∀ (s : State) (h : Hdr) (w : Sender),
     let A := s.acceptSeq w h
     (∀ p v t, fieldAt p 4 1 = 1 → A.regAt w.k (fieldAt p 0 4) = .val v t → s.Accepts h 0x0700 p w →
       exec (.regRead h p) s = .next (s.says t w h 0x0700 stOk (leBytes 4 v))) ∧
     (∀ p, s.Accepts h 0x0701 p w → exec (.regWrite h p) s
       = .next (s.says (A.nvsGroup [(0, BitVec.ofNat 32 (fieldAt p 4 4))]).1 w h 0x0701 stOk [])) ∧
     (∀ v : W32, s.Accepts h 0x0701 (leBytes 4 0x200000 ++ leBytes 4 v.toNat) w → exec (.ethCmdPortWrite h v) s
       = .next (s.says (A.nvsGroup [(0, v)]).1 w h 0x0701 stOk [])) ∧
     (let latch (key v : Nat) : State := A.updSession w.k (fun x => { x with latch := Tab.set 0 x.latch key (v / 2 ^ 32 + 1) })
      (∀ core : Fin 128, s.Accepts h 0x0700 (readOf (coreReg core.val 8) 1) w → exec (.coreScriptLoRead h core) s
        = .next (s.says (latch (2 * core.val) (s.core core.val).scyc) w h 0x0700 stOk (leBytes 4 ((s.core core.val).scyc % 2 ^ 32)))) ∧
      (∀ core : Fin 128, s.Accepts h 0x0700 (readOf (coreReg core.val 0x10) 1) w → exec (.coreOffsetLoRead h core) s
        = .next (s.says (latch (2 * core.val + 1) (s.core core.val).offset) w h 0x0700 stOk
          (leBytes 4 ((s.core core.val).offset % 2 ^ 32)))) ∧
      (∀ box : Fin 16, s.Accepts h 0x0700 (readOf (0x302014 + box.val * 0x20) 1) w → exec (.memBoxStepLoRead h box) s
        = .next (s.says (latch (512 + box.val) (s.box box.val).step) w h 0x0700 stOk (leBytes 4 ((s.box box.val).step % 2 ^ 32))))) ∧
     (∀ (x : Ctx) (reg : Fin 16), s.Accepts h 0x0700 (readOf (coreReg x.core.val (0x1000 + x.ctx.val * 0x40 + 4 * reg.val)) 1) w →
       exec (.streamContextRead h x reg 1) s = .next (s.says A w h 0x0700 stOk
         (leBytes 4 ((((s.core x.core.val).ctx x.ctx.val).words).getD reg.val 0))))) ∧
  (∀ (s : State) (h : Hdr) (p : List Byte) (w : Sender),
     let A := s.acceptSeq w h
     let addr := fieldAt p 0 4
     let no (op : Nat) (i : Instr) (st : Nat) (ps : List Byte) : Prop := exec i s = .next (A.answer w h op (s.devIndex w.k) st 0 ps)
     let bad (field : Nat) : List Byte := leBytes 2 field ++ leBytes 8 0
     (s.Takes h 0x0701 p w → p.length = 8 →
       (w.k = mgmt → addr ≠ 0x200000 → no 0x0701 (.regWrite h p) stBadParam (bad 0)) ∧
       (w.k = mgmt → addr = 0x200000 → 2 ^ 16 ≤ fieldAt p 4 4 → no 0x0701 (.regWrite h p) stBadParam (bad 4)) ∧
       (w.k ≠ mgmt → (∃ v t, A.regAt w.k addr = .val v t) ∨ (∃ a c, A.regAt w.k addr = .refused a c) →
         no 0x0701 (.regWrite h p) stBadParam (bad 0)) ∧
       (w.k ≠ mgmt → A.regAt w.k addr = .unmapped ∨ A.regAt w.k addr = .denied → no 0x0701 (.regWrite h p) stNotAuth [])) ∧
     (s.Takes h 0x0700 p w → p.length = 5 → fieldAt p 4 1 = 1 →
       (A.regAt w.k addr = .unmapped → (w.k = mgmt → no 0x0700 (.regRead h p) stBadParam (bad 0)) ∧
         (w.k ≠ mgmt → no 0x0700 (.regRead h p) stNotAuth [])) ∧
       (A.regAt w.k addr = .denied → no 0x0700 (.regRead h p) stNotAuth []) ∧
       (∀ a c, A.regAt w.k addr = .refused a c → no 0x0700 (.regRead h p) stReject (leBytes 1 a ++ leBytes 1 c))) ∧
     (∀ k a, a % 4 ≠ 0 ∨ 2 ^ 32 ≤ a ∨
         a / 0x10000 ∉ [0, 1, 2, 3, 4, 0x10, 0x11, 0x20, 0x21, 0x22, 0x30, 0x40, 0x41] ++ (List.range 128).map (· + 0x80) →
       s.regAt k a = .unmapped) ∧
     (let hidden (k a : Nat) : Prop := s.regAt k a = .unmapped ∨ s.regAt k a = .denied
      ∀ k off : Nat, k ≠ mgmt → off < 0x10000 → hidden k (0x030000 + off) ∧ hidden k (0x220000 + off) ∧
        (∀ b < 16, b ≠ k → off < 0x20 → hidden k (0x110000 + b * 0x20 + off)) ∧
        (∀ core < 128, s.boxOfCore core ≠ some k → hidden k (0x800000 + core * 0x10000 + off))) ∧
     ∀ k a v t, s.regAt k a = .val v t → t = { s with sess := t.sess, fresh := t.fresh } ∧
       (∀ j, j ≠ k → t.session j = s.session j) ∧ t.session k = { s.session k with latch := (t.session k).latch })

/-- Which packets are accepted, answered otherwise, or dropped (12:R294; 13:R325, R326, R330, R331, R334; 14:R370),
whatever the command: a packet that no session takes is dropped, and counted when its tag fails; a SEQ taken before
has its stored reply sent again, to the command's source, and nothing else; a command that has to read what an open
tag holds waits at its controller; a command that its session, its box's freeze or a device in FAULT does not allow,
or whose own rules refuse it, is answered so and has no effect; an operation without a free slot is BUSY. What the
sessions and states forbid before a command's own rules (12:R294; 13:R334; 14:R370): a session commands what its
column of R334 allows, a device in FAULT serves only what R370 lists, on M0 alone, and a frozen box only what R294
lists, with ALARM for the rest. SEATED and LIVE boxes (12:R292): a SEATED box takes ATTEST and KEY_RELEASE with an
all-zero tag and answers any other command with STATE_REJECT; a LIVE box takes a command only with the tag under its
session key. -/
def Obligations.RefusedCommandsHaveNoEffect : Prop :=
  (∀ (s : State) (h : Hdr) (p : List Byte) (w : Sender) (op : Nat) (mk : Hdr → List Byte → Instr) (r : OpRow),
     (op, mk) ∈ hostRows → opRow op = some r →
     let A := s.acceptSeq w h
     let no (st : Nat) (ps : List Byte) : Prop := exec (mk h p) s = .next (A.answer w h op (s.devIndex w.k) st 0 ps)
     (s.screened h op p = .silent → exec (mk h p) s = .next s) ∧
     (s.screened h op p = .authFail → exec (mk h p) s = .next (s.updDev (fun d => { d with authFail := satAdd 32 d.authFail 1 }))) ∧
     (s.screened h op p = .from w → h.flags = 0 → h.frag = 0 →
       (∀ q, w.key.isSome = true → (s.session w.k).seqOf h.seq.toNat op = .again q →
         exec (mk h p) s = .next (s.send (.reply (q.toSource s h)))) ∧
       (w.key.isSome = true → (s.session w.k).seqOf h.seq.toNat op = .drop →
         exec (mk h p) s = .next (s.updDev (fun d => { d with ethDrop := satAdd 32 d.ethDrop 1 }))) ∧
       (w.key.isSome = true → (s.session w.k).seqOf h.seq.toNat op = .take → s.cmdHeld w op p = true → exec (mk h p) s = .next s) ∧
       ((w.key.isSome = true → (s.session w.k).seqOf h.seq.toNat op = .take ∧ s.cmdHeld w op p = false) →
         (∀ st ps, s.gate w r = some (st, ps) → no st ps) ∧
         (s.gate w r = none →
           (s.route w r p h.target.toNat = .bad → no stBadParam (leBytes 2 0xFFFF ++ leBytes 8 0)) ∧
           (s.route w r p h.target.toNat = .here →
             (∀ st ps, command op w p A = .no st ps → no st ps) ∧
             (∀ f, h.line = .good → (∀ t ∈ partTiles (s.cmdReads w.k op p), s.readsWell w.k t) → command op w p A = .go f → A.startOp w.k op = none → no stBusy [])))))) ∧
  (∀ (s : State) (w : Sender) (r : OpRow) (k : BitVec 256), w.key = some k →
     ((if w.k = mgmt then r.mgt else r.box) = false → s.gate w r = some (stNotAuth, [])) ∧
     ((if w.k = mgmt then r.mgt else r.box) = true →
       (s.dev.dstate = dsFault → faultServes r.code = false ∨ w.port ≠ 2 → s.gate w r = some (stReject, [2, 4])) ∧
       (s.dev.dstate = dsFault → faultServes r.code = true → w.port = 2 → (w.k < 16 → (s.box w.k).frozen = false) →
         s.gate w r = none) ∧
       (s.dev.dstate ≠ dsFault → w.k < 16 → (s.box w.k).frozen = true → frozenServes r.code = false →
         s.gate w r = some (stAlarm, [])) ∧
       (s.dev.dstate ≠ dsFault → (w.k < 16 → (s.box w.k).frozen = false) → s.gate w r = none))) ∧
  (∀ (s : State) (h : Hdr) (op : Nat) (p : List Byte) (mk : Hdr → List Byte → Instr) (r : OpRow), h.box.toNat < 16 →
     (op, mk) ∈ hostRows → opRow op = some r →
     let b := h.box.toNat
     let w : Sender := ⟨publicOf h.port.val, b, h.port.val, none⟩
     ((s.box b).st = 2 → s.answers = true → (s.eth h.port.val).secured = true → s.keyless = false → h.tag = 0 →
       h.dst.toNat = (s.nvs 0).toNat →
       s.screened h op p = .from w ∧
       (op = 0x0500 ∨ op = 0x0501 → s.dev.dstate ≠ dsFault → s.gate w r = none) ∧
       (op ≠ 0x0500 → op ≠ 0x0501 → h.flags = 0 → h.frag = 0 →
         exec (mk h p) s = .next (s.answer w h op (s.devIndex w.k) stReject 0 [3, 2]))) ∧
     ((s.box b).st = 3 → ∀ v, s.screened h op p = .from v → ∃ k, s.boxKey b = some k ∧ v.key = some k ∧
       h.tag = Config.gcmTag k (packetNonce 0 b h.frag.toNat h.seq.toNat) (commandBytes h op p)))

/-- Seats and their boxes (01:R15, R16, R28; 12:R289, R293; 14:R377): in every state, a seat's owner is the box whose bit
for it is set, so that no two boxes hold one seat, a box holds only seats of its opening, and a FREE box holds none.
No command of one box's session changes another box, or a key outside its own slots (12:R288, R297, R301): from a box
whose stores, runs, rotation and curtain name slots of its own, whatever the command and whatever it is answered. -/
def Obligations.BoxesKeepApart : Prop :=
  (let Inv (s : State) : Prop :=
     (∀ k b, (s.seat k).owner = some b ↔ (s.box b).seats.getLsbD k = true) ∧
     (∀ b, (s.box b).seats &&& ~~~(s.box b).keySeats = 0) ∧ ∀ b, (s.box b).st = 0 → (s.box b).seats = 0
   (Inv State.reset) ∧ (∀ s t, Inv s → step s = .next t → Inv t) ∧
     ∀ s, Inv s → ∀ b c k, b ≠ c → ¬((s.box b).seats.getLsbD k = true ∧ (s.box c).seats.getLsbD k = true)) ∧
  (∀ (s : State) (h : Hdr) (p : List Byte) (w : Sender) (op : Nat) (mk : Hdr → List Byte → Instr),
     (op, mk) ∈ hostRows → s.screened h op p = .from w → w.k < 16 →
     let x := s.box w.k
     let own (k : Nat) : Prop := x.hasSlot k = true
     x.keySeats ≠ 0 → (x.scene.srcKind = 2 → own x.scene.keyslot) → (∀ l ∈ x.loading, l.kind = 2 → own l.keyslot) →
     (∀ i q, x.xfer i = some q → own q.slot) → (∀ j ∈ x.rekey.jobs, own j.1) →
     (∀ c, x.curtain = some c → own c.skey ∧ own c.mtumbler) →
     ∃ t, exec (mk h p) s = .next t ∧ (∀ b, b ≠ w.k → t.box b = s.box b) ∧ ∀ k, x.hasSlot k = false → t.slot k = s.slot k)

/-- A transition of the life cycle needs its spare rows (14:R359): with fewer than 4 free, or 2 to END_OF_LIFE,
LC_TRANSITION is answered HW_FAULT and nothing changes but its SEQ and its reply; with enough of them it is accepted. -/
def Obligations.SpareRowsForATransition : Prop :=
  ∀ (s : State) (h : Hdr) (p : List Byte) (w : Sender), s.Takes h 0x0601 p w → s.notFree = none → s.dev.trans = none →
    let dst := fieldAt p 0 1
    let src := s.lcs
    (src = 0 ∧ (dst = 1 ∨ dst = 3)) ∨ (src = 1 ∧ (dst = 2 ∨ dst = 3)) ∨ (src = 2 ∧ dst = 3) →
    p.length = (if dst = 2 then 0x88 + certLen else 0x88) → zeroAt p 1 7 = true → (dst ≠ 2 → zeroAt p 8 32 = true) →
    (dst ≠ 1 → zeroAt p 0x28 96 = true) →
    (s.spareRowsFree < (if dst = 3 then 2 else 4) →
      exec (.lcTransition h p) s = .next ((s.acceptSeq w h).answer w h 0x0601 (s.devIndex w.k) stHwFault 0 [])) ∧
    ((if dst = 3 then 2 else 4) ≤ s.spareRowsFree → s.hasSlot w h 0x0601 → s.Accepts h 0x0601 p w)
end

