-- ==== Sys2Proof/Laws/Tables.lean ====
section
/-! SUPPORT. Laws of finite tables and byte memories: what reading gives after a write, and that every operation keeps
the canonical form. -/
namespace Sys2Proof.Machine

variable {α : Type}

theorem Tab.get_insert (d : α) (k : Nat) (v : α) (t : Tab α) (j : Nat) (h : ∀ p ∈ t, p.1 ≠ k) :
    Tab.get d (Tab.insert k v t) j = if j = k then v else Tab.get d t j := by
  induction t with
  | nil => simp [Tab.insert, Tab.get]
  | cons p t ih =>
    obtain ⟨k', v'⟩ := p
    have hk : k' ≠ k := h (k', v') (by simp)
    simp only [Tab.insert]
    split
    · simp [Tab.get]
    · simp only [Tab.get]
      rw [ih (fun q hq => h q (by simp [hq]))]
      by_cases hj : j = k' <;> by_cases hj2 : j = k <;> simp_all

theorem Tab.get_erase (d : α) (t : Tab α) (k j : Nat) :
    Tab.get d (Tab.erase t k) j = if j = k then d else Tab.get d t j := by
  induction t with
  | nil => simp [Tab.erase, Tab.get]
  | cons p t ih =>
    obtain ⟨k', v'⟩ := p
    unfold Tab.erase at ih ⊢
    by_cases hk : k' = k
    · subst hk; simp only [List.filter, ne_eq, not_true, decide_false, ih, Tab.get]; split <;> rfl
    · simp only [List.filter, ne_eq, hk, not_false_eq_true, decide_true, Tab.get, ih]
      by_cases hj : j = k' <;> by_cases hj2 : j = k <;> simp_all

theorem Tab.erase_ne (t : Tab α) (k : Nat) : ∀ p ∈ Tab.erase t k, p.1 ≠ k := by
  intro p hp; simpa [Tab.erase] using (List.mem_filter.mp hp).2

/-- What a table reads after one value is replaced. -/
theorem Tab.get_set [DecidableEq α] (d : α) (t : Tab α) (k : Nat) (v : α) (j : Nat) :
    Tab.get d (Tab.set d t k v) j = if j = k then v else Tab.get d t j := by
  unfold Tab.set
  split
  · subst_vars; exact Tab.get_erase _ t k j
  · rw [Tab.get_insert d k v _ j (Tab.erase_ne t k), Tab.get_erase]; split <;> rfl

@[simp] theorem Tab.get_set_same [DecidableEq α] (d : α) (t : Tab α) (k : Nat) (v : α) :
    Tab.get d (Tab.set d t k v) k = v := by simp [Tab.get_set]

theorem Tab.get_set_other [DecidableEq α] (d : α) (t : Tab α) (k : Nat) (v : α) (j : Nat) (h : j ≠ k) :
    Tab.get d (Tab.set d t k v) j = Tab.get d t j := by simp [Tab.get_set, h]

theorem Tab.erase_insert (k : Nat) (v : α) (t : Tab α) : Tab.erase (Tab.insert k v t) k = Tab.erase t k := by
  induction t with
  | nil => simp [Tab.insert, Tab.erase]
  | cons p t ih =>
    obtain ⟨k', v'⟩ := p
    unfold Tab.erase at ih ⊢
    simp only [Tab.insert]
    split
    · simp
    · rw [List.filter_cons, List.filter_cons, ih]

theorem Tab.erase_erase (t : Tab α) (k : Nat) : Tab.erase (Tab.erase t k) k = Tab.erase t k := by
  simp [Tab.erase]

/-- Of two writes to one key the last stands. -/
@[simp] theorem Tab.set_set [DecidableEq α] (d : α) (t : Tab α) (k : Nat) (v w : α) :
    Tab.set d (Tab.set d t k v) k w = Tab.set d t k w := by
  have h : Tab.erase (Tab.set d t k v) k = Tab.erase t k := by
    unfold Tab.set; split
    · exact Tab.erase_erase t k
    · rw [Tab.erase_insert, Tab.erase_erase]
  unfold Tab.set at h ⊢; rw [h]

/-- Every key of a canonical table's tail is greater than its head's. -/
theorem Tab.wf_cons [DecidableEq α] (d : α) (k : Nat) (v : α) (t : Tab α) :
    Tab.wf d ((k, v) :: t) = true ↔ v ≠ d ∧ (∀ p ∈ t, k < p.1) ∧ Tab.wf d t = true := by
  simp [Tab.wf, and_assoc]

theorem Tab.wf_filter [DecidableEq α] (d : α) (t : Tab α) (f : Nat × α → Bool) (h : Tab.wf d t = true) :
    Tab.wf d (t.filter f) = true := by
  induction t with
  | nil => rfl
  | cons p t ih =>
    obtain ⟨k, v⟩ := p
    rw [Tab.wf_cons] at h
    rw [List.filter_cons]
    split
    · rw [Tab.wf_cons]; exact ⟨h.1, fun q hq => h.2.1 q (List.mem_filter.mp hq).1, ih h.2.2⟩
    · exact ih h.2.2

theorem Tab.mem_insert (k : Nat) (v : α) (t : Tab α) (p : Nat × α) (hp : p ∈ Tab.insert k v t) : p = (k, v) ∨ p ∈ t := by
  induction t with
  | nil => left; simpa [Tab.insert] using hp
  | cons q t ih =>
    obtain ⟨k', v'⟩ := q
    simp only [Tab.insert] at hp
    split at hp
    · simpa using hp
    · rcases List.mem_cons.mp hp with h | h
      · right; simp [h]
      · rcases ih h with h | h
        · exact .inl h
        · right; simp [h]

theorem Tab.wf_insert [DecidableEq α] (d : α) (k : Nat) (v : α) (t : Tab α) (hv : v ≠ d) (hk : ∀ p ∈ t, p.1 ≠ k)
    (h : Tab.wf d t = true) : Tab.wf d (Tab.insert k v t) = true := by
  induction t with
  | nil => simp [Tab.insert, Tab.wf, hv]
  | cons p t ih =>
    obtain ⟨k', v'⟩ := p
    have hw := (Tab.wf_cons d k' v' t).mp h
    simp only [Tab.insert]
    split
    · rename_i hlt
      rw [Tab.wf_cons]
      refine ⟨hv, fun p hp => ?_, h⟩
      rcases List.mem_cons.mp hp with e | e
      · rw [e]; exact hlt
      · exact Nat.lt_trans hlt (hw.2.1 p e)
    · rename_i hlt
      rw [Tab.wf_cons]
      refine ⟨hw.1, fun p hp => ?_, ih (fun q hq => hk q (by simp [hq])) hw.2.2⟩
      have hne := hk (k', v') (by simp)
      rcases Tab.mem_insert k v t p hp with e | e
      · rw [e]; simp only at hne ⊢; omega
      · exact hw.2.1 p e

/-- Replacing one value keeps the canonical form. -/
theorem Tab.wf_set [DecidableEq α] (d : α) (t : Tab α) (k : Nat) (v : α) (h : Tab.wf d t = true) :
    Tab.wf d (Tab.set d t k v) = true := by
  unfold Tab.set
  split
  · exact Tab.wf_filter d t _ h
  · rename_i hv; exact Tab.wf_insert d k v _ hv (Tab.erase_ne t k) (Tab.wf_filter d t _ h)

theorem Tab.wf_upd [DecidableEq α] (d : α) (t : Tab α) (k : Nat) (f : α → α) (h : Tab.wf d t = true) :
    Tab.wf d (Tab.upd d t k f) = true := Tab.wf_set d t k _ h

theorem Tab.block_keys [DecidableEq α] (d : α) (vs : List α) (base : Nat) :
    ∀ p ∈ Tab.block d base vs, base ≤ p.1 ∧ p.1 < base + vs.length := by
  induction vs generalizing base with
  | nil => simp [Tab.block]
  | cons v vs ih =>
    intro p hp
    simp only [Tab.block] at hp
    split at hp
    · have := ih (base + 1) p hp; simp only [List.length_cons]; omega
    · rcases List.mem_cons.mp hp with e | e
      · rw [e]; simp
      · have := ih (base + 1) p e; simp only [List.length_cons]; omega

theorem Tab.wf_block [DecidableEq α] (d : α) (vs : List α) (base : Nat) : Tab.wf d (Tab.block d base vs) = true := by
  induction vs generalizing base with
  | nil => rfl
  | cons v vs ih =>
    simp only [Tab.block]
    split
    · exact ih _
    · rename_i hv
      rw [Tab.wf_cons]
      exact ⟨hv, fun p hp => by have := Tab.block_keys d vs (base + 1) p hp; omega, ih _⟩

theorem Tab.wf_append [DecidableEq α] (d : α) (a b : Tab α) (ha : Tab.wf d a = true) (hb : Tab.wf d b = true)
    (h : ∀ p ∈ a, ∀ q ∈ b, p.1 < q.1) : Tab.wf d (a ++ b) = true := by
  induction a with
  | nil => simpa using hb
  | cons p a ih =>
    obtain ⟨k, v⟩ := p
    have hw := (Tab.wf_cons d k v a).mp ha
    rw [List.cons_append, Tab.wf_cons]
    refine ⟨hw.1, fun q hq => ?_, ih hw.2.2 (fun p hp q hq => h p (by simp [hp]) q hq)⟩
    rcases List.mem_append.mp hq with e | e
    · exact hw.2.1 q e
    · exact h (k, v) (by simp) q e

/-- Overwriting a run of keys keeps the canonical form. -/
theorem Tab.wf_setRun [DecidableEq α] (d : α) (t : Tab α) (base : Nat) (vs : List α) (h : Tab.wf d t = true) :
    Tab.wf d (Tab.setRun d t base vs) = true := by
  unfold Tab.setRun
  refine Tab.wf_append d _ _ (Tab.wf_append d _ _ (Tab.wf_filter d t _ h) (Tab.wf_block d vs base) ?_) (Tab.wf_filter d t _ h) ?_
  · intro p hp q hq
    have h1 := (List.mem_filter.mp hp).2
    have h2 := Tab.block_keys d vs base q hq
    simp only [decide_eq_true_eq] at h1; omega
  · intro p hp q hq
    have h2 := (List.mem_filter.mp hq).2
    simp only [decide_eq_true_eq] at h2
    rcases List.mem_append.mp hp with e | e
    · have h1 := (List.mem_filter.mp e).2
      simp only [decide_eq_true_eq] at h1; omega
    · have := Tab.block_keys d vs base p e; omega

/-- Every operation on a byte memory keeps its canonical form. -/
theorem Mem.wf_write (m : Mem) (a : Nat) (b : Byte) (h : m.wf = true) : (m.write a b).wf = true := Tab.wf_set 0 m a b h
theorem Mem.wf_store (m : Mem) (a : Nat) (bs : List Byte) (h : m.wf = true) : (m.store a bs).wf = true :=
  Tab.wf_setRun 0 m a bs h
theorem Mem.wf_empty : Mem.wf [] = true := rfl

/-- The byte written is read back, and every other byte reads as before. -/
theorem Mem.read_write (m : Mem) (a : Nat) (b : Byte) (j : Nat) :
    (m.write a b).read j = if j = a then b else m.read j := Tab.get_set 0 m a b j

theorem Tab.get_append (d : α) (a b : Tab α) (k : Nat) :
    Tab.get d (a ++ b) k = if Tab.has a k then Tab.get d a k else Tab.get d b k := by
  induction a with
  | nil => simp [Tab.has]
  | cons p a ih =>
    obtain ⟨k', v'⟩ := p
    simp only [List.cons_append, Tab.get, ih]
    by_cases hk : k = k'
    · subst hk; simp [Tab.has]
    · have h2 : Tab.has ((k', v') :: a) k = Tab.has a k := by simp [Tab.has, Ne.symm hk]
      simp [hk, h2]

theorem Tab.get_of_not_has (d : α) (t : Tab α) (k : Nat) (h : Tab.has t k = false) : Tab.get d t k = d := by
  induction t with
  | nil => rfl
  | cons p t ih =>
    obtain ⟨k', v'⟩ := p
    simp only [Tab.has, List.any_cons, Bool.or_eq_false_iff, beq_eq_false_iff_ne] at h
    simp only [Tab.get, Ne.symm h.1, if_false]
    exact ih (by simpa [Tab.has] using h.2)

theorem Tab.get_filter (d : α) (t : Tab α) (f : Nat → Bool) (k : Nat) :
    Tab.get d (t.filter (fun p => f p.1)) k = if f k then Tab.get d t k else d := by
  induction t with
  | nil => simp [Tab.get]
  | cons p t ih =>
    obtain ⟨k', v'⟩ := p
    rw [List.filter_cons]
    by_cases hf : f k' = true
    · simp only [hf, if_true, Tab.get, ih]
      by_cases hk : k = k'
      · subst hk; simp [hf]
      · simp [hk]
    · simp only [hf, Bool.false_eq_true, if_false, ih, Tab.get]
      by_cases hk : k = k'
      · subst hk; simp [hf]
      · simp [hk]

theorem Tab.get_block [DecidableEq α] (d : α) (vs : List α) (base k : Nat) :
    Tab.get d (Tab.block d base vs) k = if base ≤ k ∧ k < base + vs.length then vs.getD (k - base) d else d := by
  induction vs generalizing base with
  | nil => simp [Tab.block, Tab.get]
  | cons v vs ih =>
    have key : Tab.get d (Tab.block d base (v :: vs)) k = if k = base then v else Tab.get d (Tab.block d (base + 1) vs) k := by
      simp only [Tab.block]
      split
      · rename_i hv
        by_cases hk : k = base
        · subst hk; rw [ih]; simp [hv]
        · simp [hk]
      · simp [Tab.get]
    rw [key, ih]
    by_cases hk : k = base
    · subst hk; simp
    · by_cases h1 : base + 1 ≤ k ∧ k < base + 1 + vs.length
      · have h2 : base ≤ k ∧ k < base + (v :: vs).length := by simp only [List.length_cons]; omega
        have h3 : k - base = (k - (base + 1)) + 1 := by omega
        rw [if_neg hk, if_pos h1, if_pos h2, h3, List.getD_cons_succ]
      · have h2 : ¬(base ≤ k ∧ k < base + (v :: vs).length) := by simp only [List.length_cons]; omega
        rw [if_neg hk, if_neg h1, if_neg h2]

/-- What a table reads after a run of keys is overwritten. -/
theorem Tab.get_setRun [DecidableEq α] (d : α) (t : Tab α) (base : Nat) (vs : List α) (k : Nat) :
    Tab.get d (Tab.setRun d t base vs) k
      = if base ≤ k ∧ k < base + vs.length then vs.getD (k - base) d else Tab.get d t k := by
  unfold Tab.setRun
  have hA : Tab.get d (t.filter (fun p => decide (p.1 < base))) k = if k < base then Tab.get d t k else d := by
    simpa using Tab.get_filter d t (fun j => decide (j < base)) k
  have hC : Tab.get d (t.filter (fun p => decide (base + vs.length ≤ p.1))) k
      = if base + vs.length ≤ k then Tab.get d t k else d := by
    simpa using Tab.get_filter d t (fun j => decide (base + vs.length ≤ j)) k
  have hB := Tab.get_block d vs base k
  have nB : ¬(base ≤ k ∧ k < base + vs.length) → Tab.has (Tab.block d base vs) k = false := by
    intro hn
    by_contra hh
    simp only [Bool.not_eq_false, Tab.has, List.any_eq_true, beq_iff_eq] at hh
    obtain ⟨p, hp, e⟩ := hh
    exact hn (e ▸ Tab.block_keys d vs base p hp)
  rw [List.append_assoc, Tab.get_append]
  by_cases hin : base ≤ k ∧ k < base + vs.length
  · have nA : Tab.has (t.filter (fun p => decide (p.1 < base))) k = false := by
      by_contra hh
      simp only [Bool.not_eq_false, Tab.has, List.any_eq_true, beq_iff_eq] at hh
      obtain ⟨p, hp, e⟩ := hh
      have := (List.mem_filter.mp hp).2
      simp only [decide_eq_true_eq] at this; omega
    rw [nA, Tab.get_append]
    simp only [Bool.false_eq_true, if_false, hin]
    by_cases hb : Tab.has (Tab.block d base vs) k = true
    · rw [hb, hB]; simp [hin]
    · have hb' : Tab.has (Tab.block d base vs) k = false := by simpa using hb
      rw [hb', hC]
      have h0 := Tab.get_of_not_has d _ k hb'
      rw [hB] at h0
      simp only [hin, and_self, if_true] at h0
      have : ¬ base + vs.length ≤ k := by omega
      rw [if_neg this, h0]
      simp
  · rw [Tab.get_append, nB hin]
    simp only [Bool.false_eq_true, if_false, hin]
    by_cases hb : Tab.has (t.filter (fun p => decide (p.1 < base))) k = true
    · rw [hb, hA]
      have hk : k < base := by
        simp only [Tab.has, List.any_eq_true, beq_iff_eq] at hb
        obtain ⟨p, hp, e⟩ := hb
        have := (List.mem_filter.mp hp).2
        simp only [decide_eq_true_eq] at this; omega
      simp [hk]
    · have hb' : Tab.has (t.filter (fun p => decide (p.1 < base))) k = false := by simpa using hb
      rw [hb', hC]
      by_cases hc : base + vs.length ≤ k
      · simp [hc]
      · have hk : k < base := by omega
        have h0 := Tab.get_of_not_has d _ k hb'
        rw [hA] at h0
        simp only [hk, if_true] at h0
        simp [hc, h0]

/-- The stored bytes are read back, and every byte outside them reads as before. -/
theorem Mem.read_store (m : Mem) (a : Nat) (bs : List Byte) (j : Nat) :
    (m.store a bs).read j = if a ≤ j ∧ j < a + bs.length then bs.getD (j - a) 0 else m.read j :=
  Tab.get_setRun 0 m a bs j

end Sys2Proof.Machine
end

