-- ==== Sys2Proof/Laws/State.lean ====
section
/-! SUPPORT. What each update of the state and of a core leaves as it was, field by field, and what it makes of its own
field. -/
namespace Sys2Proof.Machine

@[simp] theorem State.setCore_pending (s : State) (k : Nat) (c : Core) : (s.setCore k c).pending = s.pending := rfl
@[simp] theorem State.setCore_seats (s : State) (k : Nat) (c : Core) : (s.setCore k c).seats = s.seats := rfl
@[simp] theorem State.setCore_boxes (s : State) (k : Nat) (c : Core) : (s.setCore k c).boxes = s.boxes := rfl
@[simp] theorem State.setCore_frames (s : State) (k : Nat) (c : Core) : (s.setCore k c).frames = s.frames := rfl
@[simp] theorem State.setCore_taken (s : State) (k : Nat) (c : Core) : (s.setCore k c).taken = s.taken := rfl
@[simp] theorem State.setCore_releasing (s : State) (k : Nat) (c : Core) : (s.setCore k c).releasing = s.releasing := rfl
@[simp] theorem State.setCore_ring (s : State) (k : Nat) (c : Core) : (s.setCore k c).ring = s.ring := rfl
@[simp] theorem State.setCore_reqs (s : State) (k : Nat) (c : Core) : (s.setCore k c).reqs = s.reqs := rfl
@[simp] theorem State.setCore_nextReq (s : State) (k : Nat) (c : Core) : (s.setCore k c).nextReq = s.nextReq := rfl
@[simp] theorem State.setCore_flights (s : State) (k : Nat) (c : Core) : (s.setCore k c).flights = s.flights := rfl
@[simp] theorem State.setCore_nextFlight (s : State) (k : Nat) (c : Core) : (s.setCore k c).nextFlight = s.nextFlight := rfl
@[simp] theorem State.setCore_sess (s : State) (k : Nat) (c : Core) : (s.setCore k c).sess = s.sess := rfl
@[simp] theorem State.setCore_dev (s : State) (k : Nat) (c : Core) : (s.setCore k c).dev = s.dev := rfl
@[simp] theorem State.setCore_fresh (s : State) (k : Nat) (c : Core) : (s.setCore k c).fresh = s.fresh := rfl
@[simp] theorem State.setCore_ms (s : State) (k : Nat) (c : Core) : (s.setCore k c).ms = s.ms := rfl
@[simp] theorem State.setCore_out (s : State) (k : Nat) (c : Core) : (s.setCore k c).out = s.out := rfl
@[simp] theorem State.setSeat_pending (s : State) (k : Nat) (x : Seat) : (s.setSeat k x).pending = s.pending := rfl
@[simp] theorem State.setSeat_cores (s : State) (k : Nat) (x : Seat) : (s.setSeat k x).cores = s.cores := rfl
@[simp] theorem State.setSeat_boxes (s : State) (k : Nat) (x : Seat) : (s.setSeat k x).boxes = s.boxes := rfl
@[simp] theorem State.setSeat_frames (s : State) (k : Nat) (x : Seat) : (s.setSeat k x).frames = s.frames := rfl
@[simp] theorem State.setSeat_taken (s : State) (k : Nat) (x : Seat) : (s.setSeat k x).taken = s.taken := rfl
@[simp] theorem State.setSeat_releasing (s : State) (k : Nat) (x : Seat) : (s.setSeat k x).releasing = s.releasing := rfl
@[simp] theorem State.setSeat_ring (s : State) (k : Nat) (x : Seat) : (s.setSeat k x).ring = s.ring := rfl
@[simp] theorem State.setSeat_reqs (s : State) (k : Nat) (x : Seat) : (s.setSeat k x).reqs = s.reqs := rfl
@[simp] theorem State.setSeat_nextReq (s : State) (k : Nat) (x : Seat) : (s.setSeat k x).nextReq = s.nextReq := rfl
@[simp] theorem State.setSeat_flights (s : State) (k : Nat) (x : Seat) : (s.setSeat k x).flights = s.flights := rfl
@[simp] theorem State.setSeat_nextFlight (s : State) (k : Nat) (x : Seat) : (s.setSeat k x).nextFlight = s.nextFlight := rfl
@[simp] theorem State.setSeat_sess (s : State) (k : Nat) (x : Seat) : (s.setSeat k x).sess = s.sess := rfl
@[simp] theorem State.setSeat_dev (s : State) (k : Nat) (x : Seat) : (s.setSeat k x).dev = s.dev := rfl
@[simp] theorem State.setSeat_fresh (s : State) (k : Nat) (x : Seat) : (s.setSeat k x).fresh = s.fresh := rfl
@[simp] theorem State.setSeat_ms (s : State) (k : Nat) (x : Seat) : (s.setSeat k x).ms = s.ms := rfl
@[simp] theorem State.setSeat_out (s : State) (k : Nat) (x : Seat) : (s.setSeat k x).out = s.out := rfl
@[simp] theorem State.updSeat_pending (s : State) (k : Nat) (f : Seat → Seat) : (s.updSeat k f).pending = s.pending := rfl
@[simp] theorem State.updSeat_cores (s : State) (k : Nat) (f : Seat → Seat) : (s.updSeat k f).cores = s.cores := rfl
@[simp] theorem State.updSeat_boxes (s : State) (k : Nat) (f : Seat → Seat) : (s.updSeat k f).boxes = s.boxes := rfl
@[simp] theorem State.updSeat_frames (s : State) (k : Nat) (f : Seat → Seat) : (s.updSeat k f).frames = s.frames := rfl
@[simp] theorem State.updSeat_taken (s : State) (k : Nat) (f : Seat → Seat) : (s.updSeat k f).taken = s.taken := rfl
@[simp] theorem State.updSeat_releasing (s : State) (k : Nat) (f : Seat → Seat) : (s.updSeat k f).releasing = s.releasing := rfl
@[simp] theorem State.updSeat_ring (s : State) (k : Nat) (f : Seat → Seat) : (s.updSeat k f).ring = s.ring := rfl
@[simp] theorem State.updSeat_reqs (s : State) (k : Nat) (f : Seat → Seat) : (s.updSeat k f).reqs = s.reqs := rfl
@[simp] theorem State.updSeat_nextReq (s : State) (k : Nat) (f : Seat → Seat) : (s.updSeat k f).nextReq = s.nextReq := rfl
@[simp] theorem State.updSeat_flights (s : State) (k : Nat) (f : Seat → Seat) : (s.updSeat k f).flights = s.flights := rfl
@[simp] theorem State.updSeat_nextFlight (s : State) (k : Nat) (f : Seat → Seat) : (s.updSeat k f).nextFlight = s.nextFlight := rfl
@[simp] theorem State.updSeat_sess (s : State) (k : Nat) (f : Seat → Seat) : (s.updSeat k f).sess = s.sess := rfl
@[simp] theorem State.updSeat_dev (s : State) (k : Nat) (f : Seat → Seat) : (s.updSeat k f).dev = s.dev := rfl
@[simp] theorem State.updSeat_fresh (s : State) (k : Nat) (f : Seat → Seat) : (s.updSeat k f).fresh = s.fresh := rfl
@[simp] theorem State.updSeat_ms (s : State) (k : Nat) (f : Seat → Seat) : (s.updSeat k f).ms = s.ms := rfl
@[simp] theorem State.updSeat_out (s : State) (k : Nat) (f : Seat → Seat) : (s.updSeat k f).out = s.out := rfl
@[simp] theorem State.setBox_pending (s : State) (b : Nat) (x : Box) : (s.setBox b x).pending = s.pending := rfl
@[simp] theorem State.setBox_cores (s : State) (b : Nat) (x : Box) : (s.setBox b x).cores = s.cores := rfl
@[simp] theorem State.setBox_seats (s : State) (b : Nat) (x : Box) : (s.setBox b x).seats = s.seats := rfl
@[simp] theorem State.setBox_frames (s : State) (b : Nat) (x : Box) : (s.setBox b x).frames = s.frames := rfl
@[simp] theorem State.setBox_taken (s : State) (b : Nat) (x : Box) : (s.setBox b x).taken = s.taken := rfl
@[simp] theorem State.setBox_releasing (s : State) (b : Nat) (x : Box) : (s.setBox b x).releasing = s.releasing := rfl
@[simp] theorem State.setBox_ring (s : State) (b : Nat) (x : Box) : (s.setBox b x).ring = s.ring := rfl
@[simp] theorem State.setBox_reqs (s : State) (b : Nat) (x : Box) : (s.setBox b x).reqs = s.reqs := rfl
@[simp] theorem State.setBox_nextReq (s : State) (b : Nat) (x : Box) : (s.setBox b x).nextReq = s.nextReq := rfl
@[simp] theorem State.setBox_flights (s : State) (b : Nat) (x : Box) : (s.setBox b x).flights = s.flights := rfl
@[simp] theorem State.setBox_nextFlight (s : State) (b : Nat) (x : Box) : (s.setBox b x).nextFlight = s.nextFlight := rfl
@[simp] theorem State.setBox_sess (s : State) (b : Nat) (x : Box) : (s.setBox b x).sess = s.sess := rfl
@[simp] theorem State.setBox_dev (s : State) (b : Nat) (x : Box) : (s.setBox b x).dev = s.dev := rfl
@[simp] theorem State.setBox_fresh (s : State) (b : Nat) (x : Box) : (s.setBox b x).fresh = s.fresh := rfl
@[simp] theorem State.setBox_ms (s : State) (b : Nat) (x : Box) : (s.setBox b x).ms = s.ms := rfl
@[simp] theorem State.setBox_out (s : State) (b : Nat) (x : Box) : (s.setBox b x).out = s.out := rfl
@[simp] theorem State.updBox_pending (s : State) (b : Nat) (f : Box → Box) : (s.updBox b f).pending = s.pending := rfl
@[simp] theorem State.updBox_cores (s : State) (b : Nat) (f : Box → Box) : (s.updBox b f).cores = s.cores := rfl
@[simp] theorem State.updBox_seats (s : State) (b : Nat) (f : Box → Box) : (s.updBox b f).seats = s.seats := rfl
@[simp] theorem State.updBox_frames (s : State) (b : Nat) (f : Box → Box) : (s.updBox b f).frames = s.frames := rfl
@[simp] theorem State.updBox_taken (s : State) (b : Nat) (f : Box → Box) : (s.updBox b f).taken = s.taken := rfl
@[simp] theorem State.updBox_releasing (s : State) (b : Nat) (f : Box → Box) : (s.updBox b f).releasing = s.releasing := rfl
@[simp] theorem State.updBox_ring (s : State) (b : Nat) (f : Box → Box) : (s.updBox b f).ring = s.ring := rfl
@[simp] theorem State.updBox_reqs (s : State) (b : Nat) (f : Box → Box) : (s.updBox b f).reqs = s.reqs := rfl
@[simp] theorem State.updBox_nextReq (s : State) (b : Nat) (f : Box → Box) : (s.updBox b f).nextReq = s.nextReq := rfl
@[simp] theorem State.updBox_flights (s : State) (b : Nat) (f : Box → Box) : (s.updBox b f).flights = s.flights := rfl
@[simp] theorem State.updBox_nextFlight (s : State) (b : Nat) (f : Box → Box) : (s.updBox b f).nextFlight = s.nextFlight := rfl
@[simp] theorem State.updBox_sess (s : State) (b : Nat) (f : Box → Box) : (s.updBox b f).sess = s.sess := rfl
@[simp] theorem State.updBox_dev (s : State) (b : Nat) (f : Box → Box) : (s.updBox b f).dev = s.dev := rfl
@[simp] theorem State.updBox_fresh (s : State) (b : Nat) (f : Box → Box) : (s.updBox b f).fresh = s.fresh := rfl
@[simp] theorem State.updBox_ms (s : State) (b : Nat) (f : Box → Box) : (s.updBox b f).ms = s.ms := rfl
@[simp] theorem State.updBox_out (s : State) (b : Nat) (f : Box → Box) : (s.updBox b f).out = s.out := rfl
@[simp] theorem State.setSlot_pending (s : State) (k : Nat) (x : KeySlot) : (s.setSlot k x).pending = s.pending := rfl
@[simp] theorem State.setSlot_cores (s : State) (k : Nat) (x : KeySlot) : (s.setSlot k x).cores = s.cores := rfl
@[simp] theorem State.setSlot_seats (s : State) (k : Nat) (x : KeySlot) : (s.setSlot k x).seats = s.seats := rfl
@[simp] theorem State.setSlot_boxes (s : State) (k : Nat) (x : KeySlot) : (s.setSlot k x).boxes = s.boxes := rfl
@[simp] theorem State.setSlot_frames (s : State) (k : Nat) (x : KeySlot) : (s.setSlot k x).frames = s.frames := rfl
@[simp] theorem State.setSlot_taken (s : State) (k : Nat) (x : KeySlot) : (s.setSlot k x).taken = s.taken := rfl
@[simp] theorem State.setSlot_releasing (s : State) (k : Nat) (x : KeySlot) : (s.setSlot k x).releasing = s.releasing := rfl
@[simp] theorem State.setSlot_reqs (s : State) (k : Nat) (x : KeySlot) : (s.setSlot k x).reqs = s.reqs := rfl
@[simp] theorem State.setSlot_nextReq (s : State) (k : Nat) (x : KeySlot) : (s.setSlot k x).nextReq = s.nextReq := rfl
@[simp] theorem State.setSlot_flights (s : State) (k : Nat) (x : KeySlot) : (s.setSlot k x).flights = s.flights := rfl
@[simp] theorem State.setSlot_nextFlight (s : State) (k : Nat) (x : KeySlot) : (s.setSlot k x).nextFlight = s.nextFlight := rfl
@[simp] theorem State.setSlot_sess (s : State) (k : Nat) (x : KeySlot) : (s.setSlot k x).sess = s.sess := rfl
@[simp] theorem State.setSlot_dev (s : State) (k : Nat) (x : KeySlot) : (s.setSlot k x).dev = s.dev := rfl
@[simp] theorem State.setSlot_fresh (s : State) (k : Nat) (x : KeySlot) : (s.setSlot k x).fresh = s.fresh := rfl
@[simp] theorem State.setSlot_ms (s : State) (k : Nat) (x : KeySlot) : (s.setSlot k x).ms = s.ms := rfl
@[simp] theorem State.setSlot_out (s : State) (k : Nat) (x : KeySlot) : (s.setSlot k x).out = s.out := rfl
@[simp] theorem State.setSession_pending (s : State) (k : Nat) (x : Session) : (s.setSession k x).pending = s.pending := rfl
@[simp] theorem State.setSession_cores (s : State) (k : Nat) (x : Session) : (s.setSession k x).cores = s.cores := rfl
@[simp] theorem State.setSession_seats (s : State) (k : Nat) (x : Session) : (s.setSession k x).seats = s.seats := rfl
@[simp] theorem State.setSession_boxes (s : State) (k : Nat) (x : Session) : (s.setSession k x).boxes = s.boxes := rfl
@[simp] theorem State.setSession_frames (s : State) (k : Nat) (x : Session) : (s.setSession k x).frames = s.frames := rfl
@[simp] theorem State.setSession_taken (s : State) (k : Nat) (x : Session) : (s.setSession k x).taken = s.taken := rfl
@[simp] theorem State.setSession_releasing (s : State) (k : Nat) (x : Session) : (s.setSession k x).releasing = s.releasing := rfl
@[simp] theorem State.setSession_ring (s : State) (k : Nat) (x : Session) : (s.setSession k x).ring = s.ring := rfl
@[simp] theorem State.setSession_reqs (s : State) (k : Nat) (x : Session) : (s.setSession k x).reqs = s.reqs := rfl
@[simp] theorem State.setSession_nextReq (s : State) (k : Nat) (x : Session) : (s.setSession k x).nextReq = s.nextReq := rfl
@[simp] theorem State.setSession_flights (s : State) (k : Nat) (x : Session) : (s.setSession k x).flights = s.flights := rfl
@[simp] theorem State.setSession_nextFlight (s : State) (k : Nat) (x : Session) : (s.setSession k x).nextFlight = s.nextFlight := rfl
@[simp] theorem State.setSession_dev (s : State) (k : Nat) (x : Session) : (s.setSession k x).dev = s.dev := rfl
@[simp] theorem State.setSession_fresh (s : State) (k : Nat) (x : Session) : (s.setSession k x).fresh = s.fresh := rfl
@[simp] theorem State.setSession_ms (s : State) (k : Nat) (x : Session) : (s.setSession k x).ms = s.ms := rfl
@[simp] theorem State.setSession_out (s : State) (k : Nat) (x : Session) : (s.setSession k x).out = s.out := rfl
@[simp] theorem State.updSession_pending (s : State) (k : Nat) (f : Session → Session) : (s.updSession k f).pending = s.pending := rfl
@[simp] theorem State.updSession_cores (s : State) (k : Nat) (f : Session → Session) : (s.updSession k f).cores = s.cores := rfl
@[simp] theorem State.updSession_seats (s : State) (k : Nat) (f : Session → Session) : (s.updSession k f).seats = s.seats := rfl
@[simp] theorem State.updSession_boxes (s : State) (k : Nat) (f : Session → Session) : (s.updSession k f).boxes = s.boxes := rfl
@[simp] theorem State.updSession_frames (s : State) (k : Nat) (f : Session → Session) : (s.updSession k f).frames = s.frames := rfl
@[simp] theorem State.updSession_taken (s : State) (k : Nat) (f : Session → Session) : (s.updSession k f).taken = s.taken := rfl
@[simp] theorem State.updSession_releasing (s : State) (k : Nat) (f : Session → Session) : (s.updSession k f).releasing = s.releasing := rfl
@[simp] theorem State.updSession_ring (s : State) (k : Nat) (f : Session → Session) : (s.updSession k f).ring = s.ring := rfl
@[simp] theorem State.updSession_reqs (s : State) (k : Nat) (f : Session → Session) : (s.updSession k f).reqs = s.reqs := rfl
@[simp] theorem State.updSession_nextReq (s : State) (k : Nat) (f : Session → Session) : (s.updSession k f).nextReq = s.nextReq := rfl
@[simp] theorem State.updSession_flights (s : State) (k : Nat) (f : Session → Session) : (s.updSession k f).flights = s.flights := rfl
@[simp] theorem State.updSession_nextFlight (s : State) (k : Nat) (f : Session → Session) : (s.updSession k f).nextFlight = s.nextFlight := rfl
@[simp] theorem State.updSession_dev (s : State) (k : Nat) (f : Session → Session) : (s.updSession k f).dev = s.dev := rfl
@[simp] theorem State.updSession_fresh (s : State) (k : Nat) (f : Session → Session) : (s.updSession k f).fresh = s.fresh := rfl
@[simp] theorem State.updSession_ms (s : State) (k : Nat) (f : Session → Session) : (s.updSession k f).ms = s.ms := rfl
@[simp] theorem State.updSession_out (s : State) (k : Nat) (f : Session → Session) : (s.updSession k f).out = s.out := rfl
@[simp] theorem State.setReq_pending (s : State) (k : Nat) (r : Option Req) : (s.setReq k r).pending = s.pending := rfl
@[simp] theorem State.setReq_cores (s : State) (k : Nat) (r : Option Req) : (s.setReq k r).cores = s.cores := rfl
@[simp] theorem State.setReq_seats (s : State) (k : Nat) (r : Option Req) : (s.setReq k r).seats = s.seats := rfl
@[simp] theorem State.setReq_boxes (s : State) (k : Nat) (r : Option Req) : (s.setReq k r).boxes = s.boxes := rfl
@[simp] theorem State.setReq_frames (s : State) (k : Nat) (r : Option Req) : (s.setReq k r).frames = s.frames := rfl
@[simp] theorem State.setReq_taken (s : State) (k : Nat) (r : Option Req) : (s.setReq k r).taken = s.taken := rfl
@[simp] theorem State.setReq_releasing (s : State) (k : Nat) (r : Option Req) : (s.setReq k r).releasing = s.releasing := rfl
@[simp] theorem State.setReq_ring (s : State) (k : Nat) (r : Option Req) : (s.setReq k r).ring = s.ring := rfl
@[simp] theorem State.setReq_nextReq (s : State) (k : Nat) (r : Option Req) : (s.setReq k r).nextReq = s.nextReq := rfl
@[simp] theorem State.setReq_flights (s : State) (k : Nat) (r : Option Req) : (s.setReq k r).flights = s.flights := rfl
@[simp] theorem State.setReq_nextFlight (s : State) (k : Nat) (r : Option Req) : (s.setReq k r).nextFlight = s.nextFlight := rfl
@[simp] theorem State.setReq_sess (s : State) (k : Nat) (r : Option Req) : (s.setReq k r).sess = s.sess := rfl
@[simp] theorem State.setReq_dev (s : State) (k : Nat) (r : Option Req) : (s.setReq k r).dev = s.dev := rfl
@[simp] theorem State.setReq_fresh (s : State) (k : Nat) (r : Option Req) : (s.setReq k r).fresh = s.fresh := rfl
@[simp] theorem State.setReq_ms (s : State) (k : Nat) (r : Option Req) : (s.setReq k r).ms = s.ms := rfl
@[simp] theorem State.setReq_out (s : State) (k : Nat) (r : Option Req) : (s.setReq k r).out = s.out := rfl
@[simp] theorem State.setFlight_pending (s : State) (k : Nat) (f : Option Flight) : (s.setFlight k f).pending = s.pending := rfl
@[simp] theorem State.setFlight_cores (s : State) (k : Nat) (f : Option Flight) : (s.setFlight k f).cores = s.cores := rfl
@[simp] theorem State.setFlight_seats (s : State) (k : Nat) (f : Option Flight) : (s.setFlight k f).seats = s.seats := rfl
@[simp] theorem State.setFlight_boxes (s : State) (k : Nat) (f : Option Flight) : (s.setFlight k f).boxes = s.boxes := rfl
@[simp] theorem State.setFlight_frames (s : State) (k : Nat) (f : Option Flight) : (s.setFlight k f).frames = s.frames := rfl
@[simp] theorem State.setFlight_taken (s : State) (k : Nat) (f : Option Flight) : (s.setFlight k f).taken = s.taken := rfl
@[simp] theorem State.setFlight_releasing (s : State) (k : Nat) (f : Option Flight) : (s.setFlight k f).releasing = s.releasing := rfl
@[simp] theorem State.setFlight_ring (s : State) (k : Nat) (f : Option Flight) : (s.setFlight k f).ring = s.ring := rfl
@[simp] theorem State.setFlight_reqs (s : State) (k : Nat) (f : Option Flight) : (s.setFlight k f).reqs = s.reqs := rfl
@[simp] theorem State.setFlight_nextReq (s : State) (k : Nat) (f : Option Flight) : (s.setFlight k f).nextReq = s.nextReq := rfl
@[simp] theorem State.setFlight_nextFlight (s : State) (k : Nat) (f : Option Flight) : (s.setFlight k f).nextFlight = s.nextFlight := rfl
@[simp] theorem State.setFlight_sess (s : State) (k : Nat) (f : Option Flight) : (s.setFlight k f).sess = s.sess := rfl
@[simp] theorem State.setFlight_dev (s : State) (k : Nat) (f : Option Flight) : (s.setFlight k f).dev = s.dev := rfl
@[simp] theorem State.setFlight_fresh (s : State) (k : Nat) (f : Option Flight) : (s.setFlight k f).fresh = s.fresh := rfl
@[simp] theorem State.setFlight_ms (s : State) (k : Nat) (f : Option Flight) : (s.setFlight k f).ms = s.ms := rfl
@[simp] theorem State.setFlight_out (s : State) (k : Nat) (f : Option Flight) : (s.setFlight k f).out = s.out := rfl
@[simp] theorem State.updDev_pending (s : State) (f : Dev → Dev) : (s.updDev f).pending = s.pending := rfl
@[simp] theorem State.updDev_cores (s : State) (f : Dev → Dev) : (s.updDev f).cores = s.cores := rfl
@[simp] theorem State.updDev_seats (s : State) (f : Dev → Dev) : (s.updDev f).seats = s.seats := rfl
@[simp] theorem State.updDev_boxes (s : State) (f : Dev → Dev) : (s.updDev f).boxes = s.boxes := rfl
@[simp] theorem State.updDev_frames (s : State) (f : Dev → Dev) : (s.updDev f).frames = s.frames := rfl
@[simp] theorem State.updDev_taken (s : State) (f : Dev → Dev) : (s.updDev f).taken = s.taken := rfl
@[simp] theorem State.updDev_releasing (s : State) (f : Dev → Dev) : (s.updDev f).releasing = s.releasing := rfl
@[simp] theorem State.updDev_ring (s : State) (f : Dev → Dev) : (s.updDev f).ring = s.ring := rfl
@[simp] theorem State.updDev_reqs (s : State) (f : Dev → Dev) : (s.updDev f).reqs = s.reqs := rfl
@[simp] theorem State.updDev_nextReq (s : State) (f : Dev → Dev) : (s.updDev f).nextReq = s.nextReq := rfl
@[simp] theorem State.updDev_flights (s : State) (f : Dev → Dev) : (s.updDev f).flights = s.flights := rfl
@[simp] theorem State.updDev_nextFlight (s : State) (f : Dev → Dev) : (s.updDev f).nextFlight = s.nextFlight := rfl
@[simp] theorem State.updDev_sess (s : State) (f : Dev → Dev) : (s.updDev f).sess = s.sess := rfl
@[simp] theorem State.updDev_fresh (s : State) (f : Dev → Dev) : (s.updDev f).fresh = s.fresh := rfl
@[simp] theorem State.updDev_ms (s : State) (f : Dev → Dev) : (s.updDev f).ms = s.ms := rfl
@[simp] theorem State.updDev_out (s : State) (f : Dev → Dev) : (s.updDev f).out = s.out := rfl
@[simp] theorem State.send_pending (s : State) (m : Out) : (s.send m).pending = s.pending := rfl
@[simp] theorem State.send_cores (s : State) (m : Out) : (s.send m).cores = s.cores := rfl
@[simp] theorem State.send_seats (s : State) (m : Out) : (s.send m).seats = s.seats := rfl
@[simp] theorem State.send_boxes (s : State) (m : Out) : (s.send m).boxes = s.boxes := rfl
@[simp] theorem State.send_frames (s : State) (m : Out) : (s.send m).frames = s.frames := rfl
@[simp] theorem State.send_taken (s : State) (m : Out) : (s.send m).taken = s.taken := rfl
@[simp] theorem State.send_releasing (s : State) (m : Out) : (s.send m).releasing = s.releasing := rfl
@[simp] theorem State.send_ring (s : State) (m : Out) : (s.send m).ring = s.ring := rfl
@[simp] theorem State.send_reqs (s : State) (m : Out) : (s.send m).reqs = s.reqs := rfl
@[simp] theorem State.send_nextReq (s : State) (m : Out) : (s.send m).nextReq = s.nextReq := rfl
@[simp] theorem State.send_flights (s : State) (m : Out) : (s.send m).flights = s.flights := rfl
@[simp] theorem State.send_nextFlight (s : State) (m : Out) : (s.send m).nextFlight = s.nextFlight := rfl
@[simp] theorem State.send_sess (s : State) (m : Out) : (s.send m).sess = s.sess := rfl
@[simp] theorem State.send_dev (s : State) (m : Out) : (s.send m).dev = s.dev := rfl
@[simp] theorem State.send_fresh (s : State) (m : Out) : (s.send m).fresh = s.fresh := rfl
@[simp] theorem State.send_ms (s : State) (m : Out) : (s.send m).ms = s.ms := rfl
@[simp] theorem State.setCore_seat (s : State) (k : Nat) (c : Core) (j : Nat) : (s.setCore k c).seat j = s.seat j := rfl
@[simp] theorem State.setCore_box (s : State) (k : Nat) (c : Core) (j : Nat) : (s.setCore k c).box j = s.box j := rfl
@[simp] theorem State.setCore_slot (s : State) (k : Nat) (c : Core) (j : Nat) : (s.setCore k c).slot j = s.slot j := rfl
@[simp] theorem State.setCore_session (s : State) (k : Nat) (c : Core) (j : Nat) : (s.setCore k c).session j = s.session j := rfl
@[simp] theorem State.setCore_req (s : State) (k : Nat) (c : Core) (j : Nat) : (s.setCore k c).req j = s.req j := rfl
@[simp] theorem State.setCore_flight (s : State) (k : Nat) (c : Core) (j : Nat) : (s.setCore k c).flight j = s.flight j := rfl
@[simp] theorem State.setCore_eth (s : State) (k : Nat) (c : Core) (j : Nat) : (s.setCore k c).eth j = s.eth j := rfl
@[simp] theorem State.setCore_fab (s : State) (k : Nat) (c : Core) (j : Nat) : (s.setCore k c).fab j = s.fab j := rfl
@[simp] theorem State.setCore_nvs (s : State) (k : Nat) (c : Core) (j : Nat) : (s.setCore k c).nvs j = s.nvs j := rfl
@[simp] theorem State.setSeat_core (s : State) (k : Nat) (x : Seat) (j : Nat) : (s.setSeat k x).core j = s.core j := rfl
@[simp] theorem State.setSeat_box (s : State) (k : Nat) (x : Seat) (j : Nat) : (s.setSeat k x).box j = s.box j := rfl
@[simp] theorem State.setSeat_slot (s : State) (k : Nat) (x : Seat) (j : Nat) : (s.setSeat k x).slot j = s.slot j := rfl
@[simp] theorem State.setSeat_session (s : State) (k : Nat) (x : Seat) (j : Nat) : (s.setSeat k x).session j = s.session j := rfl
@[simp] theorem State.setSeat_req (s : State) (k : Nat) (x : Seat) (j : Nat) : (s.setSeat k x).req j = s.req j := rfl
@[simp] theorem State.setSeat_flight (s : State) (k : Nat) (x : Seat) (j : Nat) : (s.setSeat k x).flight j = s.flight j := rfl
@[simp] theorem State.setSeat_eth (s : State) (k : Nat) (x : Seat) (j : Nat) : (s.setSeat k x).eth j = s.eth j := rfl
@[simp] theorem State.setSeat_fab (s : State) (k : Nat) (x : Seat) (j : Nat) : (s.setSeat k x).fab j = s.fab j := rfl
@[simp] theorem State.setSeat_nvs (s : State) (k : Nat) (x : Seat) (j : Nat) : (s.setSeat k x).nvs j = s.nvs j := rfl
@[simp] theorem State.updSeat_core (s : State) (k : Nat) (f : Seat → Seat) (j : Nat) : (s.updSeat k f).core j = s.core j := rfl
@[simp] theorem State.updSeat_box (s : State) (k : Nat) (f : Seat → Seat) (j : Nat) : (s.updSeat k f).box j = s.box j := rfl
@[simp] theorem State.updSeat_slot (s : State) (k : Nat) (f : Seat → Seat) (j : Nat) : (s.updSeat k f).slot j = s.slot j := rfl
@[simp] theorem State.updSeat_session (s : State) (k : Nat) (f : Seat → Seat) (j : Nat) : (s.updSeat k f).session j = s.session j := rfl
@[simp] theorem State.updSeat_req (s : State) (k : Nat) (f : Seat → Seat) (j : Nat) : (s.updSeat k f).req j = s.req j := rfl
@[simp] theorem State.updSeat_flight (s : State) (k : Nat) (f : Seat → Seat) (j : Nat) : (s.updSeat k f).flight j = s.flight j := rfl
@[simp] theorem State.updSeat_eth (s : State) (k : Nat) (f : Seat → Seat) (j : Nat) : (s.updSeat k f).eth j = s.eth j := rfl
@[simp] theorem State.updSeat_fab (s : State) (k : Nat) (f : Seat → Seat) (j : Nat) : (s.updSeat k f).fab j = s.fab j := rfl
@[simp] theorem State.updSeat_nvs (s : State) (k : Nat) (f : Seat → Seat) (j : Nat) : (s.updSeat k f).nvs j = s.nvs j := rfl
@[simp] theorem State.setBox_core (s : State) (b : Nat) (x : Box) (j : Nat) : (s.setBox b x).core j = s.core j := rfl
@[simp] theorem State.setBox_seat (s : State) (b : Nat) (x : Box) (j : Nat) : (s.setBox b x).seat j = s.seat j := rfl
@[simp] theorem State.setBox_slot (s : State) (b : Nat) (x : Box) (j : Nat) : (s.setBox b x).slot j = s.slot j := rfl
@[simp] theorem State.setBox_session (s : State) (b : Nat) (x : Box) (j : Nat) : (s.setBox b x).session j = s.session j := rfl
@[simp] theorem State.setBox_req (s : State) (b : Nat) (x : Box) (j : Nat) : (s.setBox b x).req j = s.req j := rfl
@[simp] theorem State.setBox_flight (s : State) (b : Nat) (x : Box) (j : Nat) : (s.setBox b x).flight j = s.flight j := rfl
@[simp] theorem State.setBox_eth (s : State) (b : Nat) (x : Box) (j : Nat) : (s.setBox b x).eth j = s.eth j := rfl
@[simp] theorem State.setBox_fab (s : State) (b : Nat) (x : Box) (j : Nat) : (s.setBox b x).fab j = s.fab j := rfl
@[simp] theorem State.setBox_nvs (s : State) (b : Nat) (x : Box) (j : Nat) : (s.setBox b x).nvs j = s.nvs j := rfl
@[simp] theorem State.updBox_core (s : State) (b : Nat) (f : Box → Box) (j : Nat) : (s.updBox b f).core j = s.core j := rfl
@[simp] theorem State.updBox_seat (s : State) (b : Nat) (f : Box → Box) (j : Nat) : (s.updBox b f).seat j = s.seat j := rfl
@[simp] theorem State.updBox_slot (s : State) (b : Nat) (f : Box → Box) (j : Nat) : (s.updBox b f).slot j = s.slot j := rfl
@[simp] theorem State.updBox_session (s : State) (b : Nat) (f : Box → Box) (j : Nat) : (s.updBox b f).session j = s.session j := rfl
@[simp] theorem State.updBox_req (s : State) (b : Nat) (f : Box → Box) (j : Nat) : (s.updBox b f).req j = s.req j := rfl
@[simp] theorem State.updBox_flight (s : State) (b : Nat) (f : Box → Box) (j : Nat) : (s.updBox b f).flight j = s.flight j := rfl
@[simp] theorem State.updBox_eth (s : State) (b : Nat) (f : Box → Box) (j : Nat) : (s.updBox b f).eth j = s.eth j := rfl
@[simp] theorem State.updBox_fab (s : State) (b : Nat) (f : Box → Box) (j : Nat) : (s.updBox b f).fab j = s.fab j := rfl
@[simp] theorem State.updBox_nvs (s : State) (b : Nat) (f : Box → Box) (j : Nat) : (s.updBox b f).nvs j = s.nvs j := rfl
@[simp] theorem State.setSlot_core (s : State) (k : Nat) (x : KeySlot) (j : Nat) : (s.setSlot k x).core j = s.core j := rfl
@[simp] theorem State.setSlot_seat (s : State) (k : Nat) (x : KeySlot) (j : Nat) : (s.setSlot k x).seat j = s.seat j := rfl
@[simp] theorem State.setSlot_box (s : State) (k : Nat) (x : KeySlot) (j : Nat) : (s.setSlot k x).box j = s.box j := rfl
@[simp] theorem State.setSlot_session (s : State) (k : Nat) (x : KeySlot) (j : Nat) : (s.setSlot k x).session j = s.session j := rfl
@[simp] theorem State.setSlot_req (s : State) (k : Nat) (x : KeySlot) (j : Nat) : (s.setSlot k x).req j = s.req j := rfl
@[simp] theorem State.setSlot_flight (s : State) (k : Nat) (x : KeySlot) (j : Nat) : (s.setSlot k x).flight j = s.flight j := rfl
@[simp] theorem State.setSlot_eth (s : State) (k : Nat) (x : KeySlot) (j : Nat) : (s.setSlot k x).eth j = s.eth j := rfl
@[simp] theorem State.setSlot_fab (s : State) (k : Nat) (x : KeySlot) (j : Nat) : (s.setSlot k x).fab j = s.fab j := rfl
@[simp] theorem State.setSlot_nvs (s : State) (k : Nat) (x : KeySlot) (j : Nat) : (s.setSlot k x).nvs j = s.nvs j := rfl
@[simp] theorem State.setSession_core (s : State) (k : Nat) (x : Session) (j : Nat) : (s.setSession k x).core j = s.core j := rfl
@[simp] theorem State.setSession_seat (s : State) (k : Nat) (x : Session) (j : Nat) : (s.setSession k x).seat j = s.seat j := rfl
@[simp] theorem State.setSession_box (s : State) (k : Nat) (x : Session) (j : Nat) : (s.setSession k x).box j = s.box j := rfl
@[simp] theorem State.setSession_slot (s : State) (k : Nat) (x : Session) (j : Nat) : (s.setSession k x).slot j = s.slot j := rfl
@[simp] theorem State.setSession_req (s : State) (k : Nat) (x : Session) (j : Nat) : (s.setSession k x).req j = s.req j := rfl
@[simp] theorem State.setSession_flight (s : State) (k : Nat) (x : Session) (j : Nat) : (s.setSession k x).flight j = s.flight j := rfl
@[simp] theorem State.setSession_eth (s : State) (k : Nat) (x : Session) (j : Nat) : (s.setSession k x).eth j = s.eth j := rfl
@[simp] theorem State.setSession_fab (s : State) (k : Nat) (x : Session) (j : Nat) : (s.setSession k x).fab j = s.fab j := rfl
@[simp] theorem State.setSession_nvs (s : State) (k : Nat) (x : Session) (j : Nat) : (s.setSession k x).nvs j = s.nvs j := rfl
@[simp] theorem State.updSession_core (s : State) (k : Nat) (f : Session → Session) (j : Nat) : (s.updSession k f).core j = s.core j := rfl
@[simp] theorem State.updSession_seat (s : State) (k : Nat) (f : Session → Session) (j : Nat) : (s.updSession k f).seat j = s.seat j := rfl
@[simp] theorem State.updSession_box (s : State) (k : Nat) (f : Session → Session) (j : Nat) : (s.updSession k f).box j = s.box j := rfl
@[simp] theorem State.updSession_slot (s : State) (k : Nat) (f : Session → Session) (j : Nat) : (s.updSession k f).slot j = s.slot j := rfl
@[simp] theorem State.updSession_req (s : State) (k : Nat) (f : Session → Session) (j : Nat) : (s.updSession k f).req j = s.req j := rfl
@[simp] theorem State.updSession_flight (s : State) (k : Nat) (f : Session → Session) (j : Nat) : (s.updSession k f).flight j = s.flight j := rfl
@[simp] theorem State.updSession_eth (s : State) (k : Nat) (f : Session → Session) (j : Nat) : (s.updSession k f).eth j = s.eth j := rfl
@[simp] theorem State.updSession_fab (s : State) (k : Nat) (f : Session → Session) (j : Nat) : (s.updSession k f).fab j = s.fab j := rfl
@[simp] theorem State.updSession_nvs (s : State) (k : Nat) (f : Session → Session) (j : Nat) : (s.updSession k f).nvs j = s.nvs j := rfl
@[simp] theorem State.setReq_core (s : State) (k : Nat) (r : Option Req) (j : Nat) : (s.setReq k r).core j = s.core j := rfl
@[simp] theorem State.setReq_seat (s : State) (k : Nat) (r : Option Req) (j : Nat) : (s.setReq k r).seat j = s.seat j := rfl
@[simp] theorem State.setReq_box (s : State) (k : Nat) (r : Option Req) (j : Nat) : (s.setReq k r).box j = s.box j := rfl
@[simp] theorem State.setReq_slot (s : State) (k : Nat) (r : Option Req) (j : Nat) : (s.setReq k r).slot j = s.slot j := rfl
@[simp] theorem State.setReq_session (s : State) (k : Nat) (r : Option Req) (j : Nat) : (s.setReq k r).session j = s.session j := rfl
@[simp] theorem State.setReq_flight (s : State) (k : Nat) (r : Option Req) (j : Nat) : (s.setReq k r).flight j = s.flight j := rfl
@[simp] theorem State.setReq_eth (s : State) (k : Nat) (r : Option Req) (j : Nat) : (s.setReq k r).eth j = s.eth j := rfl
@[simp] theorem State.setReq_fab (s : State) (k : Nat) (r : Option Req) (j : Nat) : (s.setReq k r).fab j = s.fab j := rfl
@[simp] theorem State.setReq_nvs (s : State) (k : Nat) (r : Option Req) (j : Nat) : (s.setReq k r).nvs j = s.nvs j := rfl
@[simp] theorem State.setFlight_core (s : State) (k : Nat) (f : Option Flight) (j : Nat) : (s.setFlight k f).core j = s.core j := rfl
@[simp] theorem State.setFlight_seat (s : State) (k : Nat) (f : Option Flight) (j : Nat) : (s.setFlight k f).seat j = s.seat j := rfl
@[simp] theorem State.setFlight_box (s : State) (k : Nat) (f : Option Flight) (j : Nat) : (s.setFlight k f).box j = s.box j := rfl
@[simp] theorem State.setFlight_slot (s : State) (k : Nat) (f : Option Flight) (j : Nat) : (s.setFlight k f).slot j = s.slot j := rfl
@[simp] theorem State.setFlight_session (s : State) (k : Nat) (f : Option Flight) (j : Nat) : (s.setFlight k f).session j = s.session j := rfl
@[simp] theorem State.setFlight_req (s : State) (k : Nat) (f : Option Flight) (j : Nat) : (s.setFlight k f).req j = s.req j := rfl
@[simp] theorem State.setFlight_eth (s : State) (k : Nat) (f : Option Flight) (j : Nat) : (s.setFlight k f).eth j = s.eth j := rfl
@[simp] theorem State.setFlight_fab (s : State) (k : Nat) (f : Option Flight) (j : Nat) : (s.setFlight k f).fab j = s.fab j := rfl
@[simp] theorem State.setFlight_nvs (s : State) (k : Nat) (f : Option Flight) (j : Nat) : (s.setFlight k f).nvs j = s.nvs j := rfl
@[simp] theorem State.updDev_core (s : State) (f : Dev → Dev) (j : Nat) : (s.updDev f).core j = s.core j := rfl
@[simp] theorem State.updDev_seat (s : State) (f : Dev → Dev) (j : Nat) : (s.updDev f).seat j = s.seat j := rfl
@[simp] theorem State.updDev_box (s : State) (f : Dev → Dev) (j : Nat) : (s.updDev f).box j = s.box j := rfl
@[simp] theorem State.updDev_slot (s : State) (f : Dev → Dev) (j : Nat) : (s.updDev f).slot j = s.slot j := rfl
@[simp] theorem State.updDev_session (s : State) (f : Dev → Dev) (j : Nat) : (s.updDev f).session j = s.session j := rfl
@[simp] theorem State.updDev_req (s : State) (f : Dev → Dev) (j : Nat) : (s.updDev f).req j = s.req j := rfl
@[simp] theorem State.updDev_flight (s : State) (f : Dev → Dev) (j : Nat) : (s.updDev f).flight j = s.flight j := rfl
@[simp] theorem State.send_core (s : State) (m : Out) (j : Nat) : (s.send m).core j = s.core j := rfl
@[simp] theorem State.send_seat (s : State) (m : Out) (j : Nat) : (s.send m).seat j = s.seat j := rfl
@[simp] theorem State.send_box (s : State) (m : Out) (j : Nat) : (s.send m).box j = s.box j := rfl
@[simp] theorem State.send_slot (s : State) (m : Out) (j : Nat) : (s.send m).slot j = s.slot j := rfl
@[simp] theorem State.send_session (s : State) (m : Out) (j : Nat) : (s.send m).session j = s.session j := rfl
@[simp] theorem State.send_req (s : State) (m : Out) (j : Nat) : (s.send m).req j = s.req j := rfl
@[simp] theorem State.send_flight (s : State) (m : Out) (j : Nat) : (s.send m).flight j = s.flight j := rfl
@[simp] theorem State.send_eth (s : State) (m : Out) (j : Nat) : (s.send m).eth j = s.eth j := rfl
@[simp] theorem State.send_fab (s : State) (m : Out) (j : Nat) : (s.send m).fab j = s.fab j := rfl
@[simp] theorem State.send_nvs (s : State) (m : Out) (j : Nat) : (s.send m).nvs j = s.nvs j := rfl
theorem State.setCore_core (s : State) (k : Nat) (c : Core) (j : Nat) : (s.setCore k c).core j = if j = k then c else s.core j := Tab.get_set ..
@[simp] theorem State.setCore_core_same (s : State) (k : Nat) (c : Core) : (s.setCore k c).core k = c := Tab.get_set_same ..
theorem State.setSeat_seat (s : State) (k : Nat) (x : Seat) (j : Nat) : (s.setSeat k x).seat j = if j = k then x else s.seat j := Tab.get_set ..
@[simp] theorem State.setSeat_seat_same (s : State) (k : Nat) (x : Seat) : (s.setSeat k x).seat k = x := Tab.get_set_same ..
theorem State.setBox_box (s : State) (k : Nat) (x : Box) (j : Nat) : (s.setBox k x).box j = if j = k then x else s.box j := Tab.get_set ..
@[simp] theorem State.setBox_box_same (s : State) (k : Nat) (x : Box) : (s.setBox k x).box k = x := Tab.get_set_same ..
theorem State.setSlot_slot (s : State) (k : Nat) (x : KeySlot) (j : Nat) : (s.setSlot k x).slot j = if j = k then x else s.slot j := Tab.get_set ..
@[simp] theorem State.setSlot_slot_same (s : State) (k : Nat) (x : KeySlot) : (s.setSlot k x).slot k = x := Tab.get_set_same ..
theorem State.setSession_session (s : State) (k : Nat) (x : Session) (j : Nat) : (s.setSession k x).session j = if j = k then x else s.session j := Tab.get_set ..
@[simp] theorem State.setSession_session_same (s : State) (k : Nat) (x : Session) : (s.setSession k x).session k = x := Tab.get_set_same ..
theorem State.setReq_req (s : State) (k : Nat) (r : Option Req) (j : Nat) : (s.setReq k r).req j = if j = k then r else s.req j := Tab.get_set ..
@[simp] theorem State.setReq_req_same (s : State) (k : Nat) (r : Option Req) : (s.setReq k r).req k = r := Tab.get_set_same ..
theorem State.setFlight_flight (s : State) (k : Nat) (f : Option Flight) (j : Nat) : (s.setFlight k f).flight j = if j = k then f else s.flight j := Tab.get_set ..
@[simp] theorem State.setFlight_flight_same (s : State) (k : Nat) (f : Option Flight) : (s.setFlight k f).flight k = f := Tab.get_set_same ..
theorem State.updSeat_seat (s : State) (k : Nat) (f : Seat → Seat) (j : Nat) : (s.updSeat k f).seat j = if j = k then f (s.seat k) else s.seat j := Tab.get_set ..
@[simp] theorem State.updSeat_seat_same (s : State) (k : Nat) (f : Seat → Seat) : (s.updSeat k f).seat k = f (s.seat k) := Tab.get_set_same ..
theorem State.updBox_box (s : State) (k : Nat) (f : Box → Box) (j : Nat) : (s.updBox k f).box j = if j = k then f (s.box k) else s.box j := Tab.get_set ..
@[simp] theorem State.updBox_box_same (s : State) (k : Nat) (f : Box → Box) : (s.updBox k f).box k = f (s.box k) := Tab.get_set_same ..
theorem State.updSession_session (s : State) (k : Nat) (f : Session → Session) (j : Nat) : (s.updSession k f).session j = if j = k then f (s.session k) else s.session j := Tab.get_set ..
@[simp] theorem State.updSession_session_same (s : State) (k : Nat) (f : Session → Session) : (s.updSession k f).session k = f (s.session k) := Tab.get_set_same ..
@[simp] theorem State.updDev_dev (s : State) (f : Dev → Dev) : (s.updDev f).dev = f s.dev := rfl
@[simp] theorem State.send_out (s : State) (m : Out) : (s.send m).out = s.out ++ [m] := rfl
@[simp] theorem State.setCore_setCore (s : State) (k : Nat) (c d : Core) : (s.setCore k c).setCore k d = s.setCore k d := by
  simp [State.setCore]
@[simp] theorem Core.sset_st (c : Core) (r : Nat) (x : W32) : (c.sset r x).st = c.st := rfl
@[simp] theorem Core.sset_bptr (c : Core) (r : Nat) (x : W32) : (c.sset r x).bptr = c.bptr := rfl
@[simp] theorem Core.sset_loops (c : Core) (r : Nat) (x : W32) : (c.sset r x).loops = c.loops := rfl
@[simp] theorem Core.sset_scyc (c : Core) (r : Nat) (x : W32) : (c.sset r x).scyc = c.scyc := rfl
@[simp] theorem Core.sset_cues (c : Core) (r : Nat) (x : W32) : (c.sset r x).cues = c.cues := rfl
@[simp] theorem Core.sset_stage (c : Core) (r : Nat) (x : W32) : (c.sset r x).stage = c.stage := rfl
@[simp] theorem Core.sset_planes (c : Core) (r : Nat) (x : W32) : (c.sset r x).planes = c.planes := rfl
@[simp] theorem Core.sset_acc (c : Core) (r : Nat) (x : W32) : (c.sset r x).acc = c.acc := rfl
@[simp] theorem Core.sset_recs (c : Core) (r : Nat) (x : W32) : (c.sset r x).recs = c.recs := rfl
@[simp] theorem Core.sset_v (c : Core) (r : Nat) (x : W32) : (c.sset r x).v = c.v := rfl
@[simp] theorem Core.sset_m (c : Core) (r : Nat) (x : W32) : (c.sset r x).m = c.m := rfl
@[simp] theorem Core.sset_vlen (c : Core) (r : Nat) (x : W32) : (c.sset r x).vlen = c.vlen := rfl
@[simp] theorem Core.sset_gs (c : Core) (r : Nat) (x : W32) : (c.sset r x).gs = c.gs := rfl
@[simp] theorem Core.sset_ctxs (c : Core) (r : Nat) (x : W32) : (c.sset r x).ctxs = c.ctxs := rfl
@[simp] theorem Core.sset_now (c : Core) (r : Nat) (x : W32) : (c.sset r x).now = c.now := rfl
@[simp] theorem Core.sset_seq (c : Core) (r : Nat) (x : W32) : (c.sset r x).seq = c.seq := rfl
@[simp] theorem Core.sset_flight (c : Core) (r : Nat) (x : W32) : (c.sset r x).flight = c.flight := rfl
@[simp] theorem Core.sset_toks (c : Core) (r : Nat) (x : W32) : (c.sset r x).toks = c.toks := rfl
@[simp] theorem Core.sset_msgs (c : Core) (r : Nat) (x : W32) : (c.sset r x).msgs = c.msgs := rfl
@[simp] theorem Core.sset_seg (c : Core) (r : Nat) (x : W32) : (c.sset r x).seg = c.seg := rfl
@[simp] theorem Core.sset_heldAt (c : Core) (r : Nat) (x : W32) : (c.sset r x).heldAt = c.heldAt := rfl
@[simp] theorem Core.sset_bundle (c : Core) (r : Nat) (x : W32) : (c.sset r x).bundle = c.bundle := rfl
@[simp] theorem Core.setCue_st (c : Core) (k : Nat) (x : Cue) : (c.setCue k x).st = c.st := rfl
@[simp] theorem Core.setCue_s (c : Core) (k : Nat) (x : Cue) : (c.setCue k x).s = c.s := rfl
@[simp] theorem Core.setCue_bptr (c : Core) (k : Nat) (x : Cue) : (c.setCue k x).bptr = c.bptr := rfl
@[simp] theorem Core.setCue_loops (c : Core) (k : Nat) (x : Cue) : (c.setCue k x).loops = c.loops := rfl
@[simp] theorem Core.setCue_scyc (c : Core) (k : Nat) (x : Cue) : (c.setCue k x).scyc = c.scyc := rfl
@[simp] theorem Core.setCue_stage (c : Core) (k : Nat) (x : Cue) : (c.setCue k x).stage = c.stage := rfl
@[simp] theorem Core.setCue_planes (c : Core) (k : Nat) (x : Cue) : (c.setCue k x).planes = c.planes := rfl
@[simp] theorem Core.setCue_acc (c : Core) (k : Nat) (x : Cue) : (c.setCue k x).acc = c.acc := rfl
@[simp] theorem Core.setCue_recs (c : Core) (k : Nat) (x : Cue) : (c.setCue k x).recs = c.recs := rfl
@[simp] theorem Core.setCue_v (c : Core) (k : Nat) (x : Cue) : (c.setCue k x).v = c.v := rfl
@[simp] theorem Core.setCue_m (c : Core) (k : Nat) (x : Cue) : (c.setCue k x).m = c.m := rfl
@[simp] theorem Core.setCue_vlen (c : Core) (k : Nat) (x : Cue) : (c.setCue k x).vlen = c.vlen := rfl
@[simp] theorem Core.setCue_gs (c : Core) (k : Nat) (x : Cue) : (c.setCue k x).gs = c.gs := rfl
@[simp] theorem Core.setCue_ctxs (c : Core) (k : Nat) (x : Cue) : (c.setCue k x).ctxs = c.ctxs := rfl
@[simp] theorem Core.setCue_now (c : Core) (k : Nat) (x : Cue) : (c.setCue k x).now = c.now := rfl
@[simp] theorem Core.setCue_seq (c : Core) (k : Nat) (x : Cue) : (c.setCue k x).seq = c.seq := rfl
@[simp] theorem Core.setCue_flight (c : Core) (k : Nat) (x : Cue) : (c.setCue k x).flight = c.flight := rfl
@[simp] theorem Core.setCue_toks (c : Core) (k : Nat) (x : Cue) : (c.setCue k x).toks = c.toks := rfl
@[simp] theorem Core.setCue_msgs (c : Core) (k : Nat) (x : Cue) : (c.setCue k x).msgs = c.msgs := rfl
@[simp] theorem Core.setCue_seg (c : Core) (k : Nat) (x : Cue) : (c.setCue k x).seg = c.seg := rfl
@[simp] theorem Core.setCue_heldAt (c : Core) (k : Nat) (x : Cue) : (c.setCue k x).heldAt = c.heldAt := rfl
@[simp] theorem Core.setCue_bundle (c : Core) (k : Nat) (x : Cue) : (c.setCue k x).bundle = c.bundle := rfl
@[simp] theorem Core.setSlot_st (c : Core) (k : Nat) (x : SbSlot) : (c.setSlot k x).st = c.st := rfl
@[simp] theorem Core.setSlot_s (c : Core) (k : Nat) (x : SbSlot) : (c.setSlot k x).s = c.s := rfl
@[simp] theorem Core.setSlot_bptr (c : Core) (k : Nat) (x : SbSlot) : (c.setSlot k x).bptr = c.bptr := rfl
@[simp] theorem Core.setSlot_loops (c : Core) (k : Nat) (x : SbSlot) : (c.setSlot k x).loops = c.loops := rfl
@[simp] theorem Core.setSlot_scyc (c : Core) (k : Nat) (x : SbSlot) : (c.setSlot k x).scyc = c.scyc := rfl
@[simp] theorem Core.setSlot_cues (c : Core) (k : Nat) (x : SbSlot) : (c.setSlot k x).cues = c.cues := rfl
@[simp] theorem Core.setSlot_stage (c : Core) (k : Nat) (x : SbSlot) : (c.setSlot k x).stage = c.stage := rfl
@[simp] theorem Core.setSlot_planes (c : Core) (k : Nat) (x : SbSlot) : (c.setSlot k x).planes = c.planes := rfl
@[simp] theorem Core.setSlot_acc (c : Core) (k : Nat) (x : SbSlot) : (c.setSlot k x).acc = c.acc := rfl
@[simp] theorem Core.setSlot_recs (c : Core) (k : Nat) (x : SbSlot) : (c.setSlot k x).recs = c.recs := rfl
@[simp] theorem Core.setSlot_v (c : Core) (k : Nat) (x : SbSlot) : (c.setSlot k x).v = c.v := rfl
@[simp] theorem Core.setSlot_m (c : Core) (k : Nat) (x : SbSlot) : (c.setSlot k x).m = c.m := rfl
@[simp] theorem Core.setSlot_vlen (c : Core) (k : Nat) (x : SbSlot) : (c.setSlot k x).vlen = c.vlen := rfl
@[simp] theorem Core.setSlot_gs (c : Core) (k : Nat) (x : SbSlot) : (c.setSlot k x).gs = c.gs := rfl
@[simp] theorem Core.setSlot_ctxs (c : Core) (k : Nat) (x : SbSlot) : (c.setSlot k x).ctxs = c.ctxs := rfl
@[simp] theorem Core.setSlot_now (c : Core) (k : Nat) (x : SbSlot) : (c.setSlot k x).now = c.now := rfl
@[simp] theorem Core.setSlot_seq (c : Core) (k : Nat) (x : SbSlot) : (c.setSlot k x).seq = c.seq := rfl
@[simp] theorem Core.setSlot_flight (c : Core) (k : Nat) (x : SbSlot) : (c.setSlot k x).flight = c.flight := rfl
@[simp] theorem Core.setSlot_toks (c : Core) (k : Nat) (x : SbSlot) : (c.setSlot k x).toks = c.toks := rfl
@[simp] theorem Core.setSlot_msgs (c : Core) (k : Nat) (x : SbSlot) : (c.setSlot k x).msgs = c.msgs := rfl
@[simp] theorem Core.setSlot_seg (c : Core) (k : Nat) (x : SbSlot) : (c.setSlot k x).seg = c.seg := rfl
@[simp] theorem Core.setSlot_heldAt (c : Core) (k : Nat) (x : SbSlot) : (c.setSlot k x).heldAt = c.heldAt := rfl
@[simp] theorem Core.setSlot_bundle (c : Core) (k : Nat) (x : SbSlot) : (c.setSlot k x).bundle = c.bundle := rfl
@[simp] theorem Core.setRecord_st (c : Core) (k : Nat) (x : Amax) : (c.setRecord k x).st = c.st := rfl
@[simp] theorem Core.setRecord_s (c : Core) (k : Nat) (x : Amax) : (c.setRecord k x).s = c.s := rfl
@[simp] theorem Core.setRecord_bptr (c : Core) (k : Nat) (x : Amax) : (c.setRecord k x).bptr = c.bptr := rfl
@[simp] theorem Core.setRecord_loops (c : Core) (k : Nat) (x : Amax) : (c.setRecord k x).loops = c.loops := rfl
@[simp] theorem Core.setRecord_scyc (c : Core) (k : Nat) (x : Amax) : (c.setRecord k x).scyc = c.scyc := rfl
@[simp] theorem Core.setRecord_cues (c : Core) (k : Nat) (x : Amax) : (c.setRecord k x).cues = c.cues := rfl
@[simp] theorem Core.setRecord_stage (c : Core) (k : Nat) (x : Amax) : (c.setRecord k x).stage = c.stage := rfl
@[simp] theorem Core.setRecord_planes (c : Core) (k : Nat) (x : Amax) : (c.setRecord k x).planes = c.planes := rfl
@[simp] theorem Core.setRecord_acc (c : Core) (k : Nat) (x : Amax) : (c.setRecord k x).acc = c.acc := rfl
@[simp] theorem Core.setRecord_v (c : Core) (k : Nat) (x : Amax) : (c.setRecord k x).v = c.v := rfl
@[simp] theorem Core.setRecord_m (c : Core) (k : Nat) (x : Amax) : (c.setRecord k x).m = c.m := rfl
@[simp] theorem Core.setRecord_vlen (c : Core) (k : Nat) (x : Amax) : (c.setRecord k x).vlen = c.vlen := rfl
@[simp] theorem Core.setRecord_gs (c : Core) (k : Nat) (x : Amax) : (c.setRecord k x).gs = c.gs := rfl
@[simp] theorem Core.setRecord_ctxs (c : Core) (k : Nat) (x : Amax) : (c.setRecord k x).ctxs = c.ctxs := rfl
@[simp] theorem Core.setRecord_now (c : Core) (k : Nat) (x : Amax) : (c.setRecord k x).now = c.now := rfl
@[simp] theorem Core.setRecord_seq (c : Core) (k : Nat) (x : Amax) : (c.setRecord k x).seq = c.seq := rfl
@[simp] theorem Core.setRecord_flight (c : Core) (k : Nat) (x : Amax) : (c.setRecord k x).flight = c.flight := rfl
@[simp] theorem Core.setRecord_toks (c : Core) (k : Nat) (x : Amax) : (c.setRecord k x).toks = c.toks := rfl
@[simp] theorem Core.setRecord_msgs (c : Core) (k : Nat) (x : Amax) : (c.setRecord k x).msgs = c.msgs := rfl
@[simp] theorem Core.setRecord_seg (c : Core) (k : Nat) (x : Amax) : (c.setRecord k x).seg = c.seg := rfl
@[simp] theorem Core.setRecord_heldAt (c : Core) (k : Nat) (x : Amax) : (c.setRecord k x).heldAt = c.heldAt := rfl
@[simp] theorem Core.setRecord_bundle (c : Core) (k : Nat) (x : Amax) : (c.setRecord k x).bundle = c.bundle := rfl
@[simp] theorem Core.setGen_st (c : Core) (g : Nat) (x : Gen) : (c.setGen g x).st = c.st := rfl
@[simp] theorem Core.setGen_s (c : Core) (g : Nat) (x : Gen) : (c.setGen g x).s = c.s := rfl
@[simp] theorem Core.setGen_bptr (c : Core) (g : Nat) (x : Gen) : (c.setGen g x).bptr = c.bptr := rfl
@[simp] theorem Core.setGen_loops (c : Core) (g : Nat) (x : Gen) : (c.setGen g x).loops = c.loops := rfl
@[simp] theorem Core.setGen_scyc (c : Core) (g : Nat) (x : Gen) : (c.setGen g x).scyc = c.scyc := rfl
@[simp] theorem Core.setGen_cues (c : Core) (g : Nat) (x : Gen) : (c.setGen g x).cues = c.cues := rfl
@[simp] theorem Core.setGen_stage (c : Core) (g : Nat) (x : Gen) : (c.setGen g x).stage = c.stage := rfl
@[simp] theorem Core.setGen_planes (c : Core) (g : Nat) (x : Gen) : (c.setGen g x).planes = c.planes := rfl
@[simp] theorem Core.setGen_acc (c : Core) (g : Nat) (x : Gen) : (c.setGen g x).acc = c.acc := rfl
@[simp] theorem Core.setGen_recs (c : Core) (g : Nat) (x : Gen) : (c.setGen g x).recs = c.recs := rfl
@[simp] theorem Core.setGen_v (c : Core) (g : Nat) (x : Gen) : (c.setGen g x).v = c.v := rfl
@[simp] theorem Core.setGen_m (c : Core) (g : Nat) (x : Gen) : (c.setGen g x).m = c.m := rfl
@[simp] theorem Core.setGen_vlen (c : Core) (g : Nat) (x : Gen) : (c.setGen g x).vlen = c.vlen := rfl
@[simp] theorem Core.setGen_ctxs (c : Core) (g : Nat) (x : Gen) : (c.setGen g x).ctxs = c.ctxs := rfl
@[simp] theorem Core.setGen_now (c : Core) (g : Nat) (x : Gen) : (c.setGen g x).now = c.now := rfl
@[simp] theorem Core.setGen_seq (c : Core) (g : Nat) (x : Gen) : (c.setGen g x).seq = c.seq := rfl
@[simp] theorem Core.setGen_flight (c : Core) (g : Nat) (x : Gen) : (c.setGen g x).flight = c.flight := rfl
@[simp] theorem Core.setGen_toks (c : Core) (g : Nat) (x : Gen) : (c.setGen g x).toks = c.toks := rfl
@[simp] theorem Core.setGen_msgs (c : Core) (g : Nat) (x : Gen) : (c.setGen g x).msgs = c.msgs := rfl
@[simp] theorem Core.setGen_seg (c : Core) (g : Nat) (x : Gen) : (c.setGen g x).seg = c.seg := rfl
@[simp] theorem Core.setGen_heldAt (c : Core) (g : Nat) (x : Gen) : (c.setGen g x).heldAt = c.heldAt := rfl
@[simp] theorem Core.setGen_bundle (c : Core) (g : Nat) (x : Gen) : (c.setGen g x).bundle = c.bundle := rfl
@[simp] theorem Core.setCtx_st (c : Core) (x : Nat) (y : SCtx) : (c.setCtx x y).st = c.st := rfl
@[simp] theorem Core.setCtx_s (c : Core) (x : Nat) (y : SCtx) : (c.setCtx x y).s = c.s := rfl
@[simp] theorem Core.setCtx_bptr (c : Core) (x : Nat) (y : SCtx) : (c.setCtx x y).bptr = c.bptr := rfl
@[simp] theorem Core.setCtx_loops (c : Core) (x : Nat) (y : SCtx) : (c.setCtx x y).loops = c.loops := rfl
@[simp] theorem Core.setCtx_scyc (c : Core) (x : Nat) (y : SCtx) : (c.setCtx x y).scyc = c.scyc := rfl
@[simp] theorem Core.setCtx_cues (c : Core) (x : Nat) (y : SCtx) : (c.setCtx x y).cues = c.cues := rfl
@[simp] theorem Core.setCtx_stage (c : Core) (x : Nat) (y : SCtx) : (c.setCtx x y).stage = c.stage := rfl
@[simp] theorem Core.setCtx_planes (c : Core) (x : Nat) (y : SCtx) : (c.setCtx x y).planes = c.planes := rfl
@[simp] theorem Core.setCtx_acc (c : Core) (x : Nat) (y : SCtx) : (c.setCtx x y).acc = c.acc := rfl
@[simp] theorem Core.setCtx_recs (c : Core) (x : Nat) (y : SCtx) : (c.setCtx x y).recs = c.recs := rfl
@[simp] theorem Core.setCtx_v (c : Core) (x : Nat) (y : SCtx) : (c.setCtx x y).v = c.v := rfl
@[simp] theorem Core.setCtx_m (c : Core) (x : Nat) (y : SCtx) : (c.setCtx x y).m = c.m := rfl
@[simp] theorem Core.setCtx_vlen (c : Core) (x : Nat) (y : SCtx) : (c.setCtx x y).vlen = c.vlen := rfl
@[simp] theorem Core.setCtx_gs (c : Core) (x : Nat) (y : SCtx) : (c.setCtx x y).gs = c.gs := rfl
@[simp] theorem Core.setCtx_now (c : Core) (x : Nat) (y : SCtx) : (c.setCtx x y).now = c.now := rfl
@[simp] theorem Core.setCtx_seq (c : Core) (x : Nat) (y : SCtx) : (c.setCtx x y).seq = c.seq := rfl
@[simp] theorem Core.setCtx_flight (c : Core) (x : Nat) (y : SCtx) : (c.setCtx x y).flight = c.flight := rfl
@[simp] theorem Core.setCtx_toks (c : Core) (x : Nat) (y : SCtx) : (c.setCtx x y).toks = c.toks := rfl
@[simp] theorem Core.setCtx_msgs (c : Core) (x : Nat) (y : SCtx) : (c.setCtx x y).msgs = c.msgs := rfl
@[simp] theorem Core.setCtx_seg (c : Core) (x : Nat) (y : SCtx) : (c.setCtx x y).seg = c.seg := rfl
@[simp] theorem Core.setCtx_heldAt (c : Core) (x : Nat) (y : SCtx) : (c.setCtx x y).heldAt = c.heldAt := rfl
@[simp] theorem Core.setCtx_bundle (c : Core) (x : Nat) (y : SCtx) : (c.setCtx x y).bundle = c.bundle := rfl
@[simp] theorem Core.push_st (c : Core) (key q b : Nat) (op : Micro) : (c.push key q b op).st = c.st := rfl
@[simp] theorem Core.push_s (c : Core) (key q b : Nat) (op : Micro) : (c.push key q b op).s = c.s := rfl
@[simp] theorem Core.push_bptr (c : Core) (key q b : Nat) (op : Micro) : (c.push key q b op).bptr = c.bptr := rfl
@[simp] theorem Core.push_loops (c : Core) (key q b : Nat) (op : Micro) : (c.push key q b op).loops = c.loops := rfl
@[simp] theorem Core.push_scyc (c : Core) (key q b : Nat) (op : Micro) : (c.push key q b op).scyc = c.scyc := rfl
@[simp] theorem Core.push_cues (c : Core) (key q b : Nat) (op : Micro) : (c.push key q b op).cues = c.cues := rfl
@[simp] theorem Core.push_stage (c : Core) (key q b : Nat) (op : Micro) : (c.push key q b op).stage = c.stage := rfl
@[simp] theorem Core.push_planes (c : Core) (key q b : Nat) (op : Micro) : (c.push key q b op).planes = c.planes := rfl
@[simp] theorem Core.push_acc (c : Core) (key q b : Nat) (op : Micro) : (c.push key q b op).acc = c.acc := rfl
@[simp] theorem Core.push_recs (c : Core) (key q b : Nat) (op : Micro) : (c.push key q b op).recs = c.recs := rfl
@[simp] theorem Core.push_v (c : Core) (key q b : Nat) (op : Micro) : (c.push key q b op).v = c.v := rfl
@[simp] theorem Core.push_m (c : Core) (key q b : Nat) (op : Micro) : (c.push key q b op).m = c.m := rfl
@[simp] theorem Core.push_vlen (c : Core) (key q b : Nat) (op : Micro) : (c.push key q b op).vlen = c.vlen := rfl
@[simp] theorem Core.push_gs (c : Core) (key q b : Nat) (op : Micro) : (c.push key q b op).gs = c.gs := rfl
@[simp] theorem Core.push_ctxs (c : Core) (key q b : Nat) (op : Micro) : (c.push key q b op).ctxs = c.ctxs := rfl
@[simp] theorem Core.push_now (c : Core) (key q b : Nat) (op : Micro) : (c.push key q b op).now = c.now := rfl
@[simp] theorem Core.push_seq (c : Core) (key q b : Nat) (op : Micro) : (c.push key q b op).seq = c.seq := rfl
@[simp] theorem Core.push_toks (c : Core) (key q b : Nat) (op : Micro) : (c.push key q b op).toks = c.toks := rfl
@[simp] theorem Core.push_msgs (c : Core) (key q b : Nat) (op : Micro) : (c.push key q b op).msgs = c.msgs := rfl
@[simp] theorem Core.push_seg (c : Core) (key q b : Nat) (op : Micro) : (c.push key q b op).seg = c.seg := rfl
@[simp] theorem Core.push_heldAt (c : Core) (key q b : Nat) (op : Micro) : (c.push key q b op).heldAt = c.heldAt := rfl
@[simp] theorem Core.push_bundle (c : Core) (key q b : Nat) (op : Micro) : (c.push key q b op).bundle = c.bundle := rfl
@[simp] theorem Core.tell_st (c : Core) (x : CMsg) : (c.tell x).st = c.st := rfl
@[simp] theorem Core.tell_s (c : Core) (x : CMsg) : (c.tell x).s = c.s := rfl
@[simp] theorem Core.tell_bptr (c : Core) (x : CMsg) : (c.tell x).bptr = c.bptr := rfl
@[simp] theorem Core.tell_loops (c : Core) (x : CMsg) : (c.tell x).loops = c.loops := rfl
@[simp] theorem Core.tell_scyc (c : Core) (x : CMsg) : (c.tell x).scyc = c.scyc := rfl
@[simp] theorem Core.tell_cues (c : Core) (x : CMsg) : (c.tell x).cues = c.cues := rfl
@[simp] theorem Core.tell_stage (c : Core) (x : CMsg) : (c.tell x).stage = c.stage := rfl
@[simp] theorem Core.tell_planes (c : Core) (x : CMsg) : (c.tell x).planes = c.planes := rfl
@[simp] theorem Core.tell_acc (c : Core) (x : CMsg) : (c.tell x).acc = c.acc := rfl
@[simp] theorem Core.tell_recs (c : Core) (x : CMsg) : (c.tell x).recs = c.recs := rfl
@[simp] theorem Core.tell_v (c : Core) (x : CMsg) : (c.tell x).v = c.v := rfl
@[simp] theorem Core.tell_m (c : Core) (x : CMsg) : (c.tell x).m = c.m := rfl
@[simp] theorem Core.tell_vlen (c : Core) (x : CMsg) : (c.tell x).vlen = c.vlen := rfl
@[simp] theorem Core.tell_gs (c : Core) (x : CMsg) : (c.tell x).gs = c.gs := rfl
@[simp] theorem Core.tell_ctxs (c : Core) (x : CMsg) : (c.tell x).ctxs = c.ctxs := rfl
@[simp] theorem Core.tell_now (c : Core) (x : CMsg) : (c.tell x).now = c.now := rfl
@[simp] theorem Core.tell_seq (c : Core) (x : CMsg) : (c.tell x).seq = c.seq := rfl
@[simp] theorem Core.tell_flight (c : Core) (x : CMsg) : (c.tell x).flight = c.flight := rfl
@[simp] theorem Core.tell_toks (c : Core) (x : CMsg) : (c.tell x).toks = c.toks := rfl
@[simp] theorem Core.tell_seg (c : Core) (x : CMsg) : (c.tell x).seg = c.seg := rfl
@[simp] theorem Core.tell_heldAt (c : Core) (x : CMsg) : (c.tell x).heldAt = c.heldAt := rfl
@[simp] theorem Core.tell_bundle (c : Core) (x : CMsg) : (c.tell x).bundle = c.bundle := rfl
theorem Core.sset_sget (c : Core) (r : Nat) (x : W32) (j : Nat) : (c.sset r x).sget j = if j = r then x else c.sget j := Tab.get_set ..
theorem Core.setGen_gen (c : Core) (g : Nat) (x : Gen) (j : Nat) : (c.setGen g x).gen j = if j = g then x else c.gen j := Tab.get_set ..
theorem Core.setCtx_ctx (c : Core) (k : Nat) (y : SCtx) (j : Nat) : (c.setCtx k y).ctx j = if j = k then y else c.ctx j := Tab.get_set ..
theorem Core.setCue_cue (c : Core) (k : Nat) (x : Cue) (j : Nat) : (c.setCue k x).cue j = if j = k then x else c.cue j := Tab.get_set ..

end Sys2Proof.Machine
end

