-- ==== Sys2Proof/Laws/Slots.lean ====
section
/-! SUPPORT. What a script instruction does on a core that issues with nothing in flight (`State.Quiet`): the bundle of
one slot issues, and the micro-operations that it leaves in flight take effect at their cycles. -/
namespace Sys2Proof.Machine

/-- Micro-operations whose effect is on the core's data alone: they put nothing in flight and never fault. -/
def Micro.leaf : Micro → Bool
  | .sreg .. | .vreg .. | .mreg .. | .vlen .. | .genSet .. | .bind .. | .c0 .. | .plane .. | .accAdd .. | .accSet ..
  | .recAdd .. | .passBank .. => true
  | _ => false

/-- A leaf does not see what else is in flight. -/
theorem Core.micro_flight (e : CEnv) (p : Pend) (c : Core) (L : List Pend) (h : p.op.leaf = true) :
    Core.micro e p { c with flight := L } = { Core.micro e p c with flight := L } := by
  obtain ⟨key, sq, bd, op⟩ := p
  cases op <;> first | rfl | (simp [Micro.leaf] at h; done) | skip
  · simp only [Core.micro]; split <;> rfl

theorem Core.micro_keep (e : CEnv) (p : Pend) (c : Core) (h : p.op.leaf = true) :
    (Core.micro e p c).flight = c.flight ∧ (Core.micro e p c).now = c.now ∧ (Core.micro e p c).st = c.st
      ∧ (Core.micro e p c).bptr = c.bptr ∧ (Core.micro e p c).loops = c.loops ∧ (Core.micro e p c).scyc = c.scyc
      ∧ (Core.micro e p c).msgs = c.msgs := by
  obtain ⟨key, sq, bd, op⟩ := p
  cases op <;> first | (simp [Micro.leaf] at h; done) | skip
  all_goals first
    | exact ⟨rfl, rfl, rfl, rfl, rfl, rfl, rfl⟩
    | (simp only [Core.micro]; split <;> exact ⟨rfl, rfl, rfl, rfl, rfl, rfl, rfl⟩)

/-- Leaves in flight, in order of their keys: those below a limit take effect, the others stay. -/
theorem Core.runFuel_leaves (e : CEnv) (limit : Nat) (L : List Pend) (hl : ∀ p ∈ L, p.op.leaf = true) (fuel : Nat)
    (hf : L.length ≤ fuel) (c : Core) :
    Core.runFuel e limit fuel { c with flight := L }
      = { (L.takeWhile (fun p => decide (p.key < limit))).foldl (fun k p => k.micro e p) c with
          flight := L.dropWhile (fun p => decide (p.key < limit)) } := by
  induction L generalizing fuel c with
  | nil => cases fuel <;> rfl
  | cons p t ih =>
    cases fuel with
    | zero => simp at hf
    | succ fuel =>
      simp only [Core.runFuel]
      by_cases hk : p.key < limit
      · simp only [hk, if_true, decide_true, List.takeWhile_cons, List.dropWhile_cons, List.foldl_cons]
        rw [Core.micro_flight e p c t (hl p (by simp))]
        exact ih (fun q hq => hl q (by simp [hq])) fuel (by simpa using hf) _
      · simp [hk]

theorem Core.weight_pos (p : Pend) : 1 ≤ p.weight := by
  unfold Pend.weight; split <;> omega

theorem Core.length_le_fuel (c : Core) : c.flight.length ≤ c.fuel := by
  unfold Core.fuel
  generalize c.flight = L
  induction L with
  | nil => simp
  | cons p t ih => have := Core.weight_pos p; simp only [List.map_cons, List.sum_cons, List.length_cons]; omega

theorem Core.runTo_leaves (e : CEnv) (limit : Nat) (c : Core) (hl : ∀ p ∈ c.flight, p.op.leaf = true) :
    Core.runTo e limit c
      = { (c.flight.takeWhile (fun p => decide (p.key < limit))).foldl (fun k p => k.micro e p) c with
          flight := c.flight.dropWhile (fun p => decide (p.key < limit)) } :=
  Core.runFuel_leaves e limit c.flight hl c.fuel (Core.length_le_fuel c) c

theorem Core.runTo_empty (e : CEnv) (limit : Nat) (c : Core) (h : c.flight = []) : Core.runTo e limit c = c := by
  have := Core.runTo_leaves e limit c (by simp [h])
  rw [this, h]; simp only [List.takeWhile_nil, List.dropWhile_nil, List.foldl_nil]; rw [← h]

theorem Core.startCycle_empty (e : CEnv) (c : Core) (h : c.flight = []) : Core.startCycle e c = c :=
  Core.runTo_empty e _ c h

theorem holdOf_none (now : Nat) (xs : List ArrAcc) : holdOf now xs [] = none := by
  have h : xs.flatMap (fun _ => ([] : List (Nat × Nat × Nat))) = [] := by simp
  simp only [holdOf, List.filterMap_nil, h, List.foldl_nil]

/-- A core that tells nothing writes no log record, so that no line is read. -/
theorem State.logTiles_nil (s : State) (b num : Nat) : s.logTiles b num [] = [] := by
  unfold State.logTiles; split <;> simp [partTiles]
theorem State.meetTiles_nil (s : State) (b cause unit : Nat) : s.meetTiles b [] cause unit = (s, true) := by
  simp [State.meetTiles, State.meetPlaces]

/-- What the launch of a quiet core tells it is put back as it was. -/
theorem State.putCore_silent (s : State) (b : Nat) (l : Launch) (k : Nat) (c : Core) (hl : (s.box b).launch l.num = some l)
    (hg : l.stop = none) (hm : c.msgs = []) : s.putCore b l.num k c = s.setCore k c := by
  have hc : { c with msgs := [] } = c := by rw [← hm]
  unfold State.putCore State.hearAll
  simp only [hm, State.logTiles_nil, List.any_nil, State.meetTiles_nil, Bool.false_eq_true, if_false, State.setCore_core_same, List.foldl_nil, State.setCore_setCore, hc]
  simp only [State.stopPoints, State.setCore_box, hl, hg, Option.isNone_none, Bool.true_or, if_true]

/-- The core with its bundle's slot issued. -/
def Core.stepped (c : Core) (i : Instr) : Core := ((c.noteAccs [i]).slotEffect i).placed (c.nextOf [i])

/-- Slots that issue without a wait, a stop or a preemption point. -/
def plainSlot : Instr → Bool
  | .cwait .. | .halt .. | .ppoint .. => false
  | _ => true

theorem waitOf_one (i : Instr) (h : plainSlot i = true) : waitOf [i] = none := by
  cases i <;> first | rfl | simp [plainSlot] at h
theorem hasHalt_one (i : Instr) (h : plainSlot i = true) : hasHalt [i] = false := by
  cases i <;> first | rfl | simp [plainSlot] at h
theorem hasPpoint_one (i : Instr) (h : plainSlot i = true) : hasPpoint [i] = false := by
  cases i <;> first | rfl | simp [plainSlot] at h

/-- A bundle of one plain slot commits: its effect, its place, and one cycle. -/
theorem Core.commitPlain_one (e : CEnv) (c : Core) (i : Instr) (hp : plainSlot i = true)
    (hseg : ((c.noteAccs [i]).slotEffect i).seg = none) (hs : ((c.noteAccs [i]).slotEffect i).st = .running)
    (hn : ((c.stepped i).endCycle e).st = .running) : c.commitPlain e [i] = (c.stepped i).endCycle e := by
  have hd : ∀ d : Core, d.seg = none → ({ ({ d with seq := d.seq + 1 } : Core) with
      bptr := (c.nextOf [i]).1 % 2 ^ 14, loops := (c.nextOf [i]).2,
      scyc := if ({ d with seq := d.seq + 1 } : Core).seg.isNone then ({ d with seq := d.seq + 1 } : Core).scyc + 1
        else ({ d with seq := d.seq + 1 } : Core).scyc, bundle := [],
      busy := if ({ d with seq := d.seq + 1 } : Core).seg.isNone then ({ d with seq := d.seq + 1 } : Core).busyAfter
          (({ d with seq := d.seq + 1 } : Core).seq - [i].length)
        else ({ d with seq := d.seq + 1 } : Core).busy } : Core) = d.placed (c.nextOf [i]) := by
    intro d hd; simp only [hd, Option.isNone_none, if_true, Core.placed]; rfl
  have hf : ¬((c.noteAccs [i]).slotEffect i).st = CoreSt.faulted := by rw [hs]; simp
  unfold Core.commitPlain
  simp only [List.foldl_cons, List.foldl_nil, Core.issueSlot, hasHalt_one i hp, hasPpoint_one i hp, Bool.and_false,
    Bool.false_and, Bool.false_eq_true, if_false, hf]
  have h := hd _ hseg
  change Core.settle e (Core.endCycle e _) = _
  unfold Core.stepped at hn ⊢
  rw [← h] at hn ⊢
  simp only [hseg, Option.isNone_none, if_true] at hn ⊢
  rw [Core.settle, if_neg (by rw [hn]; simp)]

/-- A bundle of one plain slot issues on a core with nothing in flight (06:R128). -/
theorem Core.slotIn_one (e : CEnv) (c : Core) (i : Instr) (hp : plainSlot i = true) (st : c.st = .running)
    (flight : c.flight = []) (accs : c.accs = []) (bundle : c.bundle = []) (seg : c.seg = none) (limit : c.scyc < 2 ^ 40) :
    c.slotIn e i true = c.commitPlain e [i] := by
  have hlim : decide (2 ^ 40 ≤ c.scyc) = false := by simpa using limit
  have hi : c.issuing = true := by simp [Core.issuing, st]
  unfold Core.slotIn Core.issueBundle
  simp only [hi, Bool.not_true, Bool.false_eq_true, if_false, if_true, bundle, List.nil_append,
    Core.startCycle_empty _ _ flight, st, reduceCtorEq, seg, Option.isNone_none, Bool.true_and, hlim, accs, holdOf_none,
    waitOf_one i hp, hasHalt_one i hp, Option.isSome_none, Bool.false_and]

/-- The one thing that a plain slot does on a quiet core (06:R128): its bundle issues and one cycle passes. -/
theorem State.submit_quiet (s : State) (k : Fin 128) (b : Nat) (l : Launch) (hq : s.Quiet k b l) (i : Instr)
    (hp : plainSlot i = true) (hseg : (((s.core k.val).noteAccs [i]).slotEffect i).seg = none)
    (hs : (((s.core k.val).noteAccs [i]).slotEffect i).st = .running)
    (hn : (((s.core k.val).stepped i).endCycle ((s.box b).env l k.val)).st = .running)
    (hm : (((s.core k.val).stepped i).endCycle ((s.box b).env l k.val)).msgs = []) :
    s.submit i ⟨k, true⟩ = s.setCore k.val (((s.core k.val).stepped i).endCycle ((s.box b).env l k.val)) := by
  unfold State.submit
  rw [hq.runs]
  simp only
  rw [Core.slotIn_one _ _ i hp hq.st hq.flight hq.accs hq.bundle hq.seg hq.limit,
    Core.commitPlain_one _ _ i hp hseg hs hn]
  exact State.putCore_silent s b l k.val _ hq.sole hq.going hm

/-- A leaf's effect on the data depends on the data alone, and on no launch. -/
theorem Core.micro_data (e e' : CEnv) (p : Pend) (c : Core) (h : p.op.leaf = true) :
    (Core.micro e p c).data = (Core.micro e' p c.data).data := by
  obtain ⟨key, sq, bd, op⟩ := p
  cases op <;> first | rfl | (simp [Micro.leaf] at h; done) | skip
  · simp only [Core.micro]; split <;> rfl

theorem Core.micros_data (e e' : CEnv) (L : List Pend) (hl : ∀ p ∈ L, p.op.leaf = true) (c d : Core) (h : c.data = d.data) :
    (L.foldl (fun k p => Core.micro e p k) c).data = (L.foldl (fun k p => Core.micro e' p k) d).data := by
  induction L generalizing c d with
  | nil => exact h
  | cons p t ih =>
    refine ih (fun q hq => hl q (by simp [hq])) _ _ ?_
    rw [Core.micro_data e e' p c (hl p (by simp)), Core.micro_data e' e' p d (hl p (by simp)), h]

theorem takeWhile_dropWhile_le {α : Type} (f : α → Nat) (a b : Nat) (h : a ≤ b) (L : List α) :
    L.takeWhile (fun p => decide (f p < a)) ++ (L.dropWhile (fun p => decide (f p < a))).takeWhile (fun p => decide (f p < b))
      = L.takeWhile (fun p => decide (f p < b))
    ∧ (L.dropWhile (fun p => decide (f p < a))).dropWhile (fun p => decide (f p < b)) = L.dropWhile (fun p => decide (f p < b)) := by
  induction L with
  | nil => simp
  | cons p t ih =>
    by_cases hp : f p < a
    · have hb : f p < b := by omega
      simp only [List.takeWhile_cons, List.dropWhile_cons, hp, hb, decide_true, if_true, List.cons_append]
      exact ⟨by rw [ih.1], ih.2⟩
    · simp [hp]

theorem Core.micros_now (e : CEnv) (L : List Pend) (hl : ∀ p ∈ L, p.op.leaf = true) (c : Core) :
    (L.foldl (fun k p => Core.micro e p k) c).now = c.now ∧ (L.foldl (fun k p => Core.micro e p k) c).flight = c.flight
      ∧ (L.foldl (fun k p => Core.micro e p k) c).st = c.st ∧ (L.foldl (fun k p => Core.micro e p k) c).bptr = c.bptr
      ∧ (L.foldl (fun k p => Core.micro e p k) c).loops = c.loops ∧ (L.foldl (fun k p => Core.micro e p k) c).scyc = c.scyc
      ∧ (L.foldl (fun k p => Core.micro e p k) c).msgs = c.msgs := by
  induction L generalizing c with
  | nil => exact ⟨rfl, rfl, rfl, rfl, rfl, rfl, rfl⟩
  | cons p t ih =>
    have h1 := ih (fun q hq => hl q (by simp [hq])) (Core.micro e p c)
    have h2 := Core.micro_keep e p c (hl p (by simp))
    simp only [List.foldl_cons]
    rw [h1.1, h1.2.1, h1.2.2.1, h1.2.2.2.1, h1.2.2.2.2.1, h1.2.2.2.2.2.1, h1.2.2.2.2.2.2, h2.1, h2.2.1, h2.2.2.1, h2.2.2.2.1,
      h2.2.2.2.2.1, h2.2.2.2.2.2.1, h2.2.2.2.2.2.2]
    exact ⟨rfl, rfl, rfl, rfl, rfl, rfl, rfl⟩

/-- Cycles pass, up to a phase, on a core with only leaves in flight, in order of their keys: what they leave in flight, and
what of the core outside its data stays. -/
theorem Core.passTo_leaves (e : CEnv) (n ph : Nat) (c : Core) (hl : ∀ p ∈ c.flight, p.op.leaf = true) :
    (c.passTo e n ph).flight = c.flight.dropWhile (fun p => decide (p.key < keyAt (c.now + n) ph))
      ∧ (c.passTo e n ph).now = c.now + n ∧ (c.passTo e n ph).st = c.st ∧ (c.passTo e n ph).bptr = c.bptr
      ∧ (c.passTo e n ph).loops = c.loops ∧ (c.passTo e n ph).scyc = c.scyc ∧ (c.passTo e n ph).msgs = c.msgs
      ∧ ∀ e', (c.passTo e n ph).data
        = ((c.flight.takeWhile (fun p => decide (p.key < keyAt (c.now + n) ph))).foldl (fun k p => k.micro e' p) c).data := by
  have hle : keyAt (c.now + n) 0 ≤ keyAt (c.now + n) ph := by simp [keyAt]
  have hk := takeWhile_dropWhile_le (fun p : Pend => p.key) _ _ hle c.flight
  have h1 : ∀ p ∈ c.flight.takeWhile (fun p => decide (p.key < keyAt (c.now + n) 0)), p.op.leaf = true :=
    fun p hp => hl p ((List.takeWhile_prefix _).subset hp)
  have h2 : ∀ p ∈ c.flight.dropWhile (fun p => decide (p.key < keyAt (c.now + n) 0)), p.op.leaf = true :=
    fun p hp => hl p ((List.dropWhile_suffix _).subset hp)
  have h3 : ∀ p ∈ (c.flight.dropWhile (fun p => decide (p.key < keyAt (c.now + n) 0))).takeWhile
      (fun p => decide (p.key < keyAt (c.now + n) ph)), p.op.leaf = true :=
    fun p hp => h2 p ((List.takeWhile_prefix _).subset hp)
  unfold Core.passTo
  rw [Core.runTo_leaves e _ c hl]
  simp only
  rw [Core.runTo_leaves e _ _ h2]
  simp only
  have m1 := Core.micros_now e _ h1 c
  rw [m1.1]
  have m3 := Core.micros_now e _ h3
    { (c.flight.takeWhile (fun p => decide (p.key < keyAt (c.now + n) 0))).foldl (fun k p => Core.micro e p k) c with
      now := c.now + n, flight := c.flight.dropWhile (fun p => decide (p.key < keyAt (c.now + n) 0)) }
  refine ⟨hk.2, m3.1, m3.2.2.1.trans m1.2.2.1, m3.2.2.2.1.trans m1.2.2.2.1, m3.2.2.2.2.1.trans m1.2.2.2.2.1,
    m3.2.2.2.2.2.1.trans m1.2.2.2.2.2.1, m3.2.2.2.2.2.2.trans m1.2.2.2.2.2.2, fun e' => ?_⟩
  rw [← hk.1, List.foldl_append]
  refine Core.micros_data e e' _ h3 _ _ ?_
  exact Core.micros_data e e' _ h1 c c rfl

/-- A slot that leaves only leaves in flight, in order of their keys, lands them (06:R134, 05:R105). -/
theorem State.lands_leaves (s : State) (k : Fin 128) (b : Nat) (l : Launch) (hq : s.Quiet k b l) (i : Instr)
    (hp : plainSlot i = true) (g : Core → Core) (fs : List (Nat × (Core → Core)))
    (hnx : (s.core k.val).nextOf [i] = endCount (s.core k.val).bptr (s.core k.val).loops)
    (hl : ∀ p ∈ (((s.core k.val).noteAccs [i]).slotEffect i).flight, p.op.leaf = true)
    (hkeep : (((s.core k.val).noteAccs [i]).slotEffect i).seg = none
      ∧ (((s.core k.val).noteAccs [i]).slotEffect i).st = .running
      ∧ (((s.core k.val).noteAccs [i]).slotEffect i).msgs = []
      ∧ (((s.core k.val).noteAccs [i]).slotEffect i).now = (s.core k.val).now
      ∧ (((s.core k.val).noteAccs [i]).slotEffect i).bundle = []
      ∧ (((s.core k.val).noteAccs [i]).slotEffect i).scyc = (s.core k.val).scyc)
    (hg : (((s.core k.val).noteAccs [i]).slotEffect i).data = (g (s.core k.val)).data)
    (hfs : ∀ e n c, ((((s.core k.val).noteAccs [i]).slotEffect i).flight.takeWhile
        (fun p => decide (p.key < keyAt ((s.core k.val).now + (n + 1)) phRead))).foldl (fun c p => Core.micro e p c) c
      = (fs.filter (fun f => decide (f.1 ≤ n + 1))).foldl (fun c f => f.2 c) c) :
    ∃ t, s.submit i ⟨k, true⟩ = t ∧ Lands s t k g fs := by
  obtain ⟨kseg, kst, kmsgs, know, kbundle, kscyc⟩ := hkeep
  let e0 := (s.box b).env l k.val
  let d := (s.core k.val).stepped i
  have dl : ∀ p ∈ d.flight, p.op.leaf = true := hl
  have a1 : (d.endCycle e0).flight = _ ∧ (d.endCycle e0).now = _ ∧ (d.endCycle e0).st = _ ∧ (d.endCycle e0).bptr = _
      ∧ (d.endCycle e0).loops = _ ∧ (d.endCycle e0).scyc = _ ∧ (d.endCycle e0).msgs = _ ∧ ∀ e', (d.endCycle e0).data = _ :=
    Core.passTo_leaves e0 1 phGen d dl
  have hsub := State.submit_quiet s k b l hq i hp kseg kst (a1.2.2.1.trans kst) (a1.2.2.2.2.2.2.1.trans kmsgs)
  refine ⟨_, rfl, ?_⟩
  rw [hsub]
  have hc : (s.setCore k.val (d.endCycle e0)).core k.val = d.endCycle e0 := State.setCore_core_same ..
  refine ⟨⟨by rw [hc], ?_, ?_⟩, fun e n => ?_⟩
  · rw [hc, a1.2.2.2.1, a1.2.2.2.2.1]
    change (((s.core k.val).nextOf [i]).1 % 2 ^ 14, ((s.core k.val).nextOf [i]).2) = _
    rw [hnx]
  · rw [hc, a1.2.2.2.2.2.1]
    change (((s.core k.val).noteAccs [i]).slotEffect i).scyc + 1 = _
    rw [kscyc]
  · rw [hc]
    have l1 : ∀ p ∈ (d.endCycle e0).flight, p.op.leaf = true := by
      rw [a1.1]; exact fun p hp => dl p ((List.dropWhile_suffix _).subset hp)
    have l0 : ∀ p ∈ d.flight.takeWhile (fun p => decide (p.key < keyAt (d.now + 1) phGen)), p.op.leaf = true :=
      fun p hp => dl p ((List.takeWhile_prefix _).subset hp)
    have l2 : ∀ p ∈ (d.endCycle e0).flight.takeWhile (fun p => decide (p.key < keyAt ((d.endCycle e0).now + n) phRead)),
        p.op.leaf = true := fun p hp => l1 p ((List.takeWhile_prefix _).subset hp)
    have a2 : ((d.endCycle e0).advance e n).data = _ := (Core.passTo_leaves e n phRead _ l1).2.2.2.2.2.2.2 e
    rw [a2, Core.micros_data e e _ l2 _ _ (a1.2.2.2.2.2.2.2 e), ← List.foldl_append, a1.1, a1.2.1,
      (takeWhile_dropWhile_le (fun p : Pend => p.key) (keyAt (d.now + 1) phGen) (keyAt (d.now + 1 + n) phRead)
        (by simp only [keyAt, phGen, phRead]; omega) d.flight).1]
    have hn : d.now + 1 + n = (s.core k.val).now + (n + 1) := by
      have : d.now = (s.core k.val).now := know
      omega
    rw [hn]
    have hd : d.data = (g (s.core k.val)).data := by
      rw [← hg]
      have hb : ∀ c : Core, c.bundle = [] → { c with bundle := [] } = c := by intro c h; rw [← h]
      exact hb (((s.core k.val).noteAccs [i]).slotEffect i).data kbundle
    rw [← hfs e n (g (s.core k.val))]
    refine Core.micros_data e e _ (fun p hp => dl p ((List.takeWhile_prefix _).subset hp)) _ _ hd

theorem takeWhile_all {α : Type} (p : α → Bool) (L : List α) (h : ∀ x ∈ L, p x = true) : L.takeWhile p = L := by
  induction L with
  | nil => rfl
  | cons x t ih => simp [h x (by simp), ih (fun y hy => h y (by simp [hy]))]
theorem takeWhile_none {α : Type} (p : α → Bool) (L : List α) (h : ∀ x ∈ L, p x = false) : L.takeWhile p = [] := by
  cases L with
  | nil => rfl
  | cons x t => simp [h x (by simp)]

/-- A slot whose effect is on the core's own registers at once (`g`) and, after `n` cycles, that of leaves in order:
its results, by one function for each leaf. -/
theorem State.does_leaves (s : State) (k : Fin 128) (b : Nat) (l : Launch) (hq : s.Quiet k b l) (i : Instr)
    (hx : exec i s = .next (s.submit i (at1 k))) (hp : plainSlot i = true) (ha : (s.core k.val).accsOf i = [])
    (hnx : (s.core k.val).nextOf [i] = endCount (s.core k.val).bptr (s.core k.val).loops)
    (n ph : Nat) (hph : ph < phRead) (g : Core → Core) (ops : List (Micro × (Core → Core)))
    (hl : ∀ o ∈ ops, o.1.leaf = true ∧ ∀ e p c, p.op = o.1 → Core.micro e p c = o.2 c)
    (hg : (g (s.core k.val)).flight = [] ∧ (g (s.core k.val)).seg = (s.core k.val).seg ∧ (g (s.core k.val)).st = (s.core k.val).st
      ∧ (g (s.core k.val)).msgs = (s.core k.val).msgs ∧ (g (s.core k.val)).now = (s.core k.val).now
      ∧ (g (s.core k.val)).bundle = (s.core k.val).bundle ∧ (g (s.core k.val)).scyc = (s.core k.val).scyc)
    (he : (s.core k.val).slotEffect i = { g (s.core k.val) with flight := ops.map (fun o =>
      ⟨keyAt ((s.core k.val).now + n) ph, (s.core k.val).seq, (s.core k.val).bptr, o.1⟩) }) :
    s.Does i k g (ops.map (fun o => (n, o.2))) := by
  have hacc : (s.core k.val).noteAccs [i] = s.core k.val := by
    simp only [Core.noteAccs, List.flatMap_cons, List.flatMap_nil, ha, hq.accs, List.filter_nil, List.append_nil, List.map_nil]
    rw [← hq.accs]
  have hk : ∀ m, n ≤ m + 1 ↔ keyAt ((s.core k.val).now + n) ph < keyAt ((s.core k.val).now + (m + 1)) phRead := by
    intro m; simp only [keyAt, phRead] at hph ⊢; omega
  obtain ⟨t, ht, hl'⟩ := State.lands_leaves s k b l hq i hp g (ops.map (fun o => (n, o.2))) hnx
    (by
      rw [hacc, he]; intro p hp
      obtain ⟨o, ho, rfl⟩ := List.mem_map.1 hp
      exact (hl o ho).1)
    (by rw [hacc, he]; exact ⟨hg.2.1.trans hq.seg, hg.2.2.1.trans hq.st, hg.2.2.2.1.trans hq.msgs, hg.2.2.2.2.1,
          hg.2.2.2.2.2.1.trans hq.bundle, hg.2.2.2.2.2.2⟩)
    (by rw [hacc, he]; rfl)
    (by
      rw [hacc, he]; intro e m c
      simp only
      by_cases hm : n ≤ m + 1
      · have h1 := (hk m).1 hm
        rw [takeWhile_all _ _ (by intro p hp; obtain ⟨o, ho, rfl⟩ := List.mem_map.1 hp; simpa using h1)]
        rw [List.filter_eq_self.2 (by intro p hp; obtain ⟨o, ho, rfl⟩ := List.mem_map.1 hp; simpa using hm)]
        rw [List.foldl_map, List.foldl_map]
        clear he
        induction ops generalizing c with
        | nil => rfl
        | cons o r ih =>
          simp only [List.foldl_cons]
          rw [(hl o (by simp)).2 e _ c rfl]
          exact ih (fun q hq => hl q (by simp [hq])) _
      · have h1 := fun h => hm ((hk m).2 h)
        rw [takeWhile_none _ _ (by intro p hp; obtain ⟨o, ho, rfl⟩ := List.mem_map.1 hp; simpa using h1)]
        rw [List.filter_eq_nil_iff.2 (by intro p hp; obtain ⟨o, ho, rfl⟩ := List.mem_map.1 hp; simpa using hm)]
        rfl)
  exact ⟨t, by rw [hx]; exact congrArg _ ht, hl'⟩

/-- A register write in flight on a core with nothing in flight. -/
theorem Core.push_empty (c : Core) (h : c.flight = []) (key sq bd : Nat) (op : Micro) :
    c.push key sq bd op = { c with flight := [⟨key, sq, bd, op⟩] } := by
  unfold Core.push; rw [h]; rfl

end Sys2Proof.Machine
end

