-- ==== Sys2Proof/Tests/Slice0.lean ====
section
/-! SUPPORT. The model's own tests: ill-formed terms that WellFormed refuses, words spelt from the encoding tables of the
spec, single steps, and for every statement concrete states and operands that meet its hypotheses. -/
open Sys2Proof Sys2Proof.Machine
namespace Sys2Proof.Tests
set_option Elab.async false

/-- Core 3, its stream context 9, and one slot alone in its bundle. -/
def c3 : Fin 128 := 3
def one : Issue := ⟨c3, true⟩
def x9 : Ctx := ⟨c3, 9⟩
def en32 : VEn := ⟨.w32, false, 0⟩
/-- A mask register where ME is 0. -/
def enBad : VEn := ⟨.w32, false, 2⟩
def near : RG := ⟨.near, 0⟩

/-! WellFormed refuses each of these (06:R131 to R133; 05:R108; 08:R194, R196). -/
theorem test_wf_cwait : WellFormed (.cwait one 5 false 2) = false := by decide
theorem test_wf_cpost : WellFormed (.cpost one 1 2 31) = false := by decide
theorem test_wf_hload : WellFormed (.hload one 1 2 false 3) = false := by decide
theorem test_wf_hamax : WellFormed (.hamax one 1 true 0x41) = false := by decide
theorem test_wf_mask_register : WellFormed (.vmov one enBad 1 2) = false := by decide
theorem test_wf_vmvs : WellFormed (.vmvs one .w32 1 2 128) = false := by decide
theorem test_wf_vsetlen : WellFormed (.vsetlen one true 3 9) = false ∧ WellFormed (.vsetlen one false 3 9) = false := by decide
theorem test_wf_vcmp : WellFormed (.vcmp one en32 1 2 (.vec 3) .fp16 .eq) = false := by decide
theorem test_wf_float_pair : WellFormed (.vadd one en32 1 2 (.vec 3) .bf16 near) = false := by decide
theorem test_wf_gs : WellFormed (.vadd one en32 1 2 (.vec 3) .fp32 ⟨.zero, 4⟩) = false := by decide
theorem test_wf_vabs : WellFormed (.vabs one en32 1 2 .int32) = false := by decide
theorem test_wf_vcvt_format : WellFormed (.vcvt one en32 ⟨1, 2, .acc64, .bf16, 0, 0, .near, false, false, 0, 0, 0, 0, 0⟩) = false := by decide
theorem test_wf_vcvt_gs : WellFormed (.vcvt one en32 ⟨1, 2, .fp32, .bf16, 0, 0, .near, false, false, 0, 0, 0, 0, 1⟩) = false := by decide
theorem test_wf_vcvt_offset : WellFormed (.vcvt one en32 ⟨1, 2, .fp32, .bf16, 1, 0, .near, false, false, 0, 0, 0, 0, 0⟩) = false := by decide
theorem test_wf_wide_sum : WellFormed (.vrsum one en32 31 2 .int32 near false true) = false := by decide
theorem test_wf_rank_pair : WellFormed (.vrmax one en32 31 2 .int32) = false := by decide
theorem test_wf_topk : WellFormed (.vrtopk one en32 1 2 0 false 3 .int32) = false ∧
    WellFormed (.vrtopk one en32 1 2 17 false 3 .int32) = false := by decide
theorem test_wf_vrand4 : WellFormed (.vrand4 one en32 2 1) = false := by decide
theorem test_wf_vadamw : WellFormed (.vadamw one en32 ⟨1, 2, 3, 4, 22, none, .near, false, 0, 0, false⟩) = false ∧
    WellFormed (.vadamw one en32 ⟨1, 2, 3, 4, 5, none, .zero, false, 0, 0, false⟩) = false ∧
    WellFormed (.vadamw one en32 ⟨1, 2, 3, 4, 5, some .int8, .near, false, 0, 0, false⟩) = false := by decide
theorem test_wf_vamax : WellFormed (.vamax one 1 0x10 true) = false := by decide
theorem test_wf_vld : WellFormed (.vld one en32 1 0x41) = false := by decide
theorem test_wf_vldt : WellFormed (.vldt one en32 1 0x20 2 0 3) = false ∧ WellFormed (.vldt one en32 30 0 2 0 3) = false := by decide
theorem test_wf_vldm : WellFormed (.vldm one en32 1 0x21) = false := by decide
theorem test_wf_put : WellFormed (.put x9 ⟨0, 0, false, some .bf16, .fp32, .near, false, false, false, none, 1, 0, 0⟩) = false := by decide
theorem test_wf_accepts : WellFormed (.vadd one en32 1 2 (.vec 3) .fp32 near) = true ∧
    WellFormed (.cwait one 5 true 2) = true ∧ WellFormed (.nop one) = true := by decide

/-! Words spelt bit by bit from the encoding tables (06:R131 to R133; 05:R108, R114; 08:R192, R209). -/
theorem test_word_ct : decodeSlot one 0 0x0816800000000000 = .ok (.cwait one 5 true 2) := by rfl
theorem test_word_cx : decodeSlot one 1 0x0382498000000000 = .ok (.cpost one 0x41 9 6) := by rfl
theorem test_word_sc : decodeSlot one 2 0x0B190A6000000000 = .ok (.scmp one .flt 3 4 (.reg 5)) := by rfl
theorem test_word_mm : decodeSlot one 3 0x0100208218000000 = .ok (.hload one 2 1 true 3) := by rfl
theorem test_word_mv : decodeSlot one 4 0x02C0000000000040 = .ok (.hamax one 1 true 0x40) := by rfl
theorem test_word_vx : decodeSlot one 5 0x20A4432000000000 = .ok (.vadd one ⟨.w32, true, 1⟩ 2 3 (.vec 4) .fp32 near) := by rfl
theorem test_word_vl : decodeSlot one 6 0x0281000400122018 = .ok (.vldt one en32 8 0x1000 9 0x20 3) := by rfl
theorem test_word_vs : decodeSlot one 7 0x0140600030000000 = .ok (.vst one ⟨.w16, false, 0⟩ 3 0xC0) := by rfl
theorem test_word_stream_get : decodeStream x9 0x080C04BC00000007 =
    .ok (.get x9 ⟨0x602, 1, false, none, .near, false, false, false, false, false, false, 0, 7⟩) := by rfl
theorem test_word_stream_djnz : decodeStream x9 0x0600000000000003 = .ok (.djnz x9 0 3) := by rfl
theorem test_word_unassigned : decodeSlot one 6 0x0400000000000000 = .error rejEncoding := by rfl
/-- A reserved bit that is set makes a word none of the slot's. -/
theorem test_word_reserved_bit : decodeSlot one 0 0x0816800000000001 = .error rejEncoding := by rfl

/-! A core of box 2 that runs launch 1, alone in it. -/
def seat0 : Seat := { inService := true, owner := some 2 }
def launch1 : Launch := ⟨1, 0, 0, 0, false, false, true, false, 0, 0, 8, 0, 0, 0, 0, 0, [], [], 1, .running, [], none, 0, [], none, []⟩
def runBox : Box := { st := 3, seats := 1, keySeats := 1, launches := [launch1], openE := 1 }
def run (c : Core) : State := { cores := [(3, c)], seats := [(0, seat0)], boxes := [(2, runBox)], dev := { State.reset.dev with on := true } }
def core0 : Core := { st := .running, nBundles := 8, nStream := 16, vlen := 4, now := 10 }

/-! Packets that are accepted, on a device in FULL and TEST whose box 2 is LIVE with session key 7; the management session's
key is 9. The tag of a packet is the one that its key gives. -/
def hostDev : Dev :=
  { on := true, phase := 15, dstate := dsFull, keyReady := true, mgtKey := some 9, mek := some 1, kids := 5, mekNonce := leBytes 32 3,
    fw := [(0, some ⟨[], 0, true⟩)], eth := [(0, { up := true, secured := true, cak := true }), (2, { up := true, secured := true, cak := true })],
    rows := [(4, transWord 0x49 0 1 0)], nvsLoaded := true }
def aRegion : Region := ⟨5, 0, 1, false, 0, 0⟩
def hostBox : Box :=
  { st := 3, seats := 1, keySeats := 1, members := 1, released := 1, openE := 1, flashq := 100, channels := 2,
    regions := [(0, some aRegion), (1, some aRegion)],
    tiles := [(0, { st := tsZero, tier := 0, frame := 4 }), (1, { st := tsResident, tier := 0, frame := 5, pin := true })] }
def hostRing : Tab KeySlot :=
  [(0, { st := 1, kind := 3, owner := 2, key := 7 }), (5, { st := 1, kind := 1, owner := 2, kid := 3 }), (6, { st := 1, kind := 2, owner := 2, key := 8 })]
def host (x : Box) : State :=
  { seats := [(0, seat0), (1, { inService := true })], boxes := [(2, x)], ring := hostRing, dev := hostDev }

/-- TARGET as the row of an opcode asks for it. -/
def targetOf (op : Nat) : Byte :=
  match opRow op with | some r => (match r.tgt with | .loc => 0xFE | .all => 0xFF | _ => 0) | none => 0
def plainHdr (port : Fin 3) (box : Byte) (op : Nat) : Hdr := { port := port, box := box, seq := 1, flags := 0, target := targetOf op, frag := 0, tag := 0 }
def hdrB (op : Nat) (p : List Byte) : Hdr :=
  { plainHdr 0 2 op with tag := Config.gcmTag 7 (packetNonce 0 2 0 1) (commandBytes (plainHdr 0 2 op) op p) }
def hdrM (op : Nat) (p : List Byte) : Hdr :=
  { plainHdr 2 0xFF op with tag := Config.gcmTag 9 (packetNonce 0 0xFF 0 1) (commandBytes (plainHdr 2 0xFF op) op p) }
def fromB : Sender := ⟨2, 2, 0, some 7⟩
def fromM : Sender := ⟨mgmt, 0xFF, 2, some 9⟩

theorem admit_box (s : State) (op : Nat) (p : List Byte) (hd : (s.nvs 0).toNat = 0x125C) (ha : s.answers = true) (he : (s.eth 0).secured = true)
    (hk : s.keyless = false) (hs : (s.box 2).st = 3) (hb : s.boxKey 2 = some 7) : s.screened (hdrB op p) op p = .from fromB := by
  have hp : s.publicOk (hdrB op p) op p = false := by simp [State.publicOk, hk, hdrB, plainHdr, hs]
  simp only [State.screened, hp, Bool.and_false]
  simp [hdrB, plainHdr, hd, ha, he, hk, hs, hb, fromB, commandBytes]
theorem admit_management (s : State) (op : Nat) (p : List Byte) (hd : (s.nvs 0).toNat = 0x125C) (ha : s.answers = true) (he : (s.eth 2).secured = true)
    (hk : s.keyless = false) (hb : s.dev.mgtKey = some 9) (hp : s.publicOk (hdrM op p) op p = false) :
    s.screened (hdrM op p) op p = .from fromM := by
  simp only [State.screened, hp, Bool.and_false]
  simp [hdrM, plainHdr, hd, ha, he, hk, hb, fromM, commandBytes]

/-- What `State.readsWell` asks for, evaluated. -/
def wellB (s : State) (b t : Nat) : Bool :=
  !(s.box b).tagTarget t
  && match s.readPlace b t with
     | .at tier frame => (s.frame (frameKey tier frame)).upset == .good && (s.contents b t (.at tier frame)).isSome
     | _ => true
theorem wellB_reads (s : State) (b t : Nat) (h : wellB s b t = true) : s.readsWell b t := by
  simp only [wellB, Bool.and_eq_true, Bool.not_eq_true'] at h
  refine ⟨h.1, ?_⟩
  have h2 := h.2
  unfold State.lineWell
  cases e : s.readPlace b t <;> simp_all
/-- Everything that an accepted packet needs but its admission. -/
def passes (s : State) (h : Hdr) (op : Nat) (p : List Byte) (w : Sender) : Bool :=
  (partTiles (s.cmdReads w.k op p)).all (wellB s w.k) && (s.box w.k).reserved.isEmpty &&
  h.flags == 0 && h.frag == 0 && (w.key.isNone || (s.session w.k).seqOf h.seq.toNat op == .take) && h.line == .good
  && (match opRow op with | some r => (s.gate w r).isNone && (s.route w r p h.target.toNat == .here) | none => false)
  && match command op w p (s.acceptSeq w h) with
     | .no _ _ => false
     | .sync _ st _ => st == stOk
     | .go _ => ((s.acceptSeq w h).startOp w.k op).isSome
theorem accepts_of (s : State) (h : Hdr) (op : Nat) (p : List Byte) (w : Sender) (ha : s.screened h op p = .from w)
    (hc : passes s h op p w = true) : s.Accepts h op p w := by
  simp only [passes, Bool.and_eq_true] at hc
  obtain ⟨⟨⟨⟨⟨⟨⟨h7, h8⟩, h1⟩, h2⟩, h3⟩, h4⟩, h5⟩, h6⟩ := hc
  refine ⟨⟨ha, by simpa using h1, by simpa using h2, ?_, ?_, by simpa using h4,
    fun t ht => wellB_reads s w.k t (List.all_eq_true.1 h7 t ht), by simpa using h8⟩, ?_⟩
  · intro hk; rcases w with ⟨_, _, _, _ | k⟩ <;> simp_all
  · cases hr : opRow op with
    | none => simp [hr] at h5
    | some r => simp only [hr, Bool.and_eq_true] at h5; exact ⟨r, rfl, by simpa using h5.1, by simpa using h5.2⟩
  · revert h6
    cases command op w p (s.acceptSeq w h) with
    | no _ _ => simp
    | sync _ st _ => simp
    | go f => simp [State.hasSlot]
theorem accepts_box (s : State) (op : Nat) (p : List Byte)
    (h : ((s.nvs 0).toNat == 0x125C && s.answers && (s.eth 0).secured && !s.keyless && (s.box 2).st == 3 && s.boxKey 2 == some 7) = true)
    (hc : passes s (hdrB op p) op p fromB = true) : s.Accepts (hdrB op p) op p fromB := by
  simp only [Bool.and_eq_true, Bool.not_eq_true', beq_iff_eq] at h
  exact accepts_of _ _ _ _ _ (admit_box s op p h.1.1.1.1.1 h.1.1.1.1.2 h.1.1.1.2 h.1.1.2 h.1.2 h.2) hc
theorem accepts_management (s : State) (op : Nat) (p : List Byte)
    (h : ((s.nvs 0).toNat == 0x125C && s.answers && (s.eth 2).secured && !s.keyless && s.dev.mgtKey == some 9 && !s.publicOk (hdrM op p) op p) = true)
    (hc : passes s (hdrM op p) op p fromM = true) : s.Accepts (hdrM op p) op p fromM := by
  simp only [Bool.and_eq_true, Bool.not_eq_true', beq_iff_eq] at h
  exact accepts_of _ _ _ _ _ (admit_management s op p h.1.1.1.1.1 h.1.1.1.1.2 h.1.1.1.2 h.1.1.2 h.1.2 h.2) hc

/-! One accepted packet for each command, with what its statement's clauses ask for. -/
def f8 (n : Nat) : List Byte := leBytes 8 n
def f4 (n : Nat) : List Byte := leBytes 4 n
def f2 (n : Nat) : List Byte := leBytes 2 n
def f1 (n : Nat) : List Byte := leBytes 1 n
def hostS : State := host hostBox
def hostOp : Op := ⟨9, 0x0203, 1, 0, 0, 0, 0, f4 7, [], none, [], [], false⟩
def hostOps (st : Nat) : State := { hostS with sess := [(2, { ops := [{ hostOp with ostatus := st }], events := [⟨1, 2, 3⟩] })] }

theorem test_info : (hostS.screened (plainHdr 2 0xFF 0) 0 (leBytes 32 3) = .from ⟨publicOf 2, 0xFF, 2, none⟩) ∧
    passes hostS (plainHdr 2 0xFF 0) 0 (leBytes 32 3) ⟨publicOf 2, 0xFF, 2, none⟩ = true := by decide +kernel
theorem test_session_roll : hostS.Accepts (hdrB 1 []) 1 [] fromB :=
  accepts_box _ _ _ (by decide +kernel) (by decide +kernel)
def bindP : List Byte := f1 1 ++ f1 2 ++ f2 1 ++ f1 3 ++ leBytes 3 0 ++ leBytes 64 5
theorem test_group_bind : { hostS with dev := { hostDev with nvs := [(0x6F, 0x200)] } }.Accepts (hdrB 2 bindP) 2 bindP fromB :=
  accepts_box _ _ _ (by decide +kernel) (by decide +kernel)
theorem test_op_status : (hostOps 1).Accepts (hdrB 0x10 (f4 9)) 0x10 (f4 9) fromB ∧ ((hostOps 1).session 2).op (fieldAt (f4 9) 0 4) = some hostOp :=
  ⟨accepts_box _ _ _ (by decide +kernel) (by decide +kernel), by decide +kernel⟩
def readP : List Byte := f4 9 ++ f4 0 ++ f8 0 ++ f2 2
theorem test_op_read : (hostOps 0).Accepts (hdrB 0x11 readP) 0x11 readP fromB ∧
    (hostOps 0).opLaunch 2 { hostOp with ostatus := 0 } = none :=
  ⟨accepts_box _ _ _ (by decide +kernel) (by decide +kernel), by decide +kernel⟩
theorem test_op_abort : (hostOps 1).Accepts (hdrB 0x12 (f4 9)) 0x12 (f4 9) fromB :=
  accepts_box _ _ _ (by decide +kernel) (by decide +kernel)
theorem test_op_release : (hostOps 0).Accepts (hdrB 0x13 (f4 9)) 0x13 (f4 9) fromB :=
  accepts_box _ _ _ (by decide +kernel) (by decide +kernel)
theorem test_event_read : (hostOps 0).Accepts (hdrB 0x14 (f4 0)) 0x14 (f4 0) fromB :=
  accepts_box _ _ _ (by decide +kernel) (by decide +kernel)
/-- BOX 4 with seat 1, one member. -/
def openP : List Byte := f1 4 ++ f1 0 ++ f2 2 ++ f4 5 ++ f8 0 ++ f1 1 ++ f1 1 ++ List.replicate 16 0 ++ f2 100 ++ List.replicate 28 0
  ++ List.replicate 64 11 ++ List.replicate 448 0
theorem test_box_open : hostS.Accepts (hdrM 0x100 openP) 0x100 openP fromM ∧ fieldAt openP 0 1 < 16 ∧ (fieldAt openP 2 2).testBit 1 = true :=
  ⟨accepts_management _ _ _ (by decide +kernel) (by decide +kernel), by decide +kernel, by decide +kernel⟩
theorem test_box_close : hostS.Accepts (hdrM 0x101 (f1 2)) 0x101 (f1 2) fromM ∧ (hostS.box 2).st = 3 :=
  ⟨accepts_management _ _ _ (by decide +kernel) (by decide +kernel), by decide +kernel⟩
theorem test_box_close_free : hostS.Accepts (hdrM 0x101 (f1 3)) 0x101 (f1 3) fromM ∧ (hostS.box 3).st = 0 :=
  ⟨accepts_management _ _ _ (by decide +kernel) (by decide +kernel), by decide +kernel⟩
def idle : State := { host {} with boxes := [], seats := [(0, { inService := true })] }
def groupP : List Byte := f1 0 ++ f1 2 ++ f2 0 ++ f1 0xFF ++ f1 3 ++ (List.replicate 62 0xFF)
theorem test_group_cfg : idle.Accepts (hdrM 0x104 groupP) 0x104 groupP fromM :=
  accepts_management _ _ _ (by decide +kernel) (by decide +kernel)
theorem test_eth_cfg : hostS.Accepts (hdrM 0x110 (f4 1 ++ leBytes 48 6)) 0x110 (f4 1 ++ leBytes 48 6) fromM :=
  accepts_management _ _ _ (by decide +kernel) (by decide +kernel)
def modelP : List Byte := f8 3 ++ f2 0x4957 ++ leBytes 62 0
theorem test_model_install : hostS.Accepts (hdrM 0x120 modelP) 0x120 modelP fromM :=
  accepts_management _ _ _ (by decide +kernel) (by decide +kernel)
theorem test_model_store_erase : idle.Accepts (hdrM 0x121 []) 0x121 [] fromM :=
  accepts_management _ _ _ (by decide +kernel) (by decide +kernel)
theorem test_local_release : hostS.Accepts (hdrM 0x408 (f8 (2 ^ 64 - 1))) 0x408 (f8 (2 ^ 64 - 1)) fromM :=
  accepts_management _ _ _ (by decide +kernel) (by decide +kernel)

/-- Region 2 with one tile in HBM3E, under slot 5. -/
def mapP : List Byte := f4 2 ++ f2 5 ++ f2 0 ++ f4 1 ++ f4 0 ++ f4 1 ++ f8 0
theorem test_region_map : hostS.Accepts (hdrB 0x200 mapP) 0x200 mapP fromB :=
  accepts_box _ _ _ (by decide +kernel) (by decide +kernel)
theorem test_region_unmap : hostS.Accepts (hdrB 0x201 (f4 1)) 0x201 (f4 1) fromB :=
  accepts_box _ _ _ (by decide +kernel) (by decide +kernel)
theorem test_tile_und : hostS.Accepts (hdrB 0x202 (f8 0 ++ f8 1)) 0x202 (f8 0 ++ f8 1) fromB :=
  accepts_box _ _ _ (by decide +kernel) (by decide +kernel)
def moveP : List Byte := f8 0 ++ f4 1 ++ f1 1 ++ f2 0
theorem test_tile_move : hostS.Accepts (hdrB 0x203 moveP) 0x203 moveP fromB ∧
    (hostS.queueMove ⟨2, 0, 1, 1, 0, false, false, some 1, false, false⟩).isSome = true :=
  ⟨accepts_box _ _ _ (by decide +kernel) (by decide +kernel), by decide +kernel⟩
def regP : List Byte := f2 1 ++ f1 1 ++ f1 0 ++ f4 6 ++ f8 0 ++ f8 1 ++ f8 0 ++ f4 0 ++ f4 9 ++ leBytes 16 0 ++ f4 0 ++ f4 0 ++ f8 0
theorem test_xfer_reg : hostS.Accepts (hdrB 0x210 regP) 0x210 regP fromB :=
  accepts_box _ _ _ (by decide +kernel) (by decide +kernel)
def aXfer (dir : Nat) : Xfer := ⟨dir, 0, 6, 0, 2, 0, 0, 9, [], 0, 0, 1⟩
def xferBox : Box := { hostBox with xfers := [(1, some (aXfer 1)), (2, some (aXfer 1))] }
theorem test_xfer_drop : (host xferBox).Accepts (hdrB 0x211 (f2 1)) 0x211 (f2 1) fromB :=
  accepts_box _ _ _ (by decide +kernel) (by decide +kernel)
theorem test_xfer_run : (host xferBox).Accepts (hdrB 0x212 (f2 1)) 0x212 (f2 1) fromB :=
  accepts_box _ _ _ (by decide +kernel) (by decide +kernel)
def loadP : List Byte := f2 1 ++ f2 6 ++ f2 1 ++ f2 2 ++ f4 1
theorem test_wt_load : (host xferBox).Accepts (hdrB 0x220 loadP) 0x220 loadP fromB :=
  accepts_box _ _ _ (by decide +kernel) (by decide +kernel)
def chanP : List Byte := f1 1 ++ f1 1 ++ f1 0 ++ f1 2 ++ f4 3 ++ f4 10
theorem test_wt_channel : hostS.Accepts (hdrB 0x221 chanP) 0x221 chanP fromB :=
  accepts_box _ _ _ (by decide +kernel) (by decide +kernel)
def sceneP : List Byte := f2 0 ++ f2 0 ++ f2 0 ++ f2 1 ++ f8 0
theorem test_scene_change : hostS.Accepts (hdrB 0x222 sceneP) 0x222 sceneP fromB ∧ (hostS.rangeRead 2 0 32).isSome = true :=
  ⟨accepts_box _ _ _ (by decide +kernel) (by decide +kernel), by decide +kernel⟩
theorem test_scene_active : (host { hostBox with scene := { st := 1 } }).screened (hdrB 0x222 sceneP) 0x222 sceneP = .from fromB :=
  admit_box _ _ _ (by decide +kernel) (by decide +kernel) (by decide +kernel) (by decide +kernel) (by decide +kernel) (by decide +kernel)

def scriptP (n : Nat) : List Byte := f8 2 ++ f8 0 ++ f8 n
theorem test_script_load : hostS.Accepts (hdrB 0x300 (scriptP 64)) 0x300 (scriptP 64) fromB ∧
    (hostS.rangeRead 2 0 64).map (fun m => (imageFail false m).isSome) = some true :=
  ⟨accepts_box _ _ _ (by decide +kernel) (by decide +kernel), by decide +kernel⟩
def img0 : CoreImg := ⟨[], 1, [], 0, [], 0, [], 0⟩
def script0 : ScriptImg := ⟨[img0], []⟩
def launchBox : Box := { hostBox with scripts := [(2, some script0)] }
def launchPar : List Byte := f1 2 ++ f1 1 ++ f2 4 ++ f4 0 ++ leBytes 64 0
theorem test_launch : (host launchBox).Accepts (hdrB 0x301 launchPar) 0x301 launchPar fromB ∧
    (Tab.get none launchBox.scripts 2).isSome = true ∧ ((host launchBox).makeLaunch 2 1 (launchP launchPar) 1).isSome = true :=
  ⟨accepts_box _ _ _ (by decide +kernel) (by decide +kernel), by decide +kernel, by decide +kernel⟩
/-- No partner and no takes: one protected run, the step record at tile 0, the scene key in slot 6. -/
def curtP : List Byte := f2 0 ++ f2 0 ++ f2 0 ++ f2 1 ++ f8 0 ++ f8 0 ++ f4 9 ++ f2 5 ++ f2 0 ++ f4 16 ++ f4 100 ++ f2 0 ++ f2 6 ++ f4 0 ++ List.replicate 64 0xFF
theorem test_curtain_cfg : hostS.Accepts (hdrB 0x400 curtP) 0x400 curtP fromB :=
  accepts_box _ _ _ (by decide +kernel) (by decide +kernel)
theorem test_curtain_status : hostS.Accepts (hdrB 0x401 []) 0x401 [] fromB :=
  accepts_box _ _ _ (by decide +kernel) (by decide +kernel)
theorem test_curtain_resolve : (host { hostBox with cst := 2 }).Accepts (hdrB 0x403 (f4 1 ++ f1 1)) 0x403 (f4 1 ++ f1 1) fromB ∧
    hostS.Accepts (hdrB 0x403 (f4 1 ++ f1 0)) 0x403 (f4 1 ++ f1 0) fromB ∧
    (host { hostBox with resolvedE := 8, history := [(8, false)] }).Accepts (hdrB 0x403 (f4 8 ++ f1 0)) 0x403 (f4 8 ++ f1 0) fromB :=
  ⟨accepts_box _ _ _ (by decide +kernel) (by decide +kernel), accepts_box _ _ _ (by decide +kernel) (by decide +kernel),
    accepts_box _ _ _ (by decide +kernel) (by decide +kernel)⟩
def curt (p : Nat) : CurtainCfg := ⟨p, 0, 0, [(0, 1)], 0, 9, 5, 0, false, 16, 100, 0, 6, []⟩
def localRec0 : LocalRec := ⟨⟨3, 1, 12, [(0, 1)], 0, 1, 8, []⟩, true, true, none⟩
def lostBox (p : Nat) : Box := { hostBox with cst := 4, curtain := some (curt p) }
def restP (src : Nat) : List Byte := f8 src ++ f8 12 ++ f8 0 ++ f8 0
theorem test_scene_restore : (host (lostBox 2)).Accepts (hdrB 0x405 (restP 0)) 0x405 (restP 0) fromB ∧
    { host (lostBox 2) with dev := { hostDev with retained := [localRec0] } }.Accepts (hdrB 0x405 (restP 1)) 0x405 (restP 1) fromB ∧
    { host (lostBox 2) with dev := { hostDev with retained := [localRec0] } }.localSource 2 12 = some localRec0 :=
  ⟨accepts_box _ _ _ (by decide +kernel) (by decide +kernel), accepts_box _ _ _ (by decide +kernel) (by decide +kernel), by decide +kernel⟩
def importP : List Byte := f4 0 ++ f4 0 ++ f8 64 ++ f8 5 ++ f8 6 ++ f8 7
theorem test_ifeale_import : (host { hostBox with curtain := some (curt 0) }).Accepts (hdrB 0x407 importP) 0x407 importP fromB :=
  accepts_box _ _ _ (by decide +kernel) (by decide +kernel)

def attestP : List Byte := f1 1 ++ f1 2 ++ f2 0 ++ leBytes 32 9
theorem test_attest : hostS.Accepts (hdrB 0x500 attestP) 0x500 attestP fromB :=
  accepts_box _ _ _ (by decide +kernel) (by decide +kernel)
theorem test_key_destroy : hostS.Accepts (hdrB 0x503 (f2 6)) 0x503 (f2 6) fromB :=
  accepts_box _ _ _ (by decide +kernel) (by decide +kernel)
theorem test_rekey : hostS.Accepts (hdrB 0x504 (f2 5)) 0x504 (f2 5) fromB :=
  accepts_box _ _ _ (by decide +kernel) (by decide +kernel)
theorem test_key_gen : hostS.Accepts (hdrB 0x505 (f2 7 ++ f1 1)) 0x505 (f2 7 ++ f1 1) fromB ∧
    hostS.Accepts (hdrB 0x505 (f2 7 ++ f1 2)) 0x505 (f2 7 ++ f1 2) fromB :=
  ⟨accepts_box _ _ _ (by decide +kernel) (by decide +kernel), accepts_box _ _ _ (by decide +kernel) (by decide +kernel)⟩
theorem test_alarm_read : (host { hostBox with alarm := some ⟨1, 0, 0, 5, 6, 7, 2⟩ }).Accepts (hdrB 0x507 []) 0x507 [] fromB :=
  accepts_box _ _ _ (by decide +kernel) (by decide +kernel)
theorem test_lc_status : hostS.Accepts (hdrM 0x600 []) 0x600 [] fromM :=
  accepts_management _ _ _ (by decide +kernel) (by decide +kernel)
def endP : List Byte := f1 3 ++ leBytes 0x87 0
theorem test_lc_transition : idle.Accepts (hdrM 0x601 endP) 0x601 endP fromM ∧ idle.notFree = none ∧ idle.dev.trans = none ∧
    2 ≤ idle.spareRowsFree :=
  ⟨accepts_management _ _ _ (by decide +kernel) (by decide +kernel), by decide +kernel⟩
theorem test_fw_update : hostS.Accepts (hdrM 0x610 (f4 0 ++ f4 100)) 0x610 (f4 0 ++ f4 100) fromM ∧
    { hostS with dev := { hostDev with stageLen := 100 } }.Accepts (hdrM 0x610 (f4 1 ++ f4 96 ++ f4 7)) 0x610 (f4 1 ++ f4 96 ++ f4 7) fromM ∧
    idle.Accepts (hdrM 0x610 (f8 2)) 0x610 (f8 2) fromM ∧ hostS.Accepts (hdrM 0x610 (f8 3)) 0x610 (f8 3) fromM :=
  ⟨accepts_management _ _ _ (by decide +kernel) (by decide +kernel), accepts_management _ _ _ (by decide +kernel) (by decide +kernel),
    accepts_management _ _ _ (by decide +kernel) (by decide +kernel), accepts_management _ _ _ (by decide +kernel) (by decide +kernel)⟩
theorem test_spare_report : hostS.Accepts (hdrM 0x620 []) 0x620 [] fromM :=
  accepts_management _ _ _ (by decide +kernel) (by decide +kernel)
theorem test_reg_read : hostS.Accepts (hdrB 0x700 (readOf (coreReg 3 8) 1)) 0x700 (readOf (coreReg 3 8) 1) fromB ∧
    hostS.Accepts (hdrB 0x700 (readOf (coreReg 3 0x10) 1)) 0x700 (readOf (coreReg 3 0x10) 1) fromB ∧
    hostS.Accepts (hdrB 0x700 (readOf (0x302014 + 2 * 0x20) 1)) 0x700 (readOf (0x302014 + 2 * 0x20) 1) fromB ∧
    hostS.Accepts (hdrB 0x700 (readOf (coreReg 3 0x1040) 1)) 0x700 (readOf (coreReg 3 0x1040) 1) fromB :=
  ⟨accepts_box _ _ _ (by decide +kernel) (by decide +kernel), accepts_box _ _ _ (by decide +kernel) (by decide +kernel),
    accepts_box _ _ _ (by decide +kernel) (by decide +kernel), accepts_box _ _ _ (by decide +kernel) (by decide +kernel)⟩
theorem test_reg_write : hostS.Accepts (hdrM 0x701 (f4 0x200000 ++ f4 0x1234)) 0x701 (f4 0x200000 ++ f4 0x1234) fromM :=
  accepts_management _ _ _ (by decide +kernel) (by decide +kernel)
theorem test_selftest : hostS.Accepts (hdrM 0x702 (f2 1 ++ f2 2 ++ leBytes 44 0)) 0x702 (f2 1 ++ f2 2 ++ leBytes 44 0) fromM :=
  accepts_management _ _ _ (by decide +kernel) (by decide +kernel)
theorem test_debug_off : hostS.Accepts (hdrM 0x702 (f8 4 ++ leBytes 40 0)) 0x702 (f8 4 ++ leBytes 40 0) fromM :=
  accepts_management _ _ _ (by decide +kernel) (by decide +kernel)

/-! Commands that rest on a signature, a token or a sealed key: Config's functions have no values, so these packets are
accepted under the assumption that their own check holds. -/
theorem passes_go (s : State) (h : Hdr) (op : Nat) (p : List Byte) (w : Sender) (f : State → Nat → State)
    (h0 : ((partTiles (s.cmdReads w.k op p)).all (wellB s w.k) && (s.box w.k).reserved.isEmpty && h.flags == 0 && h.frag == 0 && (w.key.isNone || (s.session w.k).seqOf h.seq.toNat op == .take) && h.line == .good) = true)
    (h1 : (match opRow op with | some r => (s.gate w r).isNone && (s.route w r p h.target.toNat == .here) | none => false) = true)
    (h2 : command op w p (s.acceptSeq w h) = .go f) (h3 : ((s.acceptSeq w h).startOp w.k op).isSome = true) :
    passes s h op p w = true := by
  unfold passes; rw [h0, h1, h2]; simpa using h3
def fromP0 : Sender := ⟨publicOf 0, 2, 0, none⟩
def fromP2 : Sender := ⟨publicOf 2, 0xFF, 2, none⟩
theorem test_mgt_session (p : List Byte) (hp : p.length = 0x680 + sigLen) :
    hostS.Accepts (plainHdr 2 0xFF 3) 3 p fromP2 :=
  accepts_of _ _ _ _ _ rfl (passes_go _ _ _ _ _ _ rfl rfl (by simp [command, cmdMgtSession, needLen, hp]; rfl) rfl)
def seatedS : State := host { hostBox with st := 2, released := 0, kem := some 1 }
def emptyRing : State := { seatedS with ring := [] }
theorem test_key_release (p : List Byte) (hp : p.length = 0x624 + 36 * 1 + 16 + sigLen) (h0 : fieldAt p 0 1 = 0)
    (h1 : fieldAt p 1 1 = 1) (h2 : zeroAt p 2 2 = true) (ho : emptyRing.openPackage 2 p true = some [⟨0, 3, true, 7⟩]) :
    emptyRing.Accepts (plainHdr 0 2 0x501) 0x501 p fromP0 :=
  accepts_of _ _ _ _ _ rfl (passes_go _ _ _ _ _ _ rfl rfl (by
    have e : emptyRing.acceptSeq fromP0 (plainHdr 0 2 0x501) = emptyRing := rfl
    rw [e]; simp only [command, cmdKeyRelease, h0, h1, h2, needLen, hp]
    simp only [show fromP0.box = 2 from rfl, ho]; rfl) rfl)
theorem starts (s : State) (k op : Nat) (h : (s.session k).ops.length < s.opLimit k) : (s.startOp k op).isSome = true := by
  simp [State.startOp, Nat.not_le.2 h]
theorem test_key_put (p : List Byte) (hp : p.length = 0x624 + 36 * 1 + 16 + 0) (h0 : fieldAt p 0 1 = 0) (h1 : fieldAt p 1 1 = 1)
    (h2 : zeroAt p 2 2 = true) (ho : (hostS.acceptSeq fromB (hdrB 0x502 p)).openPackage 2 p false = some [⟨9, 2, true, 7⟩]) :
    hostS.Accepts (hdrB 0x502 p) 0x502 p fromB :=
  accepts_box _ _ _ (by decide +kernel) (passes_go _ _ _ _ _ _ rfl rfl (by
    have e : ((hostS.acceptSeq fromB (hdrB 0x502 p)).box fromB.k).members = 1 := rfl
    have e2 : (hostS.acceptSeq fromB (hdrB 0x502 p)).entriesOk 2 [⟨9, 2, true, 7⟩] [2, 4] = true := by
      show hostS.entriesOk 2 [⟨9, 2, true, 7⟩] [2, 4] = true; decide +kernel
    simp only [command, cmdKeyPut, h0, h1, h2, needLen, hp, e]
    simp only [show fromB.k = 2 from rfl, show decide (1 < 1) = false from rfl, ho, e2]; rfl)
    (starts _ _ _ (show 0 < hostS.opLimit 2 by decide +kernel)))
def companyS : State := host { hostBox with members := 2 }
theorem test_approve (p : List Byte) (hp : p.length = 0x50 + sigLen) (h0 : fieldAt p 0 1 = 1) (h1 : fieldAt p 1 1 = 1) (h2 : fieldAt p 2 2 = 0)
    (h4 : zeroAt p 4 4 = true) (h8 : fieldAt p 8 8 = 0)
    (ho : (companyS.acceptSeq fromB (hdrB 0x506 p)).memberSigned 2 1 (p.take 0x50) (p.drop 0x50) = true) :
    companyS.Accepts (hdrB 0x506 p) 0x506 p fromB :=
  accepts_box _ _ _ (by decide +kernel) (passes_go _ _ _ _ _ _ rfl rfl (by
    have e : ((companyS.acceptSeq fromB (hdrB 0x506 p)).box fromB.k).members = 2 := rfl
    simp only [command, cmdApprove, h0, h1, h2, h4, h8, needLen, hp, e]
    simp only [show fromB.k = 2 from rfl, ho]; rfl)
    (starts _ _ _ (show 0 < companyS.opLimit 2 by decide +kernel)))
theorem test_link_cak (p : List Byte) (cak : BitVec 256) (hp : p.length = 76) (h0 : fieldAt p 0 1 = 1) (h1 : fieldAt p 1 1 = 4) (h2 : zeroAt p 2 2 = true)
    (hc : Config.keyUnwrap (keyOf (Config.shake 32 (ascii "NGM4700-CAK" ++ keyBytes 9))) (sliceBytes p 0x24 40) = some cak) :
    ∃ t, command 0x111 fromM p hostS = .sync t stOk [] := by
  have e : hostS.dev.mgtKey = some 9 := rfl
  simp only [command, cmdLinkCak, h0, h1, h2, needLen, hp, e, hc]
  exact ⟨_, rfl⟩
theorem test_device_debug (p : List Byte) (hp : p.length = 0x30) (h0 : fieldAt p 0 1 = 3) (h1 : fieldAt p 1 1 = 0) (h4 : zeroAt p 4 4 = true)
    (ht : keyOf (Config.shake 32 (sliceBytes p 8 32)) = 0) : ∃ f, command 0x702 fromM p idle = .go f := by
  have e : idle.tokenOk 1 (sliceBytes p 8 32) = true := by simp only [State.tokenOk, ht]; rfl
  have l : idle.lcs = 1 := by decide +kernel
  simp only [command, cmdDiagRun, h0, h1, h4, needLen, hp, l]
  simp only [show idle.notFree = none from rfl, if_true, e]
  exact ⟨_, rfl⟩
theorem test_box_debug (p : List Byte) (hp : p.length = 0x30 + sigLen * 1) (h0 : fieldAt p 0 1 = 2) (h1 : fieldAt p 1 1 = 2) (h4 : zeroAt p 4 4 = true)
    (ha : fieldAt p 0x28 8 = 0) (hs : hostS.memberSigned 2 0 (p.take 0x30) (sliceBytes p 0x30 sigLen) = true) :
    ∃ f, command 0x702 fromM p hostS = .go f := by
  have e : (hostS.box 2).members = 1 := rfl
  have r : (List.range 1).all (fun m => hostS.memberSigned 2 m (p.take 0x30) (sliceBytes p (0x30 + sigLen * m) sigLen)) = true := by
    simp only [show List.range 1 = [0] from rfl, List.all_cons, List.all_nil, Nat.mul_zero, Nat.add_zero, hs, Bool.and_self]
  have d : (decide True && decide (2 < 16)) = true := rfl
  simp only [command, cmdDiagRun, h0, h1, h4, ha, needLen, e, hp]
  have c : (decide (0 % 16384 ≠ 0) || decide (2 ^ 50 < 0 + (hostS.box 2).coreList.length * imageSize)) = false := by decide +kernel
  have j : (hostS.box 2).st = 3 := rfl
  simp only [c, j]
  simp only [d, if_true, ne_eq, not_true_eq_false, if_false, r]
  exact ⟨_, rfl⟩

/-! Cores that issue, and what the clauses of the script statements ask for. -/
theorem runs_of (c : Core) (h : c.msgs = []) : (run c).Runs 3 2 launch1 :=
  ⟨by
    have h1 : (run c).boxOfCore 3 = some 2 := rfl
    have h2 : (run c).box 2 = runBox := rfl
    have h3 : runBox.runsOn 3 = some launch1 := by decide +kernel
    have h4 : (run c).dev.on = true := rfl
    simp [State.running, h1, h2, h3, h4]; decide, rfl, rfl, h⟩
theorem quiet_of (c : Core) (h : (c.st == .running && c.heldAt.isNone && c.flight.isEmpty && c.accs.isEmpty && c.bundle.isEmpty
    && c.seg.isNone && c.msgs.isEmpty && decide (c.scyc < 2 ^ 40)) = true) : (run c).Quiet 3 2 launch1 := by
  simp only [Bool.and_eq_true, beq_iff_eq, Option.isNone_iff_eq_none, List.isEmpty_iff, decide_eq_true_eq] at h
  obtain ⟨⟨⟨⟨⟨⟨⟨h1, h2⟩, h3⟩, h4⟩, h5⟩, h6⟩, h7⟩, h8⟩ := h
  exact ⟨runs_of c h7, h1, h2, h3, h4, h5, h6, h8⟩
theorem test_quiet : (run core0).Quiet 3 2 launch1 ∧ core0.streamHolds 4 = false := ⟨quiet_of _ rfl, rfl⟩
def heldCore : Core := { core0 with ctxs := [(9, { st := .run, held := 1 })] }
theorem test_held_bank : (run heldCore).Quiet 3 2 launch1 ∧ heldCore.streamHolds (sldAddr 0 4) = true := ⟨quiet_of _ rfl, by decide +kernel⟩
theorem test_vector_access : (∀ i ∈ core0.active en32, core0.mayAccess (64 + i * 4) 4 = true) ∧ core0.active en32 = [0, 1, 2, 3] ∧
    core0.mayAccess (2 ^ 23 - 32) 32 = true := by decide +kernel
/-- Descriptors of an HLOAD, an HMUL and an HDRAIN of one row, a PRELOAD and an HSAVE. -/
def descs5 : Mem := Tab.block 0 0 (
  (f1 1 ++ f1 0 ++ f4 64 ++ f1 0 ++ f1 1 ++ leBytes 55 0 ++ []) ++ f1 0 ++
  (f1 0 ++ f1 0 ++ f4 0 ++ f4 256 ++ f1 1 ++ f4 0 ++ f2 1 ++ f2 10 ++ leBytes 45 0) ++
  (f1 0 ++ f2 10 ++ f2 1 ++ f4 4096 ++ f4 512 ++ leBytes 51 0) ++
  (f1 0 ++ f2 7 ++ f2 3 ++ f1 1 ++ f4 0 ++ f4 512 ++ leBytes 50 0) ++ (f1 2 ++ f2 7 ++ f2 3 ++ f4 1024 ++ leBytes 55 0))
def hingeCore : Core := { core0 with descs := descs5, nDescs := 5 }
theorem test_hload : (run hingeCore).Quiet 3 2 launch1 ∧ (hingeCore.hloadOp 0 0).map hingeCore.hloadMay = some true :=
  ⟨quiet_of _ rfl, by decide +kernel⟩
theorem test_hmul : (hingeCore.hmulOp 1 0 0).map (fun d => hingeCore.mulPlanesOk d && d.rows == 1 && hingeCore.mulMay d 0) = some true := by
  decide +kernel
theorem test_hdrain : (hingeCore.hdrainOp 2 0 0).map (fun d => (d.arr, d.rows, d.ewOp, d.deriv)) = some (0, 1, 0, 0) ∧
    hingeCore.mayAccess 4096 512 = true := by decide +kernel
theorem test_preload : (hingeCore.preloadOp 3 0 0).map PreloadD.rows = some 3 ∧ hingeCore.mayAccess (rowAddr 0 512 0) 512 = true := by
  decide +kernel
theorem test_hsave : (hingeCore.hsaveOp 4 0 0).map HsaveD.rows = some 3 ∧ hingeCore.mayAccess 1024 128 = true := by decide +kernel
theorem test_elements : (([(1, 5), (0, 7)] : List (Nat × Nat)).map Prod.fst).Nodup ∧ ∀ p ∈ [(1, 5), (0, 7)], p.1 < VW.w8.lmax ∧ p.2 < 2 ^ 8 := by
  decide
theorem test_nan_and_zeros : Fmt.bf16.isFloat = true ∧ Fmt.bf16.decode 0x7FC1 = .nan ∧ Fmt.bf16.decode 0x8000 ≠ .nan ∧ 0x8000 < 2 ^ Fmt.bf16.width := by
  decide +kernel

/-- Cue 5 armed for script cycle 0 under a policy, on a core with stand-by slot 2 armed. -/
def cueCore (pol : Nat) (vis vis2 : Bool) : Core :=
  { core0 with cues := [(5, ⟨true, 0, pol, vis, false, none⟩), (6, ⟨true, 0, 2, vis2, false, none⟩)], sby := [(2, ⟨true, 4⟩)] }
theorem test_cue_faults : (run (cueCore 0 false false)).Quiet 3 2 launch1 ∧ ((cueCore 0 false false).cue 5).armed = true ∧
    ((cueCore 0 false false).cue 7).armed = false := ⟨quiet_of _ rfl, by decide⟩
theorem test_cwait_visible : (run (cueCore 0 true false)).Quiet 3 2 launch1 ∧ ((cueCore 0 true false).cue 5).vis = true := ⟨quiet_of _ rfl, by decide⟩
theorem test_cwait_stall : (run (cueCore 0 false false)).Quiet 3 2 launch1 ∧ ((cueCore 0 false false).cue 5).ddl = core0.scyc ∧
    ((run (cueCore 0 false false)).box 2).preemptPending launch1 3 = false := ⟨quiet_of _ rfl, by decide, by decide⟩
theorem test_cwait_standby : (run (cueCore 1 false false)).Quiet 3 2 launch1 ∧ ((cueCore 1 false false).slot 2).armed = true := ⟨quiet_of _ rfl, by decide⟩
theorem test_understudy : (run (cueCore 2 false true)).Quiet 3 2 launch1 ∧ ((cueCore 2 false true).cue 6).vis = true ∧ launch1.under = true :=
  ⟨quiet_of _ rfl, by decide, by decide⟩
theorem test_cret : ((heldCore.ctx 9).pol ≠ 2 ∧ 0 ≤ (heldCore.ctx 9).nbuf ∧ (heldCore.ctx 9).armed.testBit 0 = false ∧ (heldCore.cue 8).armed = false) := by decide
def pairCore : Core := { core0 with ctxs := [(9, { st := .run, pol := 2, nbuf := 1 })] }
theorem test_cret_pair : (run pairCore).Quiet 3 2 launch1 ∧ (pairCore.ctx 9).pol = 2 ∧
    ∀ j < 2, (pairCore.ctx 9).armed.testBit (0 + j) = false ∧ (pairCore.cue (8 + j)).armed = false := ⟨quiet_of _ rfl, by decide, by decide⟩
theorem test_cpost : (run core0).boxOfCore 5 = some 2 ∧ (run core0).boxOfCore 9 ≠ some 2 := by decide
/-- A stand-by segment of slot 0 after a missed CWAIT on cue 5. -/
def waitHeld (kind : Nat) : Held := ⟨[.cwait one 5 true 2], 0, 8, kind, true⟩
def segCore (switching : Bool) : Core :=
  { cueCore 1 false false with sby := [], st := .standby, seg := some (0, switching), heldAt := some (waitHeld 0x81) }
theorem test_segment : (run (segCore false)).Runs 3 2 launch1 ∧ waitOf (waitHeld 0x81).slots = some (5, true, 2) ∧
    ((segCore false).slot 2).armed = false := ⟨runs_of _ rfl, by decide, by decide⟩
theorem test_switch : (run (segCore true)).Runs 3 2 launch1 ∧ (segCore true).seg = some (0, true) := ⟨runs_of _ rfl, by decide⟩
def tok (stale : Bool) : Token := ⟨.post, 5, 0, 0, 0, stale, 1⟩
def missCore : Core := { cueCore 0 false false with st := .held, heldAt := some (waitHeld 0x80), toks := [tok false] }
theorem test_held : (run missCore).HeldAt 3 2 launch1 (waitHeld 0x80) ∧ missCore.stalled + 3 < 2 ^ 32 ∧ (waitHeld 0x80).miss < missCore.now + 3 :=
  ⟨⟨runs_of _ rfl, rfl, rfl, rfl, rfl, rfl, rfl⟩, by decide, by decide⟩
theorem test_token : (run { cueCore 0 false false with toks := [tok false] }).Runs 3 2 launch1 ∧
    ((cueCore 0 false false).cue (tok false).cue).ddl = (tok false).ddl := ⟨runs_of _ rfl, by decide⟩
theorem test_cycle_limit : (run { core0 with scyc := 2 ^ 40 }).Runs 3 2 launch1 := runs_of _ rfl
/-- A launch that was preempted on core 3 and may come back. -/
def backLaunch : Launch := { launch1 with core0 := 3, ncore := 1, saved := [(3, core0)] }
def backBox : Box := { runBox with launches := [backLaunch], tiles := Tab.block {} 0 (List.replicate 596 { st := tsZero }) }
def backState : State := { run {} with boxes := [(2, backBox)] }
theorem get_zeros (n i : Nat) (h : i < n) (t : Tile) : Tab.get {} (Tab.block {} 0 (List.replicate n t)) i = t := by
  rw [Tab.get_block, if_pos ⟨Nat.zero_le _, by simpa using h⟩]
  simp [List.getD_eq_getElem?_getD, h]
theorem back_tile (i : Nat) (h : i < 596) : (backState.readTile 2 i).isSome = true := by
  have e : (backState.box 2).tile i = { st := tsZero } := by
    show Tab.get {} (Tab.block {} 0 (List.replicate 596 ({ st := tsZero } : Tile))) i = _
    exact get_zeros 596 i h _
  simp [State.readTile, State.readPlace, e, State.contents, Box.wingDone, State.lineBad]
theorem back_range (n : Nat) (h : n ≤ 596) : (backState.rangeMem 2 0 (n * 16384)).isSome = true := by
  unfold State.rangeMem
  simp only [Nat.zero_div, Nat.zero_add]
  rw [Nat.mul_div_cancel _ (by decide)]
  induction n with
  | zero => rfl
  | succ k ih =>
    rw [List.range_succ, List.foldl_append]
    obtain ⟨m, hm⟩ := Option.isSome_iff_exists.1 (ih (by omega))
    obtain ⟨d, hd⟩ := Option.isSome_iff_exists.1 (back_tile k (by omega))
    simp [hm, hd]
theorem test_restore_core : (backState.box 2).preemptedOn 3 = some backLaunch ∧ backState.boxOfCore 3 = some 2 ∧
    (backState.rangeMem 2 0 imageSize).isSome = true := ⟨by decide +kernel, rfl, back_range 596 (by decide)⟩

/-! Streams, memory and contributions: context 9 of core 3 holds buffer 0, on a box with a region under slot 5. -/
def ctx0 : SCtx := { st := .run, held := 1, nbuf := 1, armed := 1, base := 0 }
def memBox : Box :=
  { runBox with regions := [(0, some aRegion)], xfers := [(1, some (aXfer 1))],
                tiles := [(0, { st := tsZero, tier := 0, frame := 4 }), (1, { st := tsResident, tier := 0, frame := 5, und := true, utile := 0 })] }
def planE : PlanEntry := ⟨7, 1, false, false, 0, 0, 1, 0, 2, 0, 0, 0xD, 0, 0, 0⟩
def mem (c : Core) (x : Box) : State :=
  { run c with boxes := [(2, x)], ring := hostRing, frames := [(frameKey 0 5, { data := [(3, 9)], side := [(0, 0)], kid := 3 })] }
def streamCore (y : SCtx) : Core := { core0 with ctxs := [(9, y)] }
def planBox : Box := { memBox with launches := [{ launch1 with plan := [planE] }] }
theorem streams_of (y : SCtx) (h : y.ready = true) (h2 : y.pc + 1 < 16) : (mem (streamCore y) memBox).Streams x9 2 launch1 :=
  ⟨by
    have h1 : (mem (streamCore y) memBox).boxOfCore 3 = some 2 := rfl
    have h2 : (mem (streamCore y) memBox).box 2 = memBox := rfl
    have h3 : memBox.runsOn 3 = some launch1 := by decide +kernel
    have h4 : (mem (streamCore y) memBox).dev.on = true := rfl
    have h5 : ((mem (streamCore y) memBox).core 3).st = .running := rfl
    simp [State.streaming, State.running, h1, h2, h3, h4, h5, x9, c3]; decide, h, (show CoreSt.running ≠ CoreSt.preempted by decide), h2⟩
theorem test_stream : (mem (streamCore ctx0) memBox).Streams x9 2 launch1 := streams_of _ rfl (by decide)
theorem test_credit : ctx0.armed.testBit 0 = true ∧ ∀ o ∈ ctx0.outs, o.buf = 0 → o.kind = .word := by decide
def ctxU : SCtx := { ctx0 with pol := 2, held := 2, armed := 0 }
theorem test_getu : (mem (streamCore ctxU) memBox).Streams x9 2 launch1 ∧ ctxU.held.testBit 1 = true ∧ (memBox.tile 1).und = true ∧
    (ctxU.base + (1 : BitVec 15).toNat * 16384) % 2 ^ 50 = 1 * 16384 ∧ ctxU.armed.testBit 0 = false := ⟨streams_of _ rfl (by decide), by decide⟩
theorem test_put : ctx0.held.testBit 0 = true ∧ ctx0.fits 0 (moveEnd 0 0 false Fmt.bf16.width Fmt.bf16.perRow) = true ∧ ctx0.outs.length < 16 := by
  decide
theorem test_rearm : ctx0.list % 8 = 0 ∧ ¬ ({ ctx0 with list := 12 } : SCtx).list % 8 = 0 ∧
    (mem (streamCore { ctx0 with list := 12 }) memBox).Streams x9 2 launch1 := ⟨by decide, by decide, streams_of _ rfl (by decide)⟩
theorem test_racc : (mem (streamCore ctx0) planBox).streaming 3 = some (2, { launch1 with plan := [planE] }) ∧
    ctx0.fits 0 16384 = true ∧ [planE].find? (fun e => e.tag == 7) = some planE ∧ (0 - planE.first) % planE.span = 0 := by decide +kernel
theorem test_xfer_instruction : (memBox.xfer 1).isSome = true := by decide
/-- A served request of each kind of context 9, its number 0. -/
def reqOf (op : ReqOp) (st : ReqSt) (word : Nat) : Req := ⟨3, 9, 0, 2, 1, 1, false, false, op, st, { side := [(1, 1)] }, [], word, [], 0, [], []⟩
def rawGet : GetOp := ⟨0, 0, false, none, .near, false, false, false, false, false, false, 0, 1⟩
def rawPut : PutOp := ⟨0, 0, false, none, .bf16, .near, false, false, false, none, 0, 0, 1⟩
def reqS (op : ReqOp) (st : ReqSt) (word : Nat) : State :=
  { mem (streamCore { ctx0 with outs := [⟨0, .get, 0, false⟩] }) memBox with reqs := [(0, some (reqOf op st word))], nextReq := 1 }
theorem test_completions : (reqS (.get rawGet false 0 {}) .served 0).ownsReq 0 (reqOf (.get rawGet false 0 {}) .served 0) = true ∧
    (reqS (.rearm 0) .served 64).req 0 = some (reqOf (.rearm 0) .served 64) ∧ (64 : Nat) < 2 ^ 50 ∧
    (reqS (.rearm 0) .served (2 ^ 63)).ownsReq 0 (reqOf (.rearm 0) .served (2 ^ 63)) = true := by decide +kernel
theorem test_delivery : (match (streamCore ctx0).deliver 9 rawGet 0 {} { side := [(0, 1)] } [] with | .ok _ => true | .error _ => false) = true := by
  decide +kernel
theorem test_mem_request : (reqS (.lda 16384) .waiting 0).waitsEarlier 0 (reqOf (.lda 16384) .waiting 0) = false ∧
    memBox.readMeets 1 1 false = .free ∧ ((reqS (.lda 16384) .waiting 0).streamRead 2 3 1 false false .good).2.1.isSome = true := by decide +kernel
theorem test_mem_put : ((reqS (.put rawPut 0 0 0 {}) .waiting 0).core 3).putTile 9 rawPut 0 0 0 0 {} |>.2.1.isEmpty := by decide +kernel
theorem test_write_tile : (mem core0 memBox).subkeys 2 1 = some (3, 0) ∧ ((mem core0 memBox).writeTile 2 1 { data := [(1, 1)] }).isSome = true := by
  decide +kernel
theorem test_frame_release : { mem core0 memBox with releasing := [frameKey 1 7] }.inUse 1 7 = false := by decide +kernel
def markBox : Box := { memBox with markers := [(1, 3)] }
theorem test_marker : markBox.markers = (1, 3) :: [] ∧ markBox.launch 1 = some launch1 ∧ ∀ m, launch1.marker = some m → m < 3 :=
  ⟨rfl, by decide, by intro m h; cases h⟩
def aMove (t : Nat) : Move := ⟨2, t, 1, 1, 0, false, false, none, false, false⟩
def moveS (t : Nat) : State := { mem core0 memBox with seats := [(0, { seat0 with moves := [aMove t] })] }
theorem test_move_start : (moveS 0).skips (aMove 0) 0 = true ∧ (moveS 1).skips (aMove 1) 1 = false ∧ ((moveS 1).box 2).st = 3 := by decide +kernel
def moving1 : Moving := ⟨aMove 1, 1, 1, 6⟩
def copyS : State := { mem core0 { memBox with tiles := [(1, { st := tsMigrating, tier := 0, frame := 5 })] } with
                       seats := [(0, { seat0 with moving := some moving1 })] }
theorem test_move_running : ((copyS.box 2).tile 1).st = tsMigrating ∧ (moving1.move.homing = true → ((copyS.box 2).tile 1).tier = 3) := by decide +kernel
theorem test_move_complete : ∃ d, copyS.checkedRead 2 1 (copyS.placeAt 2 0 5) .good 3 2 = (copyS, some d) := by
  have h : copyS.placeAt 2 0 5 = .at 0 5 := by decide +kernel
  have c : (copyS.contents 2 1 (.at 0 5)).isSome = true := by decide +kernel
  obtain ⟨d, hd⟩ := Option.isSome_iff_exists.1 c
  have u : (copyS.frame (frameKey 0 5)).upset = .good := by decide +kernel
  exact ⟨d, by rw [h]; simp [State.checkedRead, hd, u]⟩
def contrib0 (step : W64) : Contrib := ⟨2, 7, 1, 0, 3, 4, step, 0, 0, []⟩
def flightS : State := { mem core0 memBox with flights := [(0, some ⟨contrib0 5, none, 0, false⟩)] }
theorem test_contribution : flightS.flight 0 = some ⟨contrib0 5, none, 0, false⟩ ∧ (memBox.tag 7).st = 0 ∧ memBox.step ≤ (contrib0 5).step.toNat := by decide
def tagBox : Box := { memBox with step := 4, tags := [(7, { st := 1, s := 5, launch := 1 })] }
theorem test_contribution_steps : (tagBox.tag 7).st ≠ 0 ∧ (tagBox.tag 7).s < (contrib0 6).step.toNat ∧ (contrib0 4).step.toNat < (tagBox.tag 7).s ∧
    (contrib0 3).step.toNat < tagBox.step := by decide
theorem test_tag_completion : (mem core0 memBox).boxOfCore 3 = some 2 ∧ ∀ l ∈ memBox.launches, Tab.has l.saved 3 = false := by decide
theorem test_plan_target : planE.op = opAddInt ∧ planE.target = .int32 ∧ ({ planE with fmt := 0xB } : PlanEntry).target = .bi32 := by decide

/-! Launches, the curtain, restores, transfers and boxes. -/
def queued : Launch := { launch1 with num := 2, st := .queued, slot := 2 }
def startBox : Box := { hostBox with scripts := [(2, some ⟨List.replicate 8 img0, []⟩)], launches := [queued] }
theorem test_launch_start : (startBox.launch 2) = some queued ∧ (Tab.get none startBox.scripts 2).isSome = true ∧ (host startBox).mayStart 2 queued = true ∧
    (startBox.launchCores queued)[3]? = some 3 := by decide +kernel
/-- A launch of higher priority over one that runs on its cores. -/
def overBox : Box := { startBox with launches := [{ launch1 with slot := 2, lead := 0 }, { queued with prio := 2 }] }
theorem test_preempting : overBox.runsOn 3 = some { launch1 with slot := 2 } := by decide +kernel
theorem up_of (x : Box) (h : x.st = 3) : (host x).Up 2 := ⟨h, rfl⟩
def sealBox (p : Nat) : Box := { hostBox with cst := 1, curtain := some (curt p), partner := 2 }
theorem epochDone (p : Nat) : (host (sealBox p)).EpochDone 2 :=
  ⟨(by intro l h; cases h), (by intro q h; cases h), rfl, rfl⟩
def recBox (p : Nat) : Box := { sealBox p with tiles := (List.range 8).map (fun i => (i, { st := tsResident, tier := 0, frame := 9 + i, wing := true, we := 1, wtier := 1, wframe := 9 + i })) }
def recS : State := { host (recBox 1) with frames := (List.range 8).flatMap (fun i => [(frameKey 0 (9 + i), { kid := 3 }), (frameKey 1 (9 + i), { kid := 3 })]) }
/-- A place that serves a read with data at once. -/
def placeWell (s : State) (b : Nat) (p : Nat × Place) : Bool :=
  match p.2 with
  | .at a f => (s.frame (frameKey a f)).upset == .good && (s.contents b p.1 (.at a f)).isSome
  | _ => true
theorem test_seal_mirror : (recBox 1).partner = 2 ∧ 0 < 1 ∧ ((recBox 1).step + 1) % 1 = 0 ∧
    ((recS.writeRecWing 2).map (fun t => !(t.mirrorWings 2).isEmpty && (t.wingPlaces 2).all (placeWell t 2))) = some true := by decide +kernel
theorem test_seal : recS.Up 2 ∧ recS.EpochDone 2 ∧ (recS.writeRecWing 2).isSome = true :=
  ⟨⟨rfl, rfl⟩, ⟨(by intro l h; cases h), (by intro q h; cases h), rfl, rfl⟩, by
    have h := test_seal_mirror.2.2.2
    revert h
    cases recS.writeRecWing 2 <;> simp⟩
theorem test_seal_fails : (host { sealBox 0 with tagFailed := true }).EpochDone 2 := ⟨(by intro l h; cases h), (by intro q h; cases h), rfl, rfl⟩
theorem test_lead : (host hostBox).isLead 2 = true ∧ 0 < (host hostBox).boxGroup 2 ∧ ∀ d < (host hostBox).boxGroup 2, d ∈ (0 :: hostBox.lead.ready) := by
  decide
theorem test_lead_timeout : ({ hostBox with lead := { sealAt := true } } : Box).lead.decided = false := rfl
theorem test_heartbeat_loss : ∀ b, b < 16 → ((host hostBox).box b).binding = none := by decide
theorem test_close : ({ hostBox with cst := 2 } : Box).outcome = none ∧ hostBox.openE < 2 ^ 32 ∧ hostBox.step < 2 ^ 64 := by decide
theorem test_discard : (host hostBox).Up 2 ∧ ∀ l ∈ hostBox.launches, l.epoch = hostBox.openE → l.st ≠ LaunchSt.running ∧ l.st ≠ LaunchSt.queued :=
  ⟨up_of _ rfl, by intro l h; cases h⟩
def mirrorBox : Box :=
  { hostBox with curtain := some { curt 1 with mbase := 1 }, partner := 1, baseOp := some 3,
                 tiles := [(262144, { st := tsZero, wing := true, we := 1, wtier := 1, wframe := 9 })] }
theorem test_mirror : mirrorBox.frozen = false ∧ ((host mirrorBox).subkeys 2 262144).isSome = true ∧ mirrorBox.wingDone (mirrorBox.tile 262144) = false ∧
    mirrorBox.wingOpen (mirrorBox.tile 262144) = true := by decide +kernel
def takeBox : Box := { hostBox with curtain := some (curt 0), takeDue := some (4, 1, [(0, 4, 0)]), storeDue := some 4 }
theorem test_take : takeBox.curtain = some (curt 0) ∧ ((host takeBox).slot 6).seals < 2 ^ 20 ∧ (host takeBox).ownedSlot 2 6 2 = true ∧
    (∀ f ∈ [(0, 4, 0)], ((host takeBox).takeRead 2 f).isSome = true) ∧ takeBox.members ≤ 1 ∧ takeBox.cst ≠ 5 := by decide +kernel
def ownRec (complete : Bool) : LocalRec := { localRec0 with box := some 2, complete := complete, committed := false }
def takenS (complete : Bool) : State := { host takeBox with dev := { hostDev with retained := [ownRec complete] } }
theorem test_take_complete : (takenS false).dev.retained.find? (fun r => r.box == some 2 && !r.complete) = some (ownRec false) ∧
    (takenS true).dev.retained.any (fun r => r.box == some 2 && (r.rec0.step == 12 && r.complete) && !r.committed) = true := by decide
def aRestore : Restore := ⟨9, 0, false, false, false, 5, 0, 0, 0, [(0, 0)], 0, [], [], []⟩
def restoreBox : Box :=
  { hostBox with cst := 3, restore := some aRestore, curtain := some (curt 1), tiles := [(0, { st := tsRestoring, tier := 0, frame := 4 })] }
theorem test_restore : (host restoreBox).Up 2 ∧ ((host restoreBox).restoreTile 2 0 {}).isSome = true ∧ (List.replicate 16448 (0 : Byte)).length = 16448 :=
  ⟨up_of _ rfl, by decide +kernel, List.length_replicate⟩
def fullBox : Box := { restoreBox with restore := some { aRestore with todo := [], step := 0 },
                                       tiles := (List.range 8).map (fun i => (i, { st := tsResident, tier := 0, frame := 9 + i })) }
def fullS : State := { host fullBox with frames := (List.range 8).map (fun i => (frameKey 0 (9 + i), { kid := 3 })) }
theorem test_restore_complete : (fullS.liveRec 2).map (fun q => (q.step, realign q fullBox.coreList.length == (q, 0, 0))) = some (0, true) := by
  decide +kernel
def layer0 : Layer := ⟨0, 1, 1, 4⟩
def sceneBox (st kind : Nat) : Box := { hostBox with scene := { st := st, srcKind := kind, layers := [layer0], old := [1], written := 1 } }
theorem test_scene_copy : (sceneBox 1 0).scene.layer = some layer0 ∧ ((∀ n ∈ [1], (sceneBox 1 0).passedLayer n layer0 = true) ∨
    ∃ n ∈ [1], (sceneBox 1 0).passedLayer n layer0 = false) ∧ (sceneBox 2 2).scene.layer = some layer0 ∧ layer0.count ≤ (sceneBox 2 2).scene.written := by
  decide +kernel
def rekeyBox (st : Nat) : Box :=
  { hostBox with regions := [(0, some { aRegion with rot := true })], rekey := { active := true, slot := 5 }, tiles := [(0, { st := st, tier := 0, frame := 4 })] }
theorem test_rekey_walk : (rekeyBox tsResident).nextMarked = some (0, { aRegion with rot := true }) ∧
    (rekeyBox tsResident).nextWalked 0 { aRegion with rot := true } = some 0 ∧ (rekeyBox tsResident).walkFrames 0 = [(0, 4)] ∧
    (rekeyBox tsMigrating).nextWalked 0 { aRegion with rot := true } = some 0 ∧
    ({ rekeyBox 0 with tiles := [] } : Box).nextWalked 0 { aRegion with rot := true } = none ∧ (host (rekeyBox tsResident)).frameOk 2 0 4 = true := by
  decide +kernel
def aRun : Run := ⟨1, .op 9, true, [1], 0, 0, 0⟩
def runningBox : Box := { xferBox with runs := [aRun] }
theorem test_transfer : (host runningBox).ownedSlot 2 6 2 = true ∧ runningBox.runOf 1 = some aRun ∧ runningBox.xfer 1 = some (aXfer 1) ∧
    (host { runningBox with xfers := [(1, some (aXfer 2))] }).dev.on = true ∧ ((host runningBox).ordWrite 2 0 {}).isSome = true := by decide +kernel
theorem test_box_seated : (host { hostBox with st := 1 }).dev.on = true ∧ ((host { hostBox with st := 4 }).box 2).st = 4 := by decide

/-! Links, packets, groups, power, bring-up, parts and the life cycle. -/
def fabS (st : Nat) (lanes : W32) : State :=
  { hostS with dev := { hostDev with nvs := [(0x88, lanes)], fab := [(0, { st := st, lane0 := 0, lane1 := 1, spare := 2, paused := st == 3 })] } }
theorem test_host_ethernet : hostS.dev.on = true ∧ (hostS.eth 0).up = true ∧ (hostS.eth 0).secured = true ∧ (hostS.eth 0).cak = true ∧
    (hostS.eth 0).sakAsked = false ∧ (∀ b, b < 16 → (hostS.box b).runs = []) := by decide
/-- In TEST a peer is attested by its signature alone. -/
theorem test_link_peer (q : Peer) (hl : q.lcs = 1) (hv : Config.verifyFast q.pk q.msg q.sig = true) : hostS.peerOk q = true := by
  have h : hostS.lcs = 1 := by decide
  simp [State.peerOk, h, hl, hv]
theorem test_link_no_peer : hostS.peerOk ⟨1, [], 0, [], [], []⟩ = false ∧ hostS.goodLanes 0 ≠ [] ∧ 5 ≤ hostS.dev.phase := by
  refine ⟨?_, by decide, by decide⟩
  have h : hostS.lcs = 1 := by decide
  simp [State.peerOk, h]
theorem test_link_up : 2 ≤ ((fabS 2 0).fab 0).st ∧ ((fabS 2 0).fab 1).st < 2 := by decide
def boundS : State := { hostS with boxes := [(2, { hostBox with binding := some ⟨3, 4, 1, [7]⟩ })] }
theorem test_transit : (boundS.seat 0).owner = some 2 ∧ (boundS.box 2).binding = some ⟨3, 4, 1, [7]⟩ ∧ (boundS.seat 1).owner = none := by decide
theorem test_lane_spare : ((fabS 2 0).retireLane 0).goodLanes 0 = [1, 2] ∧ (fabS 2 0).goodLanes 0 = [0, 1, 2] := by decide +kernel
theorem test_lane_one : ((fabS 2 2).retireLane 0).goodLanes 0 = [2] ∧ (fabS 2 2).goodLanes 0 = [0, 2] := by decide +kernel
theorem test_lane_none : ((fabS 2 6).retireLane 3).goodLanes 0 = [] ∧ (fabS 2 6).goodLanes 0 = [0] ∧ ((fabS 3 0).fab 0).paused = true := by
  decide +kernel
def windowed : Session := { h := 5, seen := [2, 5] }
theorem test_window : (∀ n ∈ windowed.seen, n ≤ windowed.h ∧ windowed.h < n + 1024) ∧ windowed.seqOf 6 0x10 = .take ∧ windowed.seqOf 4 0x10 = .take ∧
    windowed.seqOf 0 0x10 = .drop := by decide
theorem test_window_top : (∀ n ∈ [2 ^ 32 - 1], n ≤ 2 ^ 32 - 1 ∧ 2 ^ 32 - 1 < n + 1024) ∧
    ({ h := 2 ^ 32 - 1, seen := [2 ^ 32 - 1] } : Session).seqOf (2 ^ 32 - 2) 1 = .take := by decide
/-- The first fragment of a command, and a packet whose tag is not the one of its key. -/
def fragHdr (op : Nat) (p : List Byte) : Hdr :=
  let h : Hdr := { plainHdr 0 2 op with flags := 2 }
  { h with tag := Config.gcmTag 7 (packetNonce 0 2 0 1) (commandBytes h op p) }
theorem admit_tagged (h : Hdr) (op : Nat) (p : List Byte) (hp : h.port = 0) (hb : h.box = 2) (hd : h.dst = 0x125C) :
    hostS.screened h op p = if Config.gcmTag 7 (packetNonce 0 2 h.frag.toNat h.seq.toNat) (commandBytes h op p) = h.tag then .from fromB else .authFail := by
  have ha : hostS.answers = true := by decide
  have he : (hostS.eth 0).secured = true := by decide
  have hk : hostS.keyless = false := by decide
  have hs : (hostS.box 2).st = 3 := by decide
  have hkey : hostS.boxKey 2 = some 7 := by decide
  have hq : hostS.publicOk h op p = false := by simp [State.publicOk, hk, hb, hs]
  simp only [State.screened, hq, Bool.and_false]
  have hn : hostS.nvs 0 = 0x125C := by decide
  simp [hp, hb, hd, hn, ha, he, hk, hs, hkey, fromB]
theorem test_fragment (p : List Byte) : hostS.screened (fragHdr 0x10 p) 0x10 p = .from fromB ∧ (fragHdr 0x10 p).frag.toNat < 63 ∧
    (fragHdr 0x10 p).flags.toNat.testBit 1 = true ∧ (hostS.session (asmOf fromB)).asm = none ∧ (hostS.session 2).seqOf 1 0x10 = .take := by
  refine ⟨?_, show (0 : Nat) < 63 by decide, show (2 : Nat).testBit 1 = true by decide, by decide, by decide⟩
  rw [admit_tagged _ _ _ rfl rfl rfl]
  simp [fragHdr, plainHdr, commandBytes]
theorem test_bad_tag (op : Nat) (p : List Byte) : hostS.screened { hdrB op p with tag := (hdrB op p).tag + 1 } op p = .authFail := by
  rw [admit_tagged _ _ _ rfl rfl rfl]
  simp [hdrB, plainHdr, commandBytes]
theorem test_unlisted : opRow 0x7F = none ∧ (hdrB 0x7F []).flags = 0 ∧ (hdrB 0x7F []).frag = 0 := ⟨rfl, rfl, rfl⟩
theorem test_silent : ({ hostS with dev := {} }.screened (hdrB 0x10 []) 0x10 []) = .silent := rfl
theorem test_gate_session : (opRow 0x0100).map (fun r => (r.box, r.mgt, hostS.gate fromB r)) = some (false, true, some (stNotAuth, [])) := by decide
theorem test_gate_fault : (opRow 0x0202).map (fun r => { hostS with dev := { hostDev with dstate := dsFault } }.gate fromB r)
    = some (some (stReject, [2, 4])) := by decide
theorem test_seated : (seatedS.box 2).st = 2 ∧ seatedS.answers = true ∧ (seatedS.eth 0).secured = true ∧ seatedS.keyless = false := by decide
theorem test_slot_expires : ((hostOps 0).session 2).op 9 = some { hostOp with ostatus := 0 } ∧ ({ hostOp with ostatus := 0 } : Op).partsRunning = false := by
  decide +kernel
/-- Box 2 is a part of a group of four whose lead is device 3. -/
def partS : State := { boundS with boxes := [(2, { hostBox with binding := some ⟨3, 4, 1, [7]⟩, reserved := [(8, 0x10, f4 9)] })] }
theorem test_reserved : partS.isLead 2 = false ∧ (∃ r ∈ (partS.box 2).reserved, r.1 = 8) ∧
    (partS.box 2).reserved.find? (fun r => r.1 == 8) = some (8, 0x10, f4 9) := by decide +kernel
def fwd : Forwarded := ⟨2, 8, { plainHdr 0 2 0x10 with target := 3 }, 0x10, f4 9⟩
theorem test_forwarded_reply : ({ hostS with dev := { hostDev with forwarded := [fwd] } }.dev.forwarded.find? (fun f =>
    f.box == 2 && f.hdr.seq == 1 && f.hdr.target.toNat == 3)) = some fwd ∧ (hostS.boxKey 2).isSome = true := by decide +kernel
theorem test_unbound : ∀ c, c < 16 → (hostS.box c).binding = none := by decide
theorem test_forwarded_command : partS.groupIndex ≠ 3 ∧ partS.leadAttested ⟨3, 4, 1, [7]⟩ [7] = true ∧ (partS.box 2).st = 3 ∧
    (opRow 0x401).map (fun r => (r.isOp, partS.gate { partS.boxSender 2 0 with key := some 0, port := 2 } r)) = some (false, none) ∧
    (∀ c, c < 2 → (partS.box c).binding = none) ∧ partTiles (partS.cmdReads 2 0x401 []) = [] := by decide +kernel
def fedS (a : Feed) (on : Bool) : State := { State.reset with dev := { State.reset.dev with on := on, feedA := a } }
theorem test_feeds : ((fedS {} false).feed false).present = false ∧ ((fedS { openSw := true } false).feed false).openSw = true ∧
    ((fedS { present := true } true).feed false).present = true ∧ (fedS {} true).fed = false ∧ (fedS { present := true } true).fed = true := by decide
theorem test_loss : ({ fedS {} true with dev := { (fedS {} true).dev with loss := true, sag := true } } : State).dev.loss = true := rfl
theorem test_partner : (host { hostBox with curtain := some { curt 1 with map := [1] }, partner := 2 }).partnerOf 2 = some 1 ∧ feedsOk 1 2 3 4 = true ∧
    feedsOk 1 1 2 1 = false := by decide
theorem test_power_good : State.reset.dev.on = false ∧ ∀ k, k < 3 → State.reset.row (intentRow k) = 0 := by decide
def phaseS (n : Nat) : State := { hostS with dev := { hostDev with phase := n, dstate := 0 } }
theorem test_phases : (phaseS 2).dev.waitWipe = false ∧ (phaseS 2).dev.trans = none ∧ (phaseS 2).lcs = 1 ∧ (phaseS 5).dev.dstate ≠ dsFault := by decide
def goodReport : PhaseReport := ⟨5, true, List.replicate 8 (BitVec.ofNat 17 (2 ^ 17 - 1)), 0xFFFF, [], 0xFFFFFF, [], false, 7⟩
theorem test_mapping : hostS.retiredCores 3 = 0 ∧ hostS.wiresOver 3 = 0 ∧ (goodReport.goodCores.getD 3 0).toNat = 2 ^ 17 - 1 ∧
    goodReport.goodSeats.getLsbD 6 = true ∧ goodReport.goodSeats.getLsbD 7 = true := by decide +kernel
theorem test_thermal : hostS.dev.therm = false ∧ hostS.dev.tripped = false := ⟨rfl, rfl⟩
theorem test_core_fails : hostS.retiredCores 0 = 0 ∧ (hostS.nvsGroup [(0x80, BitVec.ofNat 32 (2 ^ 3))]).2 = true ∧
    (Tab.get 0 hostS.dev.coreMap 0).testBit 3 = false ∧ (Tab.get 0 [(0, 2 ^ 16)] 0 : Nat).testBit 16 = true := by decide +kernel
theorem test_seat_out : (hostS.seat 0).inService = true ∧ (hostS.seat 0).owner = some 2 ∧ (hostS.seat 0).moving = none ∧ (hostS.box 2).launches = [] ∧
    ((hostS.box 2).tile 0).st ≠ 0 ∧ (hostS.box 2).wingDone ((hostS.box 2).tile 0) = false := by decide
/-- A device in TEST, no box open, whose port token has the digest of row 1. -/
def tokenS (row : BitVec 256) (bad : Nat) : State :=
  { State.reset with dev := { hostDev with rows := [(1, row), (4, transWord 0x49 0 1 0)], badTokens := bad } }
theorem token_row (row : BitVec 256) (bad : Nat) : (tokenS row bad).row 1 = row := by
  have h1 : (tokenS row bad).rowHome 1 = 1 := rfl
  have h2 : (tokenS row bad).cells 1 = row := rfl
  have h3 : (tokenS row bad).dev.rowSeen = [] := rfl
  simp [State.row, State.rowBad, h1, h2, h3, Tab.get]
theorem test_unlock (token : List Byte) : (tokenS (keyOf (Config.shake 32 token)) 2).tokenOk 1 token = true ∧
    (tokenS (keyOf (Config.shake 32 token) + 1) 2).tokenOk 1 token = false := by
  simp [State.tokenOk, token_row]
theorem test_unlock_state : (tokenS 5 2).lcs = 1 ∧ (tokenS 5 3).notFree = none ∧ State.reset.lcs = 0 := by decide +kernel
theorem test_wipe : ({ hostDev with trans := some ⟨0, 0, 1, none⟩ } : Dev).resolved = false := rfl
theorem test_settings : (∀ p ∈ [(0x20, (5 : W32)), (0x21, 6)], p.1 ∉ hostS.dev.nvsFrozen ∧ hostS.cellUp p.1 = false) ∧
    ({ hostDev with nvsFrozen := [0x20] } : Dev).nvsFrozen = [0x20] := by decide +kernel
theorem test_install : hostS.seatFree = true ∧ ({ hostDev with installing := some (9, 1, ⟨[]⟩, false) } : Dev).flashRo = false := by decide
def attestOp : Op := { hostOp with opcode := 0x0500, arg := [1] }
theorem test_attest_done : ({ hostS with sess := [(2, { ops := [attestOp] })] }.session 2).op 9 = some attestOp ∧ attestOp.ostatus = 1 ∧
    attestOp.arg ≠ [] := by decide +kernel
theorem test_spare_rows : (tokenS 5 0).spareRowsFree ≥ 4 ∧ (tokenS 5 0).notFree = none ∧ (tokenS 5 0).dev.trans = none := by decide +kernel
theorem test_reset_idles : (match step State.reset with | .next t => decide (t = State.reset) | _ => false) = true := by decide +kernel

/-! Clauses of several rows, tokens of one cycle, and what memory, engines and moves do besides. -/
theorem reads_of (s : State) (b : Nat) (ts : List Nat) (h : ts.all (wellB s b) = true) : ∀ t ∈ ts, s.readsWell b t :=
  fun t ht => wellB_reads s b t (List.all_eq_true.1 h t ht)
theorem lines_of (s : State) (b : Nat) (ts : List Nat) (h : ts.all (wellB s b) = true) : ∀ t ∈ ts, s.lineWell b t :=
  fun t ht => (reads_of s b ts h t ht).2
/-- Tokens of one core cycle that arrive out of the order of their cues, or of their kinds. -/
def tokAt (kind : TokKind) (cue : Nat) : Token := ⟨kind, cue, 0, 0, 0, false, 1⟩
theorem test_tokens_of_one_cycle : (run { cueCore 0 false false with toks := [tokAt .post 6, tokAt .post 5] }).Runs 3 2 launch1 ∧
    (tokAt .post 5).cue < (tokAt .post 6).cue ∧ (tokAt .fill 5).cue = (tokAt .other 5).cue ∧
    (tokAt .fill 5).kind.rank < (tokAt .post 5).kind.rank ∧ (tokAt .post 5).kind.rank < (tokAt .other 5).kind.rank :=
  ⟨runs_of _ rfl, by decide, rfl, by decide, by decide⟩
theorem test_log_line : ∀ t ∈ partTiles [(launch1.log + 16 * launch1.logged, 16)], (run core0).lineWell 2 t :=
  lines_of _ _ _ (by decide +kernel)
theorem test_core_image_lines : ∀ t ∈ partTiles [(0, imageSize)], backState.lineWell 2 t := by
  intro t ht
  have hb : partTiles [(0, imageSize)] = (List.range 596).map (· + 0) := by decide +kernel
  rw [hb] at ht
  obtain ⟨i, hi, rfl⟩ := List.mem_map.1 ht
  have e : (backState.box 2).tile i = { st := tsZero } := by
    show Tab.get {} (Tab.block {} 0 (List.replicate 596 ({ st := tsZero } : Tile))) i = _
    exact get_zeros 596 i (List.mem_range.1 hi) _
  simp [State.lineWell, State.readPlace, e, Box.wingDone]
/-- Two rows of a drain to FP32 under RND = 0b10, with their element-wise, derivative and top-k stages. -/
def descs3 : Mem := Tab.block 0 0 (
  (f1 0 ++ f1 0 ++ f4 0 ++ f4 256 ++ f1 1 ++ f4 0 ++ f2 3 ++ f2 10 ++ leBytes 45 0) ++
  (f1 0 ++ f2 510 ++ f2 2 ++ f4 0x20000 ++ f4 512 ++ f1 0 ++ f4 0 ++ f1 2 ++ f1 0 ++ f1 0 ++ f1 3 ++ f1 4 ++ f1 5 ++ f1 1 ++ f4 0x1000
    ++ f4 512 ++ f1 0 ++ f1 1 ++ f4 0x8000 ++ f4 64 ++ f1 3 ++ f4 0x40000 ++ f1 0 ++ leBytes 15 0))
def rowsCore : Core := { core0 with descs := descs3, nDescs := 2 }
theorem test_hmul_rows : (rowsCore.hmulOp 0 0 0).map (fun d => rowsCore.mulPlanesOk d && d.rows == 3 &&
    (List.range d.rows).all (rowsCore.mulMay d)) = some true := by decide +kernel
/-- The stores of the first row and what the second reads lie apart. -/
def spansApart (p q : Nat × Nat) : Bool := decide (p.1 + p.2 ≤ q.1) || decide (q.1 + q.2 ≤ p.1)
theorem test_hdrain_rows : (rowsCore.hdrainOp 1 0 0).map (fun d => (d.arr, d.rows, d.ewOp, d.deriv, d.topk)) = some (0, 2, 1, 1, 3) ∧
    (rowsCore.hdrainOp 1 0 0).map (fun d => (List.range 2).all (fun i =>
      let stores := (drainRuns d i (List.replicate 128 0) []).map (fun r => (r.1, r.2.length))
      let ew := (rowAddr d.ewSrc d.ewStride i, 128 * (fmtOf d.ewFmt).width / 8)
      let der := (derivAddr d i, (derivRow d.deriv).2)
      (ew :: der :: stores).all (fun r => rowsCore.mayAccess r.1 r.2) && stores.all (fun r => spansApart r ew && spansApart r der))) = some true := by
  decide +kernel
theorem test_preload_rows : (hingeCore.preloadOp 3 0 0).map (fun d => (List.range d.rows).all (fun i =>
      hingeCore.mayAccess (rowAddr d.src (if d.kind = 1 then d.stride else 0) i) (128 * (fmtOf d.fmt).width / 8))) = some true ∧
    (hingeCore.hsaveOp 4 0 0).map (fun d => (List.range (arrsOf d.arrs).length).all (fun m => (List.range d.rows).all (fun i =>
      hingeCore.mayAccess ((d.addr + m * d.rows * 0x400 + i * 0x400) % 0x800000) 0x400 && (List.range 8).all (fun q =>
        hingeCore.mayAccess (((d.addr + m * d.rows * 0x400 + i * 0x400) % 0x800000 + q * 128) % 0x800000) 128)))) = some true := by
  decide +kernel
/-- A drain whose rows an HMUL has accumulated to a cycle before: the last of the cycles at which it is still held. -/
def accCore : Core :=
  { rowsCore with descs := Tab.block 0 0 (f1 0 ++ f2 10 ++ f2 1 ++ f4 4096 ++ f4 512 ++ leBytes 51 0), nDescs := 1, now := 23,
                  accs := [.mul 0 0 (23 - 13) 10 1 false], flight := [⟨keyAt (23 + (14 - 13)) phLand, 1, 2, .accAdd 0 10 1 []⟩] }
theorem test_drain_waits : (run accCore).Runs 3 2 launch1 ∧ (accCore.hdrainOp 0 0 0).map (fun d => (d.arr, d.rows, d.accRow)) = some (0, 1, 10) ∧
    accCore.heldAt = none ∧ accCore.bundle = [] := ⟨runs_of _ rfl, by decide +kernel, rfl, rfl⟩
theorem test_ordinary_values : Fmt.bf16.decode 0x3F80 ≠ .nan ∧ Fmt.bf16.decode 0xBF80 ≠ .nan ∧ (0xBF80 : Nat) < 2 ^ Fmt.bf16.width ∧
    Fmt.bf16.minCode 0x3F80 0xBF80 = 0xBF80 ∧ Fmt.bf16.maxOf 0x3F80 0xBF80 = 0x3F80 ∧ Fmt.bf16.absCode 0xBF80 = 0x3F80 ∧
    Fmt.fp16.decode 0x7C00 = .inf false ∧ Fmt.bf16.decode 0x7FC1 = .nan := by decide +kernel
theorem test_amax_boundary : amaxForm 0 0 = 0 ∧ amaxForm 1 (-149) = 1 ∧ amaxForm 1 200 = 0x7F7FFFFF := by decide +kernel
/-- Three elements of one rank and a NaN, in the order of their positions. -/
def rankPairs : List (Nat × Nat) := [(0, 0x3F80), (2, 0x7FC0), (3, 0x3F80)]
theorem test_ranking : rankPairs.Pairwise (fun a b => a.1 < b.1) ∧ (∀ p ∈ rankPairs, p.2 < 2 ^ Fmt.bf16.width) ∧
    ranked .bf16 false rankPairs = [(2, 0x7FC0), (0, 0x3F80), (3, 0x3F80)] := by decide +kernel
theorem test_odd_cue : (run { cueCore 0 false false with cues := [(7, ⟨true, 0, 2, false, false, none⟩)] }).Quiet 3 2 launch1 ∧
    (({ cueCore 0 false false with cues := [(7, ⟨true, 0, 2, false, false, none⟩)] } : Core).cue 7).pol = 2 ∧ 7 % 2 = 1 ∧
    ({ launch1 with under := true, logged := 4096 } : Launch).logged = 4096 := ⟨quiet_of _ rfl, by decide⟩

/-! Contributions: tag 7 of box 2 adds to tile 1, whose first contribution the tag zeroes. -/
def sumTag : Tag := { st := 1, entry := some { planE with zero := true, ncontrib := 3, first := 1 }, s := 4 }
def sumBox (g : Tag) : Box := { memBox with step := 4, tags := [(7, g)] }
def sumReq : Req := reqOf (.racc 0) .waiting 0
def sumS (g : Tag) : State :=
  { mem (streamCore { ctx0 with outs := [⟨0, .racc, 0, false⟩] }) (sumBox g) with
      flights := [(0, some ⟨contrib0 4, none, 0, false⟩)], reqs := [(0, some sumReq)], nextReq := 1 }
theorem test_accepted_contribution : (sumS sumTag).flight 0 = some ⟨contrib0 4, none, 0, false⟩ ∧ (sumS sumTag).req 0 = some sumReq ∧
    (sumS sumTag).waitsEarlier 0 sumReq = false ∧ (sumTag.entry.map (fun e => (e.op, e.required, e.zero))) = some (opAddInt, 3, true) ∧
    sumTag.covers 1 = true ∧ (sumS sumTag).engineOf 2 1 = (0, true) ∧ (sumTag.tile 1).complete = false ∧ (sumTag.tile 1).count + 1 < 3 ∧
    ((sumS sumTag).writePlace 2 1).isSome = true ∧ (((sumS sumTag).box 2).tile 1).st ≠ tsMigrating ∧ ((sumS sumTag).seat 0).staged.length < 64 := by
  decide +kernel
theorem test_refused_contributions :
    ((sumS { sumTag with entry := some { planE with first := 0, count := 1 } }).box 2).tag 7 ≠ sumTag ∧
    ({ sumTag with entry := some { planE with first := 0, count := 1 } } : Tag).covers 1 = false ∧
    ({ sumTag with entry := some { planE with first := 1, fmt := 0xB }, grid := 5 } : Tag).covers 1 = true ∧
    ({ planE with first := 1, fmt := 0xB } : PlanEntry).target = .bi32 ∧ signedOf 16 (contrib0 4).grid.toNat ≠ 5 ∧
    ({ sumTag with st := 2 } : Tag).st ≠ 1 ∧ ({ sumTag with st := 2 } : Tag).st ≠ 0 := by decide +kernel
/-- A tag completes for a core whose launch is preempted. -/
def awaitLaunch : Launch := { launch1 with plan := [planE], saved := [(3, cueCore 0 false false)] }
def awaitS : State := { run {} with boxes := [(2, { runBox with launches := [awaitLaunch] })] }
theorem test_tag_of_preempted : awaitS.boxOfCore 3 = some 2 ∧ (awaitS.box 2).runsOn 3 = none ∧ (awaitS.box 2).launches = [awaitLaunch] ∧
    Tab.has awaitLaunch.saved 3 = true ∧ awaitLaunch.awaits 7 = true := by decide +kernel
/-- A RACC whose engine is another device's. -/
theorem test_refused_elsewhere : (reqS (.racc 4) .waiting 0).ownsReq 0 (reqOf (.racc 4) .waiting 0) = true ∧
    ({ reqS (.racc 4) .waiting 0 with flights := [(4, some ⟨contrib0 5, some 6, 0, false⟩)] } : State).flight 4
      = some ⟨contrib0 5, some 6, 0, false⟩ := by decide +kernel

/-! The curtain, links, power, parts and the life cycle: the conditions of their clauses that other tests do not meet. -/
theorem meets_of (s : State) (b cause unit : Nat) (ps : List (Nat × Place)) (h : ps.all (placeWell s b) = true) :
    s.meetPlaces b ps cause unit = (s, true) := by
  unfold State.meetPlaces
  induction ps with
  | nil => rfl
  | cons p ps ih =>
    simp only [List.all_cons, Bool.and_eq_true] at h
    rw [List.foldl_cons]
    have e : (match p.2 with
      | .at _ _ => ((s.checkedRead b p.1 p.2 .good cause unit).1, true && (s.checkedRead b p.1 p.2 .good cause unit).2.isSome)
      | _ => (s, true)) = (s, true) := by
      obtain ⟨t, q⟩ := p
      have h1 := h.1
      rcases q with _ | _ | _ <;> first
        | rfl
        | simp only [placeWell, Bool.and_eq_true, beq_iff_eq] at h1
          obtain ⟨d, hd⟩ := Option.isSome_iff_exists.1 h1.2
          simp [State.checkedRead, h1.1, hd]
    exact (congrArg (fun a => List.foldl _ a ps) e).trans (ih h.2)
theorem test_close_ready : ({ hostBox with cst := 2 } : Box).orphan = false ∧ ({ hostBox with cst := 2 } : Box).tags = [] ∧ (host { hostBox with cst := 2 }).Up 2 :=
  ⟨rfl, rfl, up_of _ rfl⟩
theorem test_base_mirror : ∀ p ∈ mirrorBox.protectedTiles, (host mirrorBox).lineWell 2 p.2 := by
  intro p hp
  exact lines_of (host mirrorBox) 2 (mirrorBox.protectedTiles.map Prod.snd) (by decide +kernel) p.2 (List.mem_map_of_mem hp)
theorem test_mirror_wing : (mirrorBox.tile 262144).st ≠ 0 ∧ (mirrorBox.tile 262144).wlost = false ∧ (mirrorBox.tile 262144).wtier ≠ 2 ∧
    (7 : W32).toNat ≠ mirrorBox.openE ∧ (7 : W32).toNat ≠ mirrorBox.resolvedE := by decide +kernel
theorem test_restored_record : ∀ i < 5, fullS.lineWell 2 ((curt 1).steprec + i) := by
  intro i hi
  exact lines_of fullS 2 ((List.range 5).map (fun i => (curt 1).steprec + i)) (by decide +kernel) _ (List.mem_map_of_mem (List.mem_range.2 hi))
/-- A take that holds a frame of HBM3E. -/
def heldS : State := { host { takeBox with takeDue := some (4, 1, [(1, 0, 5)]) } with frames := [(frameKey 0 5, { data := [(3, 9)], side := [(0, 0)], kid := 3 })] }
def heldU : State := heldS.dropRecords 2 (fun r => r.committed)
theorem test_take_reads : (∃ d, heldU.heldRead 2 1 (.at 0 5) .good 1 5 = (heldU, some d)) ∧ (heldU.takeRead 2 (1, 0, 5)).isSome = true := by
  have p : heldU.placeAt 2 0 5 = .at 0 5 := by decide +kernel
  have l : heldU.readPlace 2 1 = .at 0 5 := by decide +kernel
  have c : (heldU.contents 2 1 (.at 0 5)).isSome = true := by decide +kernel
  have u : (heldU.frame (frameKey 0 5)).upset = .good := by decide +kernel
  obtain ⟨d, hd⟩ := Option.isSome_iff_exists.1 c
  exact ⟨⟨d, by simp [State.heldRead, State.checkedRead, p, l, hd, u]⟩, by decide +kernel⟩
def rekeyS : State := { host (rekeyBox tsResident) with ring := [(5, { st := 1, kind := 1, owner := 2, kid := 3, gen := 1, prev := some 0 })] }
theorem test_rekey_reads : (∃ d, rekeyS.checkedRead 2 0 (.at 0 4) .good 4 3 = (rekeyS, some d)) ∧
    (rekeyS.frame (frameKey 0 4)).kid ≠ (rekeyS.slot 5).kid := by
  have c : (rekeyS.contents 2 0 (.at 0 4)).isSome = true := by decide +kernel
  have u : (rekeyS.frame (frameKey 0 4)).upset = .good := by decide +kernel
  obtain ⟨d, hd⟩ := Option.isSome_iff_exists.1 c
  exact ⟨⟨d, by simp [State.checkedRead, hd, u]⟩, by decide +kernel⟩
theorem test_marked_record : aRun.retries < 7 ∧ ({ aRun with retries := 7 } : Run).retries ≤ 7 ∧ aRun.who = .op 9 ∧ (aXfer 1).dir = 1 := by decide
theorem test_own_address : hostS.nvsBytes (2 + 12 * 0) 4 = leBytes 16 0 ∧
    ({ hostS with dev := { hostDev with nvs := [(7, 0x0100007F)] } }.nvsBytes (7 + 12 * 0) 1 ≠ leBytes 4 0) ∧ leBytes 16 1 ≠ hostS.nvsBytes 2 4 := by decide +kernel
/-- An association in use, with the one before it still received. -/
theorem test_associations : ({ up := true, secured := true, cak := true, an := 1, pn := 7, oldAn := some 0, oldPn := 9 } : EthPort).oldAn = some 0 ∧
    (1 : Nat) ≠ 0 ∧ (9 : Nat) < (10 : W64).toNat := by decide
theorem test_frames_left : (2 ^ 32 - 2 : Nat) + 1 < 2 ^ 32 ∧ 2 ^ 32 ≤ (2 ^ 32 - 1 : Nat) + 1 := by decide
theorem test_two_windows : ∀ n ∈ windowed.seen, n ≤ windowed.h ∧ windowed.h < n + 1024 := test_window.1
theorem test_forwarded_lines : ∀ t ∈ partTiles (partS.cmdReads 2 0x401 []), partS.lineWell 2 t := lines_of _ _ _ (by decide +kernel)

/-- A powered device with feeds of two codes, whose box 2 has a partner. -/
def pairS (a b : Nat) : State :=
  { host { hostBox with curtain := some { curt 1 with map := [1] }, partner := 2 } with
      dev := { hostDev with feedA := { present := true, volt := 480, fid := a }, feedB := { present := true, volt := 470, fid := b }, partnerFid := [(2, (3, 4))] } }
theorem test_feed_codes : (pairS 1 2).dev.on = true ∧ (pairS 1 2).partnerOf 2 = some 1 ∧ ((pairS 1 2).box 2).partner = 2 ∧
    feedsOk 1 2 ((pairS 1 2).partnerCodes 2).1 ((pairS 1 2).partnerCodes 2).2 = true ∧
    feedsOk 3 2 ((pairS 1 2).partnerCodes 2).1 ((pairS 1 2).partnerCodes 2).2 = false ∧
    (∀ k < 16, ((pairS 1 2).partnerOf k).isSome = true → k = 2) := by decide +kernel
theorem test_feed_bounds : ((pairS 1 2).feed false).present = true ∧ (380 : BitVec 10).toNat = 380 ∧ (379 : BitVec 10).toNat < 380 ∧
    600 < (601 : BitVec 10).toNat ∧ (fedS { openSw := true } true).fed = false := by decide
theorem test_loss_in_a_sag : ({ fedS {} true with dev := { (fedS {} true).dev with sag := true } } : State).dev.loss = false ∧
    ({ fedS {} true with dev := { (fedS {} true).dev with sag := true } } : State).fed = false := by decide
/-- A transition whose commit row has not been programmed. -/
def pendingS : State := { State.reset with dev := { State.reset.dev with rows := [(4, transWord 0x49 0 1 0)] } }
theorem test_pending_transition : pendingS.dev.on = false ∧ pendingS.row (intentRow 0) ≠ 0 ∧ pendingS.row (commitRow 0) = 0 ∧
    ∀ j < 3, 0 < j → pendingS.row (intentRow j) = 0 := by decide +kernel
theorem test_phase_waits : ({ hostDev with phase := 2, dstate := 0, waitWipe := true } : Dev).waitWipe = true ∧
    ({ hostDev with phase := 2, dstate := 0, trans := some ⟨0, 0, 1, none⟩ } : Dev).trans.isSome = true := by decide
theorem test_array_line : let w := (hostS.core 3).remap0
    0x80 ≤ (remapPair w false).2 ∧ 5 ≠ (remapPair w false).1 ∧ 5 ≠ (remapPair w false).2 ∧ (3, 0, false, (remapPair w false).2) ∉ hostS.dev.linesGone := by
  decide +kernel
theorem test_last_parts : ({ hostDev with flashRo := true } : Dev).flashRo = true ∧ 7 ∉ hostDev.sensorsGone ∧
    7 ∈ ({ hostDev with sensorsGone := [7] } : Dev).sensorsGone := by decide
/-- Box 2 on its one seat, with an open tag whose target lies there, and the device's last seat. -/
def oneSeat (g : List (Nat × Tag)) : State := { mem core0 { memBox with tags := g, launches := [] } with dev := { hostDev with phase := 15 } }
theorem test_last_seat : (oneSeat []).dev.phase = 15 ∧ (∀ j < 16, j ≠ 0 → ((oneSeat []).seat j).inService = false) ∧
    ((oneSeat []).seat 0).owner = some 2 ∧ ((oneSeat []).box 2).launches = [] := by decide +kernel
theorem test_seat_of_a_target : (sumTag.st = 1 ∧ sumTag.covers 1 = true ∧ Tab.has ((oneSeat [(7, sumTag)]).box 2).tiles 1 = true) ∧
    (oneSeat [(7, sumTag)]).readPlace 2 1 = .at 0 5 ∧ seatOf 0 5 = some 0 := by decide +kernel
/-- A wipe of a transition that a command began. -/
def wipeS : State := { tokenS 5 0 with dev := { (tokenS 5 0).dev with trans := some ⟨0, 0, 1, some 9⟩ } }
theorem test_commit_row : wipeS.rowHome (commitRow 0) = 5 ∧ wipeS.rowBad 5 = false ∧
    (wipeS.programCells 5 (transWord 0x43 0 1 0)).readsBack 5 (transWord 0x43 0 1 0) = true := by decide +kernel
theorem test_no_seat_free : (host { hostBox with seats := 3 }).seatFree = true ∧
    ({ host hostBox with seats := [(0, seat0)] } : State).seatFree = false := by decide +kernel
def testS : State := { hostS with dev := { hostDev with selftest := some (16, 9, 2) } }
theorem test_selftest_passes : testS.dev.selftest = some (16, 9, 2) ∧ ∀ r ∈ [((1 : Fin 16), (0 : Byte))], r.2 = 0 := ⟨rfl, fun r h => by rw [List.mem_singleton.1 h]⟩

/-! Commands: sections of a launch, parts, outcomes of earlier epochs, registers, refusals, and boxes apart. -/
def underOp : Op := { hostOp with ostatus := 0, launch := some 1 }
def underBox : Box := { hostBox with launches := [{ launch1 with under := true, logged := 2, rlen := 64, resAddr := 0, log := 0 }] }
def underS : State := { host underBox with sess := [(2, { ops := [underOp] })] }
theorem test_op_sections : (underS.opLaunch 2 underOp).isSome = true ∧ (underS.rangeRead 2 0 32).isSome = true ∧ underOp.partsRunning = false ∧
    underS.Accepts (hdrB 0x11 (f4 9 ++ f4 1 ++ f8 0 ++ f2 32)) 0x11 (f4 9 ++ f4 1 ++ f8 0 ++ f2 32) fromB :=
  ⟨by decide +kernel, by decide +kernel, by decide +kernel, accepts_box _ _ _ (by decide +kernel) (by decide +kernel)⟩
theorem test_earlier_outcome : ({ hostBox with history := [(8, true)] } : Box).history.find? (fun q => q.1 == 8) = some (8, true) ∧
    (true : Bool) ≠ decide ((0 : Nat) = 1) ∧ (8 : Nat) ≠ hostBox.openE := by decide
theorem test_resolved_already : ({ hostBox with cst := 2, outcome := some (0, true) } : Box).outcome.isSome = true ∧
    (host { hostBox with cst := 2, outcome := some (0, true) }).Accepts (hdrB 0x403 (f4 1 ++ f1 0)) 0x403 (f4 1 ++ f1 0) fromB :=
  ⟨rfl, accepts_box _ _ _ (by decide +kernel) (by decide +kernel)⟩
theorem takes_box (s : State) (op : Nat) (p : List Byte)
    (h : ((s.nvs 0).toNat == 0x125C && s.answers && (s.eth 0).secured && !s.keyless && (s.box 2).st == 3 && s.boxKey 2 == some 7) = true)
    (hc : ((partTiles (s.cmdReads 2 op p)).all (wellB s 2) && (s.box 2).reserved.isEmpty && (s.session 2).seqOf 1 op == .take
      && (match opRow op with | some r => (s.gate fromB r).isNone && (s.route fromB r p (targetOf op).toNat == .here) | none => false)) = true) :
    s.Takes (hdrB op p) op p fromB := by
  simp only [Bool.and_eq_true, Bool.not_eq_true', beq_iff_eq] at h
  simp only [Bool.and_eq_true] at hc
  obtain ⟨⟨⟨h7, h8⟩, h3⟩, h5⟩ := hc
  refine ⟨admit_box s op p h.1.1.1.1.1 h.1.1.1.1.2 h.1.1.1.2 h.1.1.2 h.1.2 h.2, rfl, rfl, fun _ => eq_of_beq h3, ?_, rfl,
    fun t ht => wellB_reads s 2 t (List.all_eq_true.1 h7 t ht), List.isEmpty_iff.1 h8⟩
  cases hr : opRow op with
  | none => simp [hr] at h5
  | some r => simp only [hr, Bool.and_eq_true] at h5; exact ⟨r, rfl, by simpa using h5.1, eq_of_beq h5.2⟩
theorem takes_management (s : State) (op : Nat) (p : List Byte)
    (h : ((s.nvs 0).toNat == 0x125C && s.answers && (s.eth 2).secured && !s.keyless && s.dev.mgtKey == some 9 && !s.publicOk (hdrM op p) op p) = true)
    (hc : ((partTiles (s.cmdReads mgmt op p)).all (wellB s mgmt) && (s.box mgmt).reserved.isEmpty && (s.session mgmt).seqOf 1 op == .take
      && (match opRow op with | some r => (s.gate fromM r).isNone && (s.route fromM r p (targetOf op).toNat == .here) | none => false)) = true) :
    s.Takes (hdrM op p) op p fromM := by
  simp only [Bool.and_eq_true, Bool.not_eq_true', beq_iff_eq] at h
  simp only [Bool.and_eq_true] at hc
  obtain ⟨⟨⟨h7, h8⟩, h3⟩, h5⟩ := hc
  refine ⟨admit_management s op p h.1.1.1.1.1 h.1.1.1.1.2 h.1.1.1.2 h.1.1.2 h.1.2 h.2, rfl, rfl, fun _ => eq_of_beq h3, ?_, rfl,
    fun t ht => wellB_reads s mgmt t (List.all_eq_true.1 h7 t ht), List.isEmpty_iff.1 h8⟩
  cases hr : opRow op with
  | none => simp [hr] at h5
  | some r => simp only [hr, Bool.and_eq_true] at h5; exact ⟨r, rfl, by simpa using h5.1, eq_of_beq h5.2⟩
/-- What an answer of a register is, without its value. -/
def ansKind : RegAns → Nat
  | .val _ _ => 0
  | .unmapped => 1
  | .denied => 2
  | .refused _ _ => 3
def wordP (addr v : Nat) : List Byte := f4 addr ++ f4 v
theorem test_writes_refused : hostS.Takes (hdrM 0x701 (wordP 0x200004 1)) 0x701 (wordP 0x200004 1) fromM ∧
    hostS.Takes (hdrM 0x701 (wordP 0x200000 (2 ^ 16))) 0x701 (wordP 0x200000 (2 ^ 16)) fromM ∧
    hostS.Takes (hdrB 0x701 (wordP (coreReg 3 8) 1)) 0x701 (wordP (coreReg 3 8) 1) fromB ∧
    ansKind ((hostS.acceptSeq fromB (hdrB 0x701 (wordP (coreReg 3 8) 1))).regAt 2 (coreReg 3 8)) = 0 ∧
    hostS.Takes (hdrB 0x701 (wordP (coreReg 9 8) 1)) 0x701 (wordP (coreReg 9 8) 1) fromB ∧
    ansKind ((hostS.acceptSeq fromB (hdrB 0x701 (wordP (coreReg 9 8) 1))).regAt 2 (coreReg 9 8)) ≠ 0 :=
  ⟨takes_management _ _ _ (by decide +kernel) (by decide +kernel), takes_management _ _ _ (by decide +kernel) (by decide +kernel),
    takes_box _ _ _ (by decide +kernel) (by decide +kernel), by decide +kernel, takes_box _ _ _ (by decide +kernel) (by decide +kernel), by decide +kernel⟩
theorem test_reads_refused : hostS.Takes (hdrM 0x700 (readOf 0x50000 1)) 0x700 (readOf 0x50000 1) fromM ∧ (readOf 0x50000 1).length = 5 ∧
    ansKind (hostS.regAt mgmt 0x50000) = 1 ∧ hostS.Takes (hdrB 0x700 (readOf (coreReg 9 8) 1)) 0x700 (readOf (coreReg 9 8) 1) fromB ∧
    ansKind (hostS.regAt 2 (coreReg 9 8)) ≠ 0 :=
  ⟨takes_management _ _ _ (by decide +kernel) (by decide +kernel), by decide +kernel, by decide +kernel,
    takes_box _ _ _ (by decide +kernel) (by decide +kernel), by decide +kernel⟩
/-- A stream context of a core that runs a launch. -/
theorem test_context_refused : ansKind ((mem (streamCore ctx0) memBox).regAt 2 (coreReg 3 (0x1000 + 9 * 0x40))) = 3 := by decide +kernel
theorem test_hidden_registers : ansKind (hostS.regAt 2 0x030000) ≠ 0 ∧ ansKind (hostS.regAt 2 0x220000) ≠ 0 ∧ ansKind (hostS.regAt 2 (0x110000 + 3 * 0x20)) ≠ 0 ∧
    (0x110000 + 0x10 ∉ ([] : List Nat)) ∧ hostS.boxOfCore 9 ≠ some 2 := by decide +kernel
/-- A command that reads the target of an open tag, and an operation that finds no slot. -/
def heldTagS : State := host { hostBox with tags := [(7, { sumTag with entry := some { planE with first := 0, count := 1 } })] }
theorem test_command_held : heldTagS.cmdHeld fromB 0x222 sceneP = true ∧ heldTagS.cmdHeld fromB 0x10 (f4 9) = false ∧
    ({ hostDev with dstate := dsFault } : Dev).dstate = dsFault ∧ faultServes 0x0600 = true ∧ fromM.port = 2 ∧ fromB.port ≠ 2 := by decide +kernel
def fullOps : State := { hostS with sess := [(2, { ops := List.replicate 128 hostOp })] }
theorem test_busy : (fullOps.acceptSeq fromB (hdrB 0x202 (f8 0 ++ f8 1))).startOp 2 0x202 = none ∧
    (match command 0x202 fromB (f8 0 ++ f8 1) (fullOps.acceptSeq fromB (hdrB 0x202 (f8 0 ++ f8 1))) with | .go _ => true | _ => false) = true := by
  decide +kernel
theorem test_seated_packet : (plainHdr 0 2 0x500).tag = 0 ∧ (plainHdr 0 2 0x500).dst.toNat = (seatedS.nvs 0).toNat := by decide +kernel
/-- Seats and bits that agree, and a box whose key slots are its own. -/
theorem test_seats_agree : (∀ k < 16, ∀ b < 16, (hostS.seat k).owner = some b ↔ (hostS.box b).seats.getLsbD k = true) ∧
    (∀ b < 16, (hostS.box b).seats &&& ~~~(hostS.box b).keySeats = 0) := by decide +kernel
theorem test_own_slots : hostBox.keySeats ≠ 0 ∧ hostBox.hasSlot 6 = true ∧ hostBox.hasSlot 64 = false ∧ (∀ i < 4, ∀ q, xferBox.xfer i = some q → xferBox.hasSlot q.slot = true) ∧
    hostBox.curtain = none ∧ hostBox.rekey.jobs = [] ∧ (0x202, Instr.tileUnd) ∈ hostRows := by
  refine ⟨by decide, by decide, by decide, ?_, rfl, rfl, by simp [hostRows]⟩
  intro i hi
  match i, hi with
  | 0, _ => intro q h; cases h
  | 1, _ => intro q h; cases h; decide
  | 2, _ => intro q h; cases h; decide
  | 3, _ => intro q h; cases h
end Sys2Proof.Tests
end

/-! How a host command that is taken from its packet is executed (13:R325 to R331): from `State.Takes` to the effect of the
command's own rules. -/
namespace Sys2Proof.Machine

section
variable (s : State) (w : Sender) (h : Hdr)

/-! Accepting a SEQ changes the session's window alone (13:R326). -/
@[simp] theorem State.acceptSeq_box (b : Nat) : (s.acceptSeq w h).box b = s.box b := by unfold State.acceptSeq; split <;> rfl
@[simp] theorem State.acceptSeq_seat (k : Nat) : (s.acceptSeq w h).seat k = s.seat k := by unfold State.acceptSeq; split <;> rfl
@[simp] theorem State.acceptSeq_core (k : Nat) : (s.acceptSeq w h).core k = s.core k := by unfold State.acceptSeq; split <;> rfl
@[simp] theorem State.acceptSeq_dev : (s.acceptSeq w h).dev = s.dev := by unfold State.acceptSeq; split <;> rfl
@[simp] theorem State.acceptSeq_frame (k : Nat) : (s.acceptSeq w h).frame k = s.frame k := by unfold State.acceptSeq; split <;> rfl
@[simp] theorem State.acceptSeq_devIndex (k : Nat) : (s.acceptSeq w h).devIndex k = s.devIndex k := by
  unfold State.acceptSeq; split <;> rfl
@[simp] theorem State.acceptSeq_gate (r : OpRow) : (s.acceptSeq w h).gate w r = s.gate w r := by
  unfold State.acceptSeq; split <;> rfl
@[simp] theorem State.acceptSeq_route (r : OpRow) (p : List Byte) (t : Nat) : (s.acceptSeq w h).route w r p t = s.route w r p t := by
  unfold State.acceptSeq; split <;> rfl
@[simp] theorem State.acceptSeq_readPlace (b t : Nat) : (s.acceptSeq w h).readPlace b t = s.readPlace b t := by
  unfold State.acceptSeq; split <;> rfl
@[simp] theorem State.acceptSeq_contents (b t : Nat) (p : Place) : (s.acceptSeq w h).contents b t p = s.contents b t p := by
  unfold State.acceptSeq; split <;> rfl

/-- A session's operations are those it had before the SEQ. -/
theorem State.acceptSeq_ops (k : Nat) : ((s.acceptSeq w h).session k).ops = (s.session k).ops := by
  unfold State.acceptSeq
  split
  · rw [State.updSession, State.session, State.setSession, Tab.get_set]
    split
    · next e => rw [e]; rfl
    · rfl
  · rfl

theorem State.acceptSeq_cmdReads (k op : Nat) (p : List Byte) : (s.acceptSeq w h).cmdReads k op p = s.cmdReads k op p := by
  simp only [State.cmdReads, Session.op, State.opLaunch, State.acceptSeq_ops, State.acceptSeq_box]

theorem State.acceptSeq_readsWell {b t : Nat} (hr : s.readsWell b t) : (s.acceptSeq w h).readsWell b t := by
  simpa only [State.readsWell, State.lineWell, State.acceptSeq_box, State.acceptSeq_readPlace, State.acceptSeq_contents,
    State.acceptSeq_frame] using hr

end

section
variable {s : State} {b : Nat}

/-- A read of a tile whose line is well gives data and changes nothing (12:R304). -/
theorem State.checkedRead_of_well {t tier frame cause unit : Nat} (hr : s.lineWell b t) (hp : s.readPlace b t = .at tier frame) :
    ∃ d, s.checkedRead b t (.at tier frame) .good cause unit = (s, some d) := by
  rw [State.lineWell, hp] at hr
  obtain ⟨hu, hc⟩ := hr
  obtain ⟨d, hd⟩ := Option.isSome_iff_exists.1 hc
  exact ⟨d, by simp [State.checkedRead, hd, hu]⟩

/-- Reads of tiles whose lines are well change nothing. -/
theorem State.meetTiles_of_well {ts : List Nat} {cause unit : Nat} (hr : ∀ t ∈ ts, s.lineWell b t) :
    s.meetTiles b ts cause unit = (s, true) := by
  unfold State.meetTiles State.meetPlaces
  rw [List.foldl_map]
  induction ts with
  | nil => rfl
  | cons t ts ih =>
    have ht := hr t (by simp)
    rw [List.foldl_cons]
    refine Eq.trans ?_ (ih fun u hu => hr u (by simp [hu]))
    congr 1
    dsimp only
    rcases hp : s.readPlace b t with _ | ⟨tier, frame⟩ | _
    · rfl
    · obtain ⟨d, hd⟩ := State.checkedRead_of_well (cause := cause) (unit := unit) ht hp
      simp [hd]
    · rfl

theorem State.meetLine_of_well {rs : List (Nat × Nat)} {i : Nat} (hr : ∀ t ∈ partTiles rs, s.lineWell b t) :
    s.meetLine b rs i .good = (s, false) := by
  simp [State.meetLine, State.meetTiles_of_well hr]

variable {w : Sender} {h : Hdr} {op : Nat} {p : List Byte}

/-- A command whose reads give data is executed by its own rules. -/
theorem State.execRead_of_well (hl : h.line = .good) (hr : ∀ t ∈ partTiles (s.cmdReads w.k op p), s.lineWell w.k t) :
    s.execRead w h op p = s.execHere w h op (command op w p s) := by
  have hm : s.meetLine w.k (if op = 0x0212 && h.line = .good then [] else s.cmdReads w.k op p) h.lineTile h.line = (s, false) := by
    rw [hl]
    refine State.meetLine_of_well ?_
    split
    · exact fun t ht => nomatch ht
    · exact hr
  simp only [State.execRead, hm]
  cases command op w p s <;> rfl

namespace State.Takes
variable (ht : s.Takes h op p w)
include ht

/-- The command waits for no tag: no tile that it reads is a target of one (10:R244). -/
theorem notHeld : s.cmdHeld w op p = false := by
  have hr : (partTiles (s.cmdReads w.k op p)).any (s.box w.k).tagTarget = false :=
    List.any_eq_false.2 fun t hm => by simp [(ht.reads t hm).1]
  simp [State.cmdHeld, hr]

/-- A command that is taken is served once its SEQ is accepted. -/
theorem hostCommand_serve : s.hostCommand op h p = (s.acceptSeq w h).serve w h op p := by
  unfold State.hostCommand
  rw [ht.admitted]
  cases hk : w.key with
  | none => simp [ht.flags, ht.frag, hk, State.acceptSeq]
  | some k => simp [ht.flags, ht.frag, hk, ht.fresh (by simp [hk]), ht.notHeld]

/-- A command that is taken is executed by its own rules (13:R331). -/
theorem hostCommand_eq : s.hostCommand op h p = (s.acceptSeq w h).execHere w h op (command op w p (s.acceptSeq w h)) := by
  obtain ⟨r, hr, hg, hrt⟩ := ht.row
  have hres : (s.acceptSeq w h).takesReserved w op p = false := by simp [State.takesReserved, ht.free]
  rw [ht.hostCommand_serve, State.serve, hr]
  simp only [State.acceptSeq_gate, hg, State.acceptSeq_route, hrt, hres, ht.flags]
  refine State.execRead_of_well ht.line fun t hm => ?_
  rw [State.acceptSeq_cmdReads] at hm
  exact (s.acceptSeq_readsWell w h (ht.reads t hm)).2

/-- A command that its own rules refuse is answered, and has no effect but its SEQ and the reply. -/
theorem hostCommand_no {st : Nat} {ps : List Byte} (hc : command op w p (s.acceptSeq w h) = .no st ps) :
    s.hostCommand op h p = (s.acceptSeq w h).answer w h op (s.devIndex w.k) st 0 ps := by
  rw [ht.hostCommand_eq, hc]
  simp [State.execHere]

/-- A synchronous command is answered in the state that it leaves. -/
theorem hostCommand_sync {t : State} {st : Nat} {ps : List Byte} (hc : command op w p (s.acceptSeq w h) = .sync t st ps) :
    s.hostCommand op h p = s.says t w h op st ps := by
  rw [ht.hostCommand_eq, hc]
  simp [State.execHere, State.says]

end State.Takes
end
end Sys2Proof.Machine

/-! A REKEY that reaches beyond its box (12:R298, R307): O59 fails. The device takes a slot for a box's by the slot's OWNER
alone (`State.ownedSlot`), and O59 asks nothing of the OWNER of the slots outside the seats of the box's opening
(`Box.hasSlot`). -/
namespace Sys2Proof.Machine

/-- Box 2 is LIVE on seat 0, with session key 7. Slot 64, which is of seat 1, holds a MEMORY key with OWNER 2. -/
def strayState : State where
  boxes := [(2, { st := 3, seats := 1, keySeats := 1, members := 1 })]
  seats := [(0, { inService := true, owner := some 2 })]
  ring := [(0, { st := 1, kind := 3, owner := 2, key := 7 }), (64, { st := 1, kind := 1, owner := 2, kid := 3 })]
  dev := { on := true, phase := 15, dstate := dsFull, keyReady := true, eth := [(0, { up := true, secured := true })],
           rows := [(4, transWord 0x49 0 1 0)] }

/-- REKEY's parameters, which name slot 64. -/
def strayParams : List Byte := leBytes 2 64

/-- Box 2's session. -/
def straySender : Sender := ⟨2, 2, 0, some 7⟩

/-- The header of box 2's first command, with a tag. -/
def strayHdr (tag : BitVec 128) : Hdr := { port := 0, box := 2, seq := 1, flags := 0, target := 0, frag := 0, tag := tag }

/-- REKEY of slot 64, sealed under box 2's session key. -/
def strayRekey : Hdr := strayHdr (Config.gcmTag 7 (packetNonce 0 2 0 1) (commandBytes (strayHdr 0) 0x0504 strayParams))

/-- The packet is box 2's: its tag is the tag under the session key, and no public command is meant. -/
theorem strayRekey_screened : strayState.screened strayRekey 0x0504 strayParams = .from straySender := by
  have hp : strayState.publicOk strayRekey 0x0504 strayParams = false := by decide +kernel
  have hn : (strayState.nvs 0).toNat = 0x125C := by decide +kernel
  have ha : strayState.answers = true := by decide +kernel
  have he : (strayState.eth 0).secured = true := by decide +kernel
  have hk : strayState.keyless = false := by decide +kernel
  have hb : strayState.boxKey 2 = some 7 := by decide +kernel
  have hs : (strayState.box 2).st = 3 := by decide +kernel
  simp only [State.screened, hp, Bool.and_false]
  simp [strayRekey, strayHdr, hn, ha, he, hk, hb, hs, straySender, commandBytes]

/-- The command is taken: its SEQ is the session's first, and nothing stands in its way. -/
theorem strayRekey_takes : strayState.Takes strayRekey 0x0504 strayParams straySender where
  admitted := strayRekey_screened
  flags := rfl
  frag := rfl
  line := rfl
  fresh _ := by decide +kernel
  row := ⟨_, rfl, by decide +kernel, by decide +kernel⟩
  reads t ht := nomatch (show t ∈ [] from ht)
  free := rfl

/-- It begins the rotation of slot 64. -/
theorem strayRekey_rotates :
    (((strayState.acceptSeq straySender strayRekey).serve straySender strayRekey 0x0504 strayParams).slot 64).st = 2 := by
  decide +kernel

/-- Refutes O59, in its second part: `strayState` meets every premise (box 2 is LIVE, and has no scene, load, run, rotation or
curtain), and REKEY of slot 64 from box 2's session begins the rotation of a slot outside the box's own. The slot's OWNER
is 2, so REKEY takes it for box 2's; the premise that slots with that OWNER lie in the seats of the box's opening is missing.
The first part, that the seats agree across every step, is not what fails here. -/
theorem not_boxesKeepApart : ¬ Obligations.BoxesKeepApart := by
  rintro ⟨-, h⟩
  obtain ⟨t, ht, -, hslots⟩ := h strayState strayRekey strayParams straySender 0x0504 .rekey (by simp [hostRows])
    strayRekey_screened (by decide) (by decide) (fun e => absurd e (by decide)) (fun l hl => nomatch hl)
    (fun i q e => nomatch e) (fun j hj => nomatch hj) (fun d e => nomatch e)
  have hrun : exec (.rekey strayRekey strayParams) strayState = .next (strayState.hostCommand 0x0504 strayRekey strayParams) := rfl
  have hk : t.slot 64 = strayState.slot 64 := hslots 64 (by decide)
  rw [hrun, strayRekey_takes.hostCommand_serve] at ht
  cases ht
  have hst := strayRekey_rotates
  rw [hk] at hst
  exact absurd hst (by decide)
end Sys2Proof.Machine

/-! Registers and their commands (00:R6 to R10; 06:R127; 08:R188; 13:R341): little-endian fields, the register blocks, and what
REG_READ and REG_WRITE answer. -/
namespace Sys2Proof.Machine

/-! Fields of parameters (00:R4). -/
section
variable (l r : List Byte) (n v : Nat)

@[simp] theorem leBytes_length : (leBytes n v).length = n := by
  induction n generalizing v with
  | zero => rfl
  | succ n ih => simp [leBytes, ih]

theorem leNat_leBytes : leNat (leBytes n v) = v % 256 ^ n := by
  induction n generalizing v with
  | zero => simp [leBytes, leNat, Nat.mod_one]
  | succ n ih => rw [leBytes, leNat, ih, pow_succ', Nat.mod_mul, BitVec.toNat_ofNat]

theorem sliceBytes_self : sliceBytes l 0 l.length = l := by
  refine List.ext_getElem (by simp [sliceBytes]) fun i h1 h2 => ?_
  simp [sliceBytes, h2]

theorem sliceBytes_append_left (h : n ≤ l.length) : sliceBytes (l ++ r) 0 n = sliceBytes l 0 n := by
  refine List.map_congr_left fun i hi => ?_
  have hi : i < l.length := by have := List.mem_range.1 hi; omega
  simp [List.getD_eq_getElem?_getD, List.getElem?_append_left hi]

theorem sliceBytes_append_right (off : Nat) : sliceBytes (l ++ r) (l.length + off) n = sliceBytes r off n := by
  refine List.map_congr_left fun i _ => ?_
  have hi : l.length ≤ l.length + (off + i) := by omega
  simp [List.getD_eq_getElem?_getD, List.getElem?_append_right hi, Nat.add_assoc]

/-- A field at the front reads back what was laid there. -/
theorem fieldAt_leBytes : fieldAt (leBytes n v ++ r) 0 n = v % 256 ^ n := by
  have hs := sliceBytes_self (leBytes n v)
  rw [leBytes_length] at hs
  rw [fieldAt, sliceBytes_append_left _ _ _ (by simp), hs, leNat_leBytes]

/-- A field behind others reads back what was laid there. -/
theorem fieldAt_append_leBytes : fieldAt (l ++ leBytes n v) l.length n = v % 256 ^ n := by
  have hs := sliceBytes_self (leBytes n v)
  rw [leBytes_length] at hs
  have ha := sliceBytes_append_right l (leBytes n v) n 0
  rw [Nat.add_zero] at ha
  rw [fieldAt, ha, hs, leNat_leBytes]

end

/-- The address and the count that a REG_READ's parameters name. -/
theorem readOf_fields {addr count : Nat} (ha : addr < 2 ^ 32) (hc : count < 2 ^ 8) :
    (readOf addr count).length = 5 ∧ fieldAt (readOf addr count) 0 4 = addr ∧ fieldAt (readOf addr count) 4 1 = count := by
  refine ⟨by simp [readOf], ?_, ?_⟩
  · rw [readOf, fieldAt_leBytes]; omega
  · have := fieldAt_append_leBytes (leBytes 4 addr) 1 count
    rw [leBytes_length] at this
    rw [readOf, this]; omega

section
variable {s : State} {k addr off : Nat}

/-! Where the blocks lie (00:R6). -/

/-- No register lies at an unaligned address, beyond 32 bits, or outside the blocks. -/
theorem State.regAt_unmapped (h : addr % 4 ≠ 0 ∨ 2 ^ 32 ≤ addr ∨ addr / 0x10000
      ∉ [0, 1, 2, 3, 4, 0x10, 0x11, 0x20, 0x21, 0x22, 0x30, 0x40, 0x41] ++ (List.range 128).map (· + 0x80)) :
    s.regAt k addr = .unmapped := by
  unfold State.regAt
  dsimp only
  split
  · rfl
  · next hn =>
    simp only [Bool.or_eq_true, decide_eq_true_eq, not_or] at hn
    obtain h | h | h := h
    · exact absurd h hn.1
    · exact absurd h hn.2
    · generalize addr / 0x10000 = blk at h
      split
      iterate 13 · exact absurd (by decide) h
      refine if_neg fun hb => h ?_
      simp only [Bool.and_eq_true, decide_eq_true_eq] at hb
      exact List.mem_append_right _ (List.mem_map.2 ⟨blk - 0x80, List.mem_range.2 (by omega), by omega⟩)

theorem State.regAt_nvs (ho : off < 0x10000) (h4 : off % 4 = 0) : s.regAt k (0x030000 + off) = s.regNvs k off := by
  have h1 : (0x030000 + off) % 0x10000 = off := by omega
  have h2 : (0x030000 + off) / 0x10000 = 3 := by omega
  have h3 : ¬((0x030000 + off) % 4 ≠ 0 ∨ 2 ^ 32 ≤ 0x030000 + off) := by omega
  simp only [State.regAt, h1, h2, Bool.or_eq_true, decide_eq_true_eq, h3, if_false]

theorem State.regAt_core {core : Nat} (hc : core < 128) (ho : off < 0x10000) (h4 : off % 4 = 0) :
    s.regAt k (coreReg core off) = s.regCore k core off := by
  have h1 : coreReg core off % 0x10000 = off := by unfold coreReg; omega
  have h2 : coreReg core off / 0x10000 = 128 + core := by unfold coreReg; omega
  have h3 : ¬(coreReg core off % 4 ≠ 0 ∨ 2 ^ 32 ≤ coreReg core off) := by unfold coreReg; omega
  have h5 : 128 + core - 0x80 = core := by omega
  simp only [State.regAt, h1, h2, Bool.or_eq_true, decide_eq_true_eq, h3, if_false]
  split
  any_goals omega
  have h6 : (decide (0x80 ≤ 128 + core) && decide (128 + core < 0x100)) = true := by
    simp only [Bool.and_eq_true, decide_eq_true_eq]; omega
  rw [h6, h5, if_pos rfl]

theorem State.regAt_mgt (ho : off < 0x10000) (h4 : off % 4 = 0) : s.regAt k (0x220000 + off) = s.regMgt k off := by
  have h1 : (0x220000 + off) % 0x10000 = off := by omega
  have h2 : (0x220000 + off) / 0x10000 = 0x22 := by omega
  have h3 : ¬((0x220000 + off) % 4 ≠ 0 ∨ 2 ^ 32 ≤ 0x220000 + off) := by omega
  simp only [State.regAt, h1, h2, Bool.or_eq_true, decide_eq_true_eq, h3, if_false]

theorem State.regAt_box (ho : off < 0x10000) (h4 : off % 4 = 0) : s.regAt k (0x110000 + off) = s.regBox k off := by
  have h1 : (0x110000 + off) % 0x10000 = off := by omega
  have h2 : (0x110000 + off) / 0x10000 = 0x11 := by omega
  have h3 : ¬((0x110000 + off) % 4 ≠ 0 ∨ 2 ^ 32 ≤ 0x110000 + off) := by omega
  simp only [State.regAt, h1, h2, Bool.or_eq_true, decide_eq_true_eq, h3, if_false]

theorem State.regAt_mem (ho : off < 0x10000) (h4 : off % 4 = 0) : s.regAt k (0x300000 + off) = s.regMem k off := by
  have h1 : (0x300000 + off) % 0x10000 = off := by omega
  have h2 : (0x300000 + off) / 0x10000 = 0x30 := by omega
  have h3 : ¬((0x300000 + off) % 4 ≠ 0 ∨ 2 ^ 32 ≤ 0x300000 + off) := by omega
  simp only [State.regAt, h1, h2, Bool.or_eq_true, decide_eq_true_eq, h3, if_false]

end

/-! What a session cannot reach (12:R297). -/

/-- The session finds no value: no register, or one outside its reach. -/
def RegAns.Hidden (a : RegAns) : Prop := a = .unmapped ∨ a = .denied

section
variable {s t : State} {k off : Nat}

theorem regIf_hidden {ok : Bool} {v : Nat} (h : ok = false) : (regIf ok v t).Hidden := by
  subst h; exact .inr rfl

theorem State.regNvs_hidden (hk : k ≠ mgmt) : (s.regNvs k off).Hidden := by
  have hm : (k == mgmt) = false := by simpa using hk
  unfold State.regNvs
  dsimp only
  split
  · exact regIf_hidden hm
  · split
    · exact regIf_hidden hm
    · exact .inl rfl

theorem State.regMgt_hidden (hk : k ≠ mgmt) : (s.regMgt k off).Hidden := by
  unfold State.regMgt
  split
  · exact .inl rfl
  · exact regIf_hidden (by simpa using hk)

/-- The registers of another box. -/
theorem State.regBox_hidden (hk : k ≠ mgmt) (hb : off / 0x20 ≠ k) : (s.regBox k off).Hidden := by
  have hm : (k == mgmt) = false := by simpa using hk
  have hs : (k == off / 0x20) = false := by simpa using Ne.symm hb
  unfold State.regBox
  dsimp only
  split
  · exact .inl rfl
  · split
    any_goals exact regIf_hidden (by simp [hm, hs])
    exact .inl rfl

/-- The registers of a core that the session's box does not hold. -/
theorem State.regCore_hidden {core : Nat} (hk : k ≠ mgmt) (hc : s.boxOfCore core ≠ some k) : (s.regCore k core off).Hidden := by
  have hm : (k == mgmt) = false := by simpa using hk
  have hs : (s.boxOfCore core == some k) = false := by simpa using hc
  simp only [State.regCore, hs, hm]
  split
  · exact .inr rfl
  · split
    any_goals exact .inr rfl
    exact .inl rfl

/-- Whatever a session does not reach at the aligned offsets of a block, it does not reach in the block. -/
theorem State.regAt_hidden {base : Nat} (hb : base % 4 = 0) (h : off % 4 = 0 → (s.regAt k (base + off)).Hidden) :
    (s.regAt k (base + off)).Hidden := by
  by_cases h4 : off % 4 = 0
  · exact h h4
  · exact .inl (State.regAt_unmapped (.inl (by omega)))

end

/-! What a read leaves (00:R10, log 59). -/

/-- The state after a read of a register by session `k`: only the session's latches and the next free value differ. -/
structure State.ReadLeaves (s : State) (k : Nat) (t : State) : Prop where
  rest : t = { s with sess := t.sess, fresh := t.fresh }
  others : ∀ j, j ≠ k → t.session j = s.session j
  latch : t.session k = { s.session k with latch := (t.session k).latch }

/-- A value that is read leaves the state so. -/
def RegAns.Leaves (s : State) (k : Nat) : RegAns → Prop
  | .val _ t => s.ReadLeaves k t
  | _ => True

section
variable {s t : State} {k off : Nat}

@[simp] theorem State.ReadLeaves.refl : s.ReadLeaves k s := ⟨rfl, fun _ _ => rfl, rfl⟩
@[simp] theorem State.ReadLeaves.draw : s.ReadLeaves k s.draw.2 := ⟨rfl, fun _ _ => rfl, rfl⟩

@[simp] theorem State.ReadLeaves.setLatch (f : Session → Tab Nat) : s.ReadLeaves k (s.updSession k fun x => { x with latch := f x }) where
  rest := rfl
  others j hj := Tab.get_set_other _ _ _ _ _ hj
  latch := by rw [State.updSession_session_same]

@[simp] theorem RegAns.leaves_unmapped : RegAns.unmapped.Leaves s k := trivial
@[simp] theorem RegAns.leaves_denied : RegAns.denied.Leaves s k := trivial
@[simp] theorem RegAns.leaves_refused (a c : Nat) : (RegAns.refused a c).Leaves s k := trivial
@[simp] theorem RegAns.leaves_val (v : Nat) : (RegAns.val v t).Leaves s k ↔ s.ReadLeaves k t := .rfl

@[simp] theorem RegAns.leaves_ite {c : Prop} [Decidable c] {a b : RegAns} :
    (if c then a else b).Leaves s k ↔ (c → a.Leaves s k) ∧ (¬c → b.Leaves s k) := by
  by_cases hc : c <;> simp [hc]

@[simp] theorem regIf_leaves (ok : Bool) (v : Nat) : (regIf ok v s).Leaves s k := by simp [regIf]
@[simp] theorem regIf_draw_leaves (ok : Bool) (v : Nat) : (regIf ok v s.draw.2).Leaves s k := by
  simp [regIf]

@[simp] theorem State.latchHi_leaves (key v : Nat) : (s.latchHi k key v).Leaves s k := .setLatch _
@[simp] theorem State.readHi_leaves (key v : Nat) : (s.readHi k key v).Leaves s k := by
  refine RegAns.leaves_ite.2 ⟨fun _ => .refl, fun _ => .setLatch _⟩

theorem State.regId_leaves : (s.regId off).Leaves s k := by simp [State.regId]
theorem State.regLcs_leaves : (s.regLcs off).Leaves s k := by simp [State.regLcs]
theorem State.regBup_leaves : (s.regBup off).Leaves s k := by simp [State.regBup]
theorem State.regNvs_leaves : (s.regNvs k off).Leaves s k := by simp [State.regNvs]
theorem State.regPwr_leaves : (s.regPwr k off).Leaves s k := by simp [State.regPwr]
theorem State.regKw_leaves : (s.regKw k off).Leaves s k := by simp [State.regKw]
theorem State.regEth_leaves : (s.regEth k off).Leaves s k := by simp [State.regEth]
theorem State.regFab_leaves : (s.regFab k off).Leaves s k := by simp [State.regFab]
theorem State.regMgt_leaves : (s.regMgt k off).Leaves s k := by simp [State.regMgt]
theorem State.regRed_leaves : (s.regRed k off).Leaves s k := by simp [State.regRed]

theorem State.regBox_leaves : (s.regBox k off).Leaves s k := by
  simp only [State.regBox, RegAns.leaves_ite, RegAns.leaves_unmapped, implies_true, true_and]
  intro _
  split <;> simp

theorem State.regMem_leaves : (s.regMem k off).Leaves s k := by
  simp only [State.regMem, RegAns.leaves_ite, RegAns.leaves_denied, State.latchHi_leaves, State.readHi_leaves, regIf_leaves,
    RegAns.leaves_unmapped, implies_true, and_true, true_and]
  refine ⟨fun _ => ?_, fun _ _ _ => ?_⟩
  · split <;> simp
  · split <;> simp

theorem State.regCore_leaves (core : Nat) : (s.regCore k core off).Leaves s k := by
  unfold State.regCore
  dsimp only
  split
  · simp
  · split <;> simp

/-- A read changes nothing but the session's own latches and the number of the next free value. -/
theorem State.regAt_leaves (addr : Nat) : (s.regAt k addr).Leaves s k := by
  simp only [State.regAt, RegAns.leaves_ite, RegAns.leaves_unmapped, implies_true, true_and]
  intro _
  split
  · exact State.regId_leaves
  · exact State.regLcs_leaves
  · exact State.regPwr_leaves
  · exact State.regNvs_leaves
  · exact State.regBup_leaves
  · exact State.regKw_leaves
  · exact State.regBox_leaves
  · exact State.regEth_leaves
  · exact State.regFab_leaves
  · exact State.regMgt_leaves
  · exact State.regMem_leaves
  · exact State.regRed_leaves
  · simp only [State.regRed_leaves]
  · split
    · exact State.regCore_leaves _
    · exact RegAns.leaves_unmapped

end
end Sys2Proof.Machine

/-! What REG_READ and REG_WRITE answer (13:R341). -/
namespace Sys2Proof.Machine

section
variable {s t : State} {w : Sender} {h : Hdr} {p : List Byte} {k addr v : Nat}

/-! An accepted command's own rules do not refuse it. -/
theorem State.Accepts.ne_no {op st : Nat} {ps : List Byte} (ha : s.Accepts h op p w) :
    command op w p (s.acceptSeq w h) ≠ .no st ps := fun e => by
  have hp := ha.passes
  rw [e] at hp
  exact hp

theorem State.Accepts.status_ok {op st : Nat} {ps : List Byte} (ha : s.Accepts h op p w)
    (e : command op w p (s.acceptSeq w h) = .sync t st ps) : st = stOk := by
  have hp := ha.passes
  rwa [e] at hp

/-- Its parameters have the length that the command asks for. -/
theorem State.Accepts.length_eq {op n : Nat} {a : Ans} (ha : s.Accepts h op p w)
    (e : command op w p (s.acceptSeq w h) = needLen p n a) : p.length = n := by
  by_contra hn
  rw [needLen, if_pos hn] at e
  exact ha.ne_no e

/-! A REG_READ of one word. -/

/-- What the answer to a REG_READ of one word is, by what the session finds. -/
theorem cmdRegRead_val (hl : p.length = 5) (hc : fieldAt p 4 1 = 1) (hr : s.regAt w.k (fieldAt p 0 4) = .val v t) :
    cmdRegRead w p s = .sync t stOk (leBytes 4 v) := by
  simp [cmdRegRead, needLen, hl, hc, readRegs, hr, okSync]

theorem cmdRegRead_refused {a c : Nat} (hl : p.length = 5) (hc : fieldAt p 4 1 = 1)
    (hr : s.regAt w.k (fieldAt p 0 4) = .refused a c) : cmdRegRead w p s = .no stReject (leBytes 1 a ++ leBytes 1 c) := by
  simp [cmdRegRead, needLen, hl, hc, readRegs, hr, reject]

theorem cmdRegRead_denied (hl : p.length = 5) (hc : fieldAt p 4 1 = 1) (hr : s.regAt w.k (fieldAt p 0 4) = .denied) :
    cmdRegRead w p s = .no stNotAuth [] := by
  simp [cmdRegRead, needLen, hl, hc, readRegs, hr]

theorem cmdRegRead_unmapped (hl : p.length = 5) (hc : fieldAt p 4 1 = 1) (hr : s.regAt w.k (fieldAt p 0 4) = .unmapped) :
    cmdRegRead w p s = if w.k = mgmt then badParam 0 else .no stNotAuth [] := by
  simp [cmdRegRead, needLen, hl, hc, readRegs, hr]

/-- The value that an accepted REG_READ of one word finds is what it answers, in the state that the read leaves. -/
theorem State.Accepts.regRead_eq (ha : s.Accepts h 0x0700 p w) (hc : fieldAt p 4 1 = 1)
    (hr : (s.acceptSeq w h).regAt w.k (fieldAt p 0 4) = .val v t) :
    s.hostCommand 0x0700 h p = s.says t w h 0x0700 stOk (leBytes 4 v) :=
  ha.hostCommand_sync (cmdRegRead_val (ha.length_eq rfl) hc hr)

/-- An accepted REG_READ of one word finds a value. -/
theorem State.Accepts.regRead_finds (ha : s.Accepts h 0x0700 p w) (hc : fieldAt p 4 1 = 1) :
    ∃ v t, (s.acceptSeq w h).regAt w.k (fieldAt p 0 4) = .val v t := by
  have hl : p.length = 5 := ha.length_eq rfl
  cases hr : (s.acceptSeq w h).regAt w.k (fieldAt p 0 4) with
  | val v t => exact ⟨v, t, rfl⟩
  | refused a c => exact absurd (cmdRegRead_refused hl hc hr) ha.ne_no
  | denied => exact absurd (cmdRegRead_denied hl hc hr) ha.ne_no
  | unmapped =>
    have he := cmdRegRead_unmapped hl hc hr
    split at he <;> exact absurd he ha.ne_no

/-- An accepted read of a register answers the one value that the register can have. -/
theorem State.Accepts.readOf_eq (haddr : addr < 2 ^ 32) (ha : s.Accepts h 0x0700 (readOf addr 1) w)
    (hr : ∀ v' t', (s.acceptSeq w h).regAt w.k addr = .val v' t' → v' = v ∧ t' = t) :
    s.hostCommand 0x0700 h (readOf addr 1) = s.says t w h 0x0700 stOk (leBytes 4 v) := by
  obtain ⟨-, hf, hc⟩ := readOf_fields haddr (show 1 < 2 ^ 8 by decide)
  obtain ⟨v', t', hv⟩ := ha.regRead_finds hc
  rw [ha.regRead_eq hc hv]
  obtain ⟨rfl, rfl⟩ := hr v' t' (hf ▸ hv)
  rfl

/-! The latching registers and the stream contexts (06:R127; 07; 08:R188). -/

/-- The session's latch at `key` takes the high half of `v`. -/
def State.latched (s : State) (k key v : Nat) : State :=
  s.updSession k fun x => { x with latch := Tab.set 0 x.latch key (v / 2 ^ 32 + 1) }

/-- A low half that a session may reach tells the low half, and latches the high one. -/
theorem State.latchHi_of_val {own : Bool} {key a : Nat} (hr : (if own then s.latchHi k key v else .denied) = .val a t) :
    a = v % 2 ^ 32 ∧ t = s.latched k key v := by
  cases own
  · cases hr
  · cases hr
    exact ⟨rfl, rfl⟩

theorem State.regCore_scriptLo {core a : Nat} (hr : s.regCore k core 8 = .val a t) :
    a = (s.core core).scyc % 2 ^ 32 ∧ t = s.latched k (2 * core) (s.core core).scyc :=
  State.latchHi_of_val hr

theorem State.regCore_offsetLo {core a : Nat} (hr : s.regCore k core 0x10 = .val a t) :
    a = (s.core core).offset % 2 ^ 32 ∧ t = s.latched k (2 * core + 1) (s.core core).offset :=
  State.latchHi_of_val hr

theorem State.regMem_stepLo {box a : Nat} (hb : box < 16) (hr : s.regMem k (0x2014 + box * 0x20) = .val a t) :
    a = (s.box box).step % 2 ^ 32 ∧ t = s.latched k (512 + box) (s.box box).step := by
  have h1 : ¬(0x2014 + box * 0x20 < 0x1400) := by omega
  have h2 : 0x2000 ≤ 0x2014 + box * 0x20 := by omega
  have h3 : 0x2014 + box * 0x20 < 0x2200 := by omega
  have h4 : (0x2014 + box * 0x20) % 0x20 = 0x14 := by omega
  have h5 : (0x2014 + box * 0x20 - 0x2000) / 0x20 = box := by omega
  refine State.latchHi_of_val (own := k == mgmt || k == box) ?_
  rw [← hr]
  simp only [State.regMem, h1, h2, h3, h4, h5]
  cases k == mgmt || k == box <;> simp

/-- Word `reg` of a stream context, when it can be read at all. -/
theorem State.regCore_context {core ctx reg a : Nat} (hx : ctx < 128) (hg : reg < 16)
    (hr : s.regCore k core (0x1000 + ctx * 0x40 + 4 * reg) = .val a t) :
    a = (((s.core core).ctx ctx).words).getD reg 0 ∧ t = s := by
  have h1 : 0x1000 ≤ 0x1000 + ctx * 0x40 + 4 * reg := by omega
  have h2 : 0x1000 + ctx * 0x40 + 4 * reg < 0x3000 := by omega
  have h3 : (0x1000 + ctx * 0x40 + 4 * reg - 0x1000) / 0x40 = ctx := by omega
  have h4 : (0x1000 + ctx * 0x40 + 4 * reg) % 0x40 / 4 = reg := by omega
  simp only [State.regCore, h1, h2, h3, h4, decide_true, Bool.and_self, if_true] at hr
  split at hr
  · cases hr
  · split at hr
    · cases hr
    · cases hr
      exact ⟨rfl, rfl⟩

/-! A REG_WRITE. -/

/-- From the management session, a write that its own rules take is one to ETH_CMD_PORT, and commits the port. -/
theorem cmdRegWrite_mgmt (hk : w.k = mgmt) (hl : p.length = 8) :
    cmdRegWrite w p s = if fieldAt p 0 4 ≠ 0x200000 then badParam 0
      else if 2 ^ 16 ≤ fieldAt p 4 4 || fieldAt p 4 4 = 0x12B7 then badParam 4
      else commitNvs s [(0, BitVec.ofNat 32 (fieldAt p 4 4))] id := by
  simp [cmdRegWrite, needLen, hl, hk]

/-- There is no other register that it writes (00:R7). -/
theorem cmdRegWrite_elsewhere (hk : w.k = mgmt) (hl : p.length = 8) (ha : fieldAt p 0 4 ≠ 0x200000) :
    cmdRegWrite w p s = badParam 0 := by
  rw [cmdRegWrite_mgmt hk hl, if_pos ha]

/-- The upper half of the port is reserved (00:R8). -/
theorem cmdRegWrite_reserved (hk : w.k = mgmt) (hl : p.length = 8) (ha : fieldAt p 0 4 = 0x200000) (hv : 2 ^ 16 ≤ fieldAt p 4 4) :
    cmdRegWrite w p s = badParam 4 := by
  rw [cmdRegWrite_mgmt hk hl, if_neg (not_not.2 ha), if_pos (by rw [decide_eq_true hv]; rfl)]

/-- A box session writes no register: BAD_PARAM where it reaches one. -/
theorem cmdRegWrite_reached (hk : w.k ≠ mgmt) (hl : p.length = 8) (hr : ¬(s.regAt w.k (fieldAt p 0 4)).Hidden) :
    cmdRegWrite w p s = badParam 0 := by
  simp only [RegAns.Hidden, not_or] at hr
  cases he : s.regAt w.k (fieldAt p 0 4) with
  | unmapped => exact absurd he hr.1
  | denied => exact absurd he hr.2
  | refused a c => simp [cmdRegWrite, needLen, hl, hk, he]
  | val v t => simp [cmdRegWrite, needLen, hl, hk, he]

/-- NOT_AUTHORISED anywhere else. -/
theorem cmdRegWrite_hidden (hk : w.k ≠ mgmt) (hl : p.length = 8) (hr : (s.regAt w.k (fieldAt p 0 4)).Hidden) :
    cmdRegWrite w p s = .no stNotAuth [] := by
  obtain he | he := hr <;> simp [cmdRegWrite, needLen, hl, hk, he]

theorem commitNvs_whole {vs : List (Nat × W32)} {f : State → State} (hg : (s.nvsGroup vs).2 = true) :
    commitNvs s vs f = .sync (f (s.nvsGroup vs).1) stOk [] := by simp [commitNvs, hg, okSync]

theorem commitNvs_stuck {vs : List (Nat × W32)} {f : State → State} (hg : (s.nvsGroup vs).2 = false) :
    commitNvs s vs f = .sync (s.nvsGroup vs).1 stCapacity [] := by simp [commitNvs, hg]

/-- A commit that is accepted has written the whole group (14:R372). -/
theorem State.Accepts.commit_eq {op : Nat} {vs : List (Nat × W32)} (ha : s.Accepts h op p w)
    (e : command op w p (s.acceptSeq w h) = commitNvs (s.acceptSeq w h) vs id) :
    s.hostCommand op h p = s.says ((s.acceptSeq w h).nvsGroup vs).1 w h op stOk [] := by
  cases hg : ((s.acceptSeq w h).nvsGroup vs).2 with
  | true => exact ha.hostCommand_sync (e.trans (commitNvs_whole hg))
  | false => exact absurd (ha.status_ok (e.trans (commitNvs_stuck hg))) (by decide)

/-- An accepted REG_WRITE commits ETH_CMD_PORT. -/
theorem State.Accepts.regWrite_eq (ha : s.Accepts h 0x0701 p w) : s.hostCommand 0x0701 h p
    = s.says ((s.acceptSeq w h).nvsGroup [(0, BitVec.ofNat 32 (fieldAt p 4 4))]).1 w h 0x0701 stOk [] := by
  have hl : p.length = 8 := ha.length_eq rfl
  by_cases hk : w.k = mgmt
  · have he := cmdRegWrite_mgmt (s := s.acceptSeq w h) hk hl
    split at he
    · exact absurd he ha.ne_no
    · split at he
      · exact absurd he ha.ne_no
      · exact ha.commit_eq he
  · by_cases hr : ((s.acceptSeq w h).regAt w.k (fieldAt p 0 4)).Hidden
    · exact absurd (cmdRegWrite_hidden hk hl hr) ha.ne_no
    · exact absurd (cmdRegWrite_reached hk hl hr) ha.ne_no

/-- The port of an ETH_CMD_PORT write is its value. -/
theorem fieldAt_portWrite (v : W32) : BitVec.ofNat 32 (fieldAt (leBytes 4 0x200000 ++ leBytes 4 v.toNat) 4 4) = v := by
  have hf := fieldAt_append_leBytes (leBytes 4 0x200000) 4 v.toNat
  rw [leBytes_length] at hf
  rw [hf, Nat.mod_eq_of_lt (show v.toNat < 256 ^ 4 from v.isLt), BitVec.ofNat_toNat, BitVec.setWidth_eq]

end

/-! The clauses of O57. -/
section
variable {s : State} {w : Sender} {h : Hdr} {p : List Byte}

theorem coreScriptLoRead_eq {core : Fin 128} (ha : s.Accepts h 0x0700 (readOf (coreReg core.val 8) 1) w) :
    exec (.coreScriptLoRead h core) s = .next (s.says ((s.acceptSeq w h).latched w.k (2 * core.val) (s.core core.val).scyc) w h
      0x0700 stOk (leBytes 4 ((s.core core.val).scyc % 2 ^ 32))) := by
  refine congrArg Host.Outcome.next (ha.readOf_eq (by unfold coreReg; omega) fun v t hv => ?_)
  rw [State.regAt_core core.isLt (by decide) (by decide)] at hv
  simpa using State.regCore_scriptLo hv

theorem coreOffsetLoRead_eq {core : Fin 128} (ha : s.Accepts h 0x0700 (readOf (coreReg core.val 0x10) 1) w) :
    exec (.coreOffsetLoRead h core) s = .next (s.says ((s.acceptSeq w h).latched w.k (2 * core.val + 1) (s.core core.val).offset)
      w h 0x0700 stOk (leBytes 4 ((s.core core.val).offset % 2 ^ 32))) := by
  refine congrArg Host.Outcome.next (ha.readOf_eq (by unfold coreReg; omega) fun v t hv => ?_)
  rw [State.regAt_core core.isLt (by decide) (by decide)] at hv
  simpa using State.regCore_offsetLo hv

theorem memBoxStepLoRead_eq {box : Fin 16} (ha : s.Accepts h 0x0700 (readOf (0x302014 + box.val * 0x20) 1) w) :
    exec (.memBoxStepLoRead h box) s = .next (s.says ((s.acceptSeq w h).latched w.k (512 + box.val) (s.box box.val).step) w h
      0x0700 stOk (leBytes 4 ((s.box box.val).step % 2 ^ 32))) := by
  refine congrArg Host.Outcome.next (ha.readOf_eq (by omega) fun v t hv => ?_)
  rw [show 0x302014 + box.val * 0x20 = 0x300000 + (0x2014 + box.val * 0x20) by omega,
    State.regAt_mem (by omega) (by omega)] at hv
  simpa using State.regMem_stepLo box.isLt hv

theorem streamContextRead_eq {x : Ctx} {reg : Fin 16}
    (ha : s.Accepts h 0x0700 (readOf (coreReg x.core.val (0x1000 + x.ctx.val * 0x40 + 4 * reg.val)) 1) w) :
    exec (.streamContextRead h x reg 1) s = .next (s.says (s.acceptSeq w h) w h 0x0700 stOk
      (leBytes 4 ((((s.core x.core.val).ctx x.ctx.val).words).getD reg.val 0))) := by
  refine congrArg Host.Outcome.next (ha.readOf_eq (by unfold coreReg; omega) fun v t hv => ?_)
  rw [State.regAt_core x.core.isLt (by omega) (by omega)] at hv
  simpa using State.regCore_context x.ctx.isLt reg.isLt hv

theorem regRead_eq {v : Nat} {t : State} (hc : fieldAt p 4 1 = 1) (hr : (s.acceptSeq w h).regAt w.k (fieldAt p 0 4) = .val v t)
    (ha : s.Accepts h 0x0700 p w) : exec (.regRead h p) s = .next (s.says t w h 0x0700 stOk (leBytes 4 v)) :=
  congrArg Host.Outcome.next (ha.regRead_eq hc hr)

theorem regWrite_eq (ha : s.Accepts h 0x0701 p w) : exec (.regWrite h p) s
    = .next (s.says ((s.acceptSeq w h).nvsGroup [(0, BitVec.ofNat 32 (fieldAt p 4 4))]).1 w h 0x0701 stOk []) :=
  congrArg Host.Outcome.next ha.regWrite_eq

theorem ethCmdPortWrite_eq {v : W32} (ha : s.Accepts h 0x0701 (leBytes 4 0x200000 ++ leBytes 4 v.toNat) w) :
    exec (.ethCmdPortWrite h v) s = .next (s.says ((s.acceptSeq w h).nvsGroup [(0, v)]).1 w h 0x0701 stOk []) := by
  have he := ha.regWrite_eq
  rw [fieldAt_portWrite] at he
  exact congrArg Host.Outcome.next he

/-- A REG_READ that its own rules refuse. -/
theorem State.Takes.regRead_no {st : Nat} {ps : List Byte} (ht : s.Takes h 0x0700 p w)
    (hc : cmdRegRead w p (s.acceptSeq w h) = .no st ps) :
    exec (.regRead h p) s = .next ((s.acceptSeq w h).answer w h 0x0700 (s.devIndex w.k) st 0 ps) :=
  congrArg Host.Outcome.next (ht.hostCommand_no hc)

/-- A REG_WRITE that its own rules refuse. -/
theorem State.Takes.regWrite_no {st : Nat} {ps : List Byte} (ht : s.Takes h 0x0701 p w)
    (hc : cmdRegWrite w p (s.acceptSeq w h) = .no st ps) :
    exec (.regWrite h p) s = .next ((s.acceptSeq w h).answer w h 0x0701 (s.devIndex w.k) st 0 ps) :=
  congrArg Host.Outcome.next (ht.hostCommand_no hc)

end

/-- A register that gives a value, or refuses its read for now, is reached. -/
theorem RegAns.not_hidden {r : RegAns} (hr : (∃ v t, r = .val v t) ∨ ∃ a c, r = .refused a c) : ¬r.Hidden := by
  obtain ⟨v, t, rfl⟩ | ⟨a, c, rfl⟩ := hr <;> simp [RegAns.Hidden]

/-- What no box reaches: the settings store, the management block, another box's registers, and those of a core it does not hold
(12:R297). -/
theorem State.regAt_hidden_of_box {s : State} {k off : Nat} (hk : k ≠ mgmt) (ho : off < 0x10000) :
    (s.regAt k (0x030000 + off)).Hidden ∧ (s.regAt k (0x220000 + off)).Hidden ∧
    (∀ b < 16, b ≠ k → off < 0x20 → (s.regAt k (0x110000 + b * 0x20 + off)).Hidden) ∧
    ∀ core < 128, s.boxOfCore core ≠ some k → (s.regAt k (0x800000 + core * 0x10000 + off)).Hidden := by
  refine ⟨State.regAt_hidden (by decide) fun h4 => ?_, State.regAt_hidden (by decide) fun h4 => ?_, fun b hb hn h20 => ?_,
    fun core hc hown => State.regAt_hidden (by omega) fun h4 => ?_⟩
  · rw [State.regAt_nvs ho h4]
    exact State.regNvs_hidden hk
  · rw [State.regAt_mgt ho h4]
    exact State.regMgt_hidden hk
  · rw [Nat.add_assoc]
    refine State.regAt_hidden (by decide) fun h4 => ?_
    rw [State.regAt_box (by omega) h4]
    exact State.regBox_hidden hk (by omega)
  · have hr := State.regAt_core (s := s) (k := k) hc ho h4
    rw [coreReg] at hr
    rw [hr]
    exact State.regCore_hidden hk hown

/-- What a read leaves, field by field. -/
theorem State.ReadLeaves.of_val {s t : State} {k a v : Nat} (hv : s.regAt k a = .val v t) :
    t = { s with sess := t.sess, fresh := t.fresh } ∧ (∀ j, j ≠ k → t.session j = s.session j) ∧
    t.session k = { s.session k with latch := (t.session k).latch } := by
  have hleaves := State.regAt_leaves (s := s) (k := k) a
  rw [hv, RegAns.leaves_val] at hleaves
  exact ⟨hleaves.rest, hleaves.others, hleaves.latch⟩

/-- Settles O57: each clause is one of the lemmas above; what a command that its own rules refuse answers comes from
`State.Takes.hostCommand_no`, and what a read leaves from `State.regAt_leaves`. -/
theorem registerCommandResults : Obligations.RegisterCommandResults := by
  unfold Obligations.RegisterCommandResults
  refine ⟨fun s h w => ⟨?_, ?_, ?_, ⟨?_, ?_, ?_⟩, ?_⟩,
    fun s h p w => ⟨fun ht hl => ⟨?_, ?_, ?_, ?_⟩, fun ht hl hc => ⟨?_, ?_, ?_⟩, ?_, ?_, ?_⟩⟩
  · exact fun p v t hc hr ha => regRead_eq hc hr ha
  · exact fun p ha => regWrite_eq ha
  · exact fun v ha => ethCmdPortWrite_eq ha
  · exact fun core ha => coreScriptLoRead_eq ha
  · exact fun core ha => coreOffsetLoRead_eq ha
  · exact fun box ha => memBoxStepLoRead_eq ha
  · exact fun x reg ha => streamContextRead_eq ha
  · exact fun hk hn => ht.regWrite_no (cmdRegWrite_elsewhere hk hl hn)
  · exact fun hk he hv => ht.regWrite_no (cmdRegWrite_reserved hk hl he hv)
  · exact fun hk hr => ht.regWrite_no (cmdRegWrite_reached hk hl (RegAns.not_hidden hr))
  · exact fun hk hr => ht.regWrite_no (cmdRegWrite_hidden hk hl hr)
  · exact fun hr => ⟨fun hk => ht.regRead_no ((cmdRegRead_unmapped hl hc hr).trans (if_pos hk)),
      fun hk => ht.regRead_no ((cmdRegRead_unmapped hl hc hr).trans (if_neg hk))⟩
  · exact fun hr => ht.regRead_no (cmdRegRead_denied hl hc hr)
  · exact fun a c hr => ht.regRead_no (cmdRegRead_refused hl hc hr)
  · exact fun k a ha => State.regAt_unmapped ha
  · exact fun k off hk ho => State.regAt_hidden_of_box hk ho
  · exact fun k a v t hv => State.ReadLeaves.of_val hv
end Sys2Proof.Machine

/-! What an array instruction does on a quiet core (03:R64 to R86; 04:R96; 06:R132, R148): HAMAX and HLOAD leave one
micro-operation in flight that gives a second one; the others put row accesses in flight. -/
namespace Sys2Proof.Machine

/-! A core's clock and what it has in flight, apart from its data. -/
section

/-- The accesses that the interlock knows. -/
def Core.withAccs (c : Core) (as : List ArrAcc) : Core := { c with accs := as }
def Core.withNow (c : Core) (n : Nat) : Core := { c with now := n }
def Core.withFlight (c : Core) (ps : List Pend) : Core := { c with flight := ps }
/-- The data of `x` with the sequencer's own place (what `Core.data` blanks) of `c`. -/
def Core.placeAs (x c : Core) : Core :=
  { x with bptr := c.bptr, loops := c.loops, scyc := c.scyc, now := c.now, seq := c.seq, flight := c.flight, accs := c.accs,
           busy := c.busy }

variable (c : Core) (ps : List Pend) (n ph : Nat)

@[simp] theorem Core.withAccs_data (as : List ArrAcc) : (c.withAccs as).data = c.data := rfl
@[simp] theorem Core.withNow_data : (c.withNow n).data = c.data := rfl
@[simp] theorem Core.withFlight_flight : (c.withFlight ps).flight = ps := rfl
@[simp] theorem Core.withFlight_data : (c.withFlight ps).data = c.data := rfl
@[simp] theorem Core.placeAs_data (x : Core) : (x.placeAs c).data = x.data := rfl

theorem Core.withFlight_self {c : Core} {ps : List Pend} (h : c.flight = ps) : c.withFlight ps = c := by
  rw [← h]
  rfl

theorem Core.st_of_data {c d : Core} (h : c.data = d.data) : c.st = d.st := show c.data.st = d.data.st by rw [h]
theorem Core.msgs_of_data {c d : Core} (h : c.data = d.data) : c.msgs = d.msgs := show c.data.msgs = d.data.msgs by rw [h]
theorem Core.seg_of_data {c d : Core} (h : c.data = d.data) : c.seg = d.seg := show c.data.seg = d.data.seg by rw [h]
theorem Core.bundle_of_data {c d : Core} (h : c.data = d.data) : c.bundle = d.bundle := show c.data.bundle = d.data.bundle by rw [h]
theorem Core.record_of_data {c d : Core} (h : c.data = d.data) (k : Nat) : c.record k = d.record k :=
  show c.data.record k = d.data.record k by rw [h]
theorem Core.mayAccess_of_data {c d : Core} (h : c.data = d.data) (a k : Nat) : c.mayAccess a k = d.mayAccess a k :=
  show c.data.mayAccess a k = d.data.mayAccess a k by rw [h]
theorem Core.hloadMay_of_data {c d : Core} (h : c.data = d.data) (l : HloadD) : c.hloadMay l = d.hloadMay l :=
  show c.data.hloadMay l = d.data.hloadMay l by rw [h]
theorem Core.mulMay_of_data {c d : Core} (h : c.data = d.data) (l : HmulD) (j : Nat) : c.mulMay l j = d.mulMay l j :=
  show c.data.mulMay l j = d.data.mulMay l j by rw [h]
theorem Core.readPlane_of_data {c d : Core} (h : c.data = d.data) (l : HloadD) : c.readPlane l = d.readPlane l :=
  show c.data.readPlane l = d.data.readPlane l by rw [h]

/-- With no access noted before, a bundle of one slot notes those of its slot. -/
theorem Core.noteAccs_one {c : Core} (h : c.accs = []) (i : Instr) :
    c.noteAccs [i] = c.withAccs ((c.accsOf i).map (ArrAcc.at c.now)) := by
  simp [Core.noteAccs, Core.withAccs, h]

theorem Core.placed_data {c : Core} (h : c.bundle = []) (nx : Nat × List LoopEntry) : (c.placed nx).data = c.data := by
  have hb : ∀ is, is = c.bundle → ({ c.data with bundle := is } : Core) = c.data := by
    rintro _ rfl
    rfl
  exact hb [] h.symm

/-- Cycles pass: what falls due before the cycle, the clock, and the cycle's first phases. -/
theorem Core.passTo_eq (e : CEnv) : c.passTo e n ph
    = Core.runTo e (keyAt ((c.runTo e (keyAt (c.now + n) 0)).now + n) ph)
        ((c.runTo e (keyAt (c.now + n) 0)).withNow ((c.runTo e (keyAt (c.now + n) 0)).now + n)) := rfl

end

/-! Effects on a core's data. -/
section

/-- An effect sees and changes a core's data alone, and neither stops the core nor tells the device. -/
structure ActsOnData (f : Core → Core) : Prop where
  eq : ∀ c, f c = (f c.data).placeAs c
  st : ∀ c, (f c).st = c.st
  msgs : ∀ c, (f c).msgs = c.msgs

namespace ActsOnData
variable {f : Core → Core} (hf : ActsOnData f)
include hf

theorem data_congr {c d : Core} (h : c.data = d.data) : (f c).data = (f d).data := by
  rw [hf.eq c, hf.eq d, h, Core.placeAs_data, Core.placeAs_data]

theorem withNow (c : Core) (m : Nat) : f (c.withNow m) = (f c).withNow m := by
  rw [hf.eq (c.withNow m), hf.eq c]
  rfl

theorem flight (c : Core) : (f c).flight = c.flight := by
  rw [hf.eq c]
  rfl

theorem place (c : Core) : (f c).now = c.now ∧ (f c).bptr = c.bptr ∧ (f c).loops = c.loops ∧ (f c).scyc = c.scyc := by
  rw [hf.eq c]
  exact ⟨rfl, rfl, rfl, rfl⟩

end ActsOnData
end

/-! A relay: one micro-operation in flight, which gives a second one, which gives none. -/
section

theorem Pend.two_le_weight (p : Pend) : 2 ≤ p.weight := by
  unfold Pend.weight
  split <;> omega

theorem Core.fuel_one (c : Core) (p : Pend) : ∃ n, (c.withFlight [p]).fuel = n + 2 :=
  ⟨p.weight - 2, by have := p.two_le_weight; simp only [Core.fuel, Core.withFlight_flight, List.map_cons, List.map_nil,
    List.sum_cons, List.sum_nil]; omega⟩

theorem Core.runFuel_none (e : CEnv) (limit fuel : Nat) {c : Core} (hf : c.flight = []) : Core.runFuel e limit fuel c = c := by
  cases fuel with
  | zero => rfl
  | succ fuel => simp only [Core.runFuel, hf]

/-- One micro-operation in flight that has to wait. -/
theorem Core.runFuel_wait (e : CEnv) {limit : Nat} (fuel : Nat) (c : Core) {p : Pend} (h : limit ≤ p.key) :
    Core.runFuel e limit fuel (c.withFlight [p]) = c.withFlight [p] := by
  cases fuel with
  | zero => rfl
  | succ fuel => simp only [Core.runFuel, Core.withFlight_flight, if_neg (Nat.not_lt.2 h)]

/-- One micro-operation in flight that takes effect. -/
theorem Core.runFuel_go (e : CEnv) {limit : Nat} (fuel : Nat) (c : Core) {p : Pend} (h : ¬limit ≤ p.key) (hf : c.flight = []) :
    Core.runFuel e limit (fuel + 1) (c.withFlight [p]) = Core.runFuel e limit fuel (Core.micro e p c) := by
  simp only [Core.runFuel, Core.withFlight_flight, if_pos (Nat.lt_of_not_le h)]
  exact congrArg (fun d => Core.runFuel e limit fuel (Core.micro e p d)) (Core.withFlight_self hf)

/-- On a core with the data of `D`, `p` takes effect by `f₁` and leaves `q` in flight, and then `q` takes effect by `f₂`. -/
structure Core.Relay (D : Core) (p q : Pend) (f₁ f₂ : Core → Core) : Prop where
  data₁ : ActsOnData f₁
  data₂ : ActsOnData f₂
  first : ∀ e x, x.data = D.data → x.flight = [] → Core.micro e p x = (f₁ x).withFlight [q]
  second : ∀ e x, x.data = (f₁ D).data → x.flight = [] → Core.micro e q x = f₂ x

/-- The core of a relay when all has taken effect whose key lies below a limit. -/
def relayAt (p q : Pend) (f₁ f₂ : Core → Core) (limit : Nat) (D : Core) : Core :=
  if limit ≤ p.key then D.withFlight [p] else if limit ≤ q.key then (f₁ D).withFlight [q] else f₂ (f₁ D)

theorem relayAt_data_congr {p q : Pend} {f₁ f₂ : Core → Core} (h₁ : ActsOnData f₁) (h₂ : ActsOnData f₂) (limit : Nat)
    {c d : Core} (h : c.data = d.data) : (relayAt p q f₁ f₂ limit c).data = (relayAt p q f₁ f₂ limit d).data := by
  unfold relayAt
  split
  · exact h
  · split
    · exact h₁.data_congr h
    · exact h₂.data_congr (h₁.data_congr h)

namespace Core.Relay
variable {D : Core} {p q : Pend} {f₁ f₂ : Core → Core} (hr : D.Relay p q f₁ f₂)
include hr

/-- A relay is one of every core with the same data. -/
theorem of_data {E : Core} (h : E.data = D.data) : E.Relay p q f₁ f₂ where
  data₁ := hr.data₁
  data₂ := hr.data₂
  first e x hx := hr.first e x (hx.trans h)
  second e x hx := hr.second e x (hx.trans (hr.data₁.data_congr h))

theorem relayAt_st (limit : Nat) : (relayAt p q f₁ f₂ limit D).st = D.st := by
  unfold relayAt
  split
  · rfl
  · split
    · exact hr.data₁.st D
    · exact (hr.data₂.st _).trans (hr.data₁.st D)

theorem relayAt_msgs (limit : Nat) : (relayAt p q f₁ f₂ limit D).msgs = D.msgs := by
  unfold relayAt
  split
  · rfl
  · split
    · exact hr.data₁.msgs D
    · exact (hr.data₂.msgs _).trans (hr.data₁.msgs D)

theorem relayAt_place (limit : Nat) : (relayAt p q f₁ f₂ limit D).now = D.now ∧ (relayAt p q f₁ f₂ limit D).bptr = D.bptr ∧
    (relayAt p q f₁ f₂ limit D).loops = D.loops ∧ (relayAt p q f₁ f₂ limit D).scyc = D.scyc := by
  obtain ⟨hn, hb, hl, hs⟩ := hr.data₁.place D
  unfold relayAt
  split
  · exact ⟨rfl, rfl, rfl, rfl⟩
  · split
    · exact ⟨hn, hb, hl, hs⟩
    · obtain ⟨hn', hb', hl', hs'⟩ := hr.data₂.place (f₁ D)
      exact ⟨hn'.trans hn, hb'.trans hb, hl'.trans hl, hs'.trans hs⟩

theorem relayAt_withNow (limit m : Nat) : relayAt p q f₁ f₂ limit (D.withNow m) = (relayAt p q f₁ f₂ limit D).withNow m := by
  unfold relayAt
  rw [hr.data₁.withNow, hr.data₂.withNow]
  split
  · rfl
  · split <;> rfl

variable (hf : D.flight = [])
include hf

/-- The second micro-operation takes effect up to a limit. -/
theorem runFuel_second (e : CEnv) (limit fuel : Nat) : Core.runFuel e limit (fuel + 1) ((f₁ D).withFlight [q])
    = if limit ≤ q.key then (f₁ D).withFlight [q] else f₂ (f₁ D) := by
  have hfl : (f₁ D).flight = [] := (hr.data₁.flight D).trans hf
  split
  · next h => exact Core.runFuel_wait e _ _ h
  · next h =>
    rw [Core.runFuel_go e fuel _ h hfl, hr.second e _ rfl hfl]
    exact Core.runFuel_none e _ _ ((hr.data₂.flight _).trans hfl)

/-- What takes effect up to a later limit. -/
theorem runTo_relayAt (e : CEnv) {limit limit' : Nat} (hle : limit ≤ limit') :
    Core.runTo e limit' (relayAt p q f₁ f₂ limit D) = relayAt p q f₁ f₂ limit' D := by
  by_cases hp : limit ≤ p.key
  · obtain ⟨n, hn⟩ := Core.fuel_one D p
    rw [relayAt, if_pos hp, Core.runTo, hn, relayAt]
    split
    · next hp' => exact Core.runFuel_wait e _ _ hp'
    · next hp' => rw [Core.runFuel_go e _ _ hp' hf, hr.first e D rfl hf, hr.runFuel_second hf]
  · rw [relayAt, if_neg hp, relayAt, if_neg (fun h => hp (hle.trans h))]
    by_cases hq : limit ≤ q.key
    · obtain ⟨n, hn⟩ := Core.fuel_one (f₁ D) q
      rw [if_pos hq, Core.runTo, hn, hr.runFuel_second hf]
    · have hfl : (f₂ (f₁ D)).flight = [] := (hr.data₂.flight _).trans ((hr.data₁.flight D).trans hf)
      rw [if_neg hq, if_neg (fun h => hq (hle.trans h)), Core.runTo_empty e _ _ hfl]

/-- A limit that has been reached before gives nothing more. -/
theorem runTo_relayAt_early (e : CEnv) {limit limit' : Nat} (hle : limit' ≤ limit) :
    Core.runTo e limit' (relayAt p q f₁ f₂ limit D) = relayAt p q f₁ f₂ limit D := by
  unfold relayAt
  split
  · next hp => exact Core.runFuel_wait e _ _ (hle.trans hp)
  · split
    · next hq => exact Core.runFuel_wait e _ _ (hle.trans hq)
    · exact Core.runTo_empty e _ _ ((hr.data₂.flight _).trans ((hr.data₁.flight D).trans hf))

/-- Cycles pass on the core of a relay. -/
theorem passTo_relayAt (e : CEnv) {limit : Nat} (n ph : Nat) (hle : limit ≤ keyAt (D.now + n) ph) :
    (relayAt p q f₁ f₂ limit D).passTo e n ph = relayAt p q f₁ f₂ (keyAt (D.now + n) ph) (D.withNow (D.now + n)) := by
  have hlast : keyAt (D.now + n) 0 ≤ keyAt (D.now + n) ph := Nat.le_add_right _ _
  have hrN := hr.of_data (D.withNow_data (D.now + n))
  rw [Core.passTo_eq, (hr.relayAt_place limit).1]
  rcases Nat.le_total limit (keyAt (D.now + n) 0) with h | h
  · rw [hr.runTo_relayAt hf e h, (hr.relayAt_place _).1, ← hr.relayAt_withNow]
    exact hrN.runTo_relayAt hf e hlast
  · rw [hr.runTo_relayAt_early hf e h, (hr.relayAt_place _).1, ← hr.relayAt_withNow]
    exact hrN.runTo_relayAt hf e hle

end Core.Relay

/-- A core whose slot has left `p` in flight, apart from it: the core `D` at its next place. -/
theorem Core.stepped_withFlight {c D : Core} {p : Pend} {i : Instr} (he : (c.noteAccs [i]).slotEffect i = D.withFlight [p])
    (hbundle : D.bundle = []) : ∃ E : Core, c.stepped i = E.withFlight [p] ∧ E.flight = [] ∧ E.data = D.data ∧ E.now = D.now ∧
      E.bptr = (c.nextOf [i]).1 % 2 ^ 14 ∧ E.loops = (c.nextOf [i]).2 ∧ E.scyc = D.scyc + 1 := by
  have hb : (D.withFlight [p]).bundle = [] := hbundle
  refine ⟨((D.withFlight [p]).placed (c.nextOf [i])).withFlight [], ?_, rfl, ?_, rfl, rfl, rfl, rfl⟩
  · rw [Core.stepped, he]
    rfl
  · rw [Core.withFlight_data, Core.placed_data hb, Core.withFlight_data]

/-- A slot that leaves in flight the first micro-operation of a relay: its results (06:R134). `g` is its effect at once, and
`fs` what is seen of the relay in each cycle after. -/
theorem State.does_relay {s : State} {k : Fin 128} {b : Nat} {l : Launch} (hq : s.Quiet k b l) {i : Instr}
    (hx : exec i s = .next (s.submit i (at1 k))) (hp : plainSlot i = true)
    (hnx : (s.core k.val).nextOf [i] = endCount (s.core k.val).bptr (s.core k.val).loops)
    {g : Core → Core} {p q : Pend} {f₁ f₂ : Core → Core} {fs : List (Nat × (Core → Core))} {D : Core}
    (he : ((s.core k.val).noteAccs [i]).slotEffect i = D.withFlight [p])
    (hdata : D.data = (g (s.core k.val)).data) (hnow : D.now = (s.core k.val).now) (hscyc : D.scyc = (s.core k.val).scyc)
    (hst : D.st = .running) (hseg : D.seg = none) (hmsgs : D.msgs = []) (hbundle : D.bundle = []) (hr : D.Relay p q f₁ f₂)
    (hfs : ∀ n c, ((fs.filter (fun f => decide (f.1 ≤ n + 1))).foldl (fun c f => f.2 c) c).data
      = (relayAt p q f₁ f₂ (keyAt ((s.core k.val).now + 1 + n) phRead) c).data) :
    s.Does i k g fs := by
  obtain ⟨E, hstep, hEf, hEd, hEn, hEb, hEl, hEs⟩ := Core.stepped_withFlight he hbundle
  have hrE := hr.of_data hEd
  have hrN := hrE.of_data (E.withNow_data (E.now + 1))
  have hend : ∀ e, ((s.core k.val).stepped i).endCycle e
      = relayAt p q f₁ f₂ (keyAt (E.now + 1) phGen) (E.withNow (E.now + 1)) := fun e => by
    rw [hstep, show E.withFlight [p] = relayAt p q f₁ f₂ 0 E from (if_pos (Nat.zero_le _)).symm, Core.endCycle,
      hrE.passTo_relayAt hEf e 1 phGen (Nat.zero_le _)]
  obtain ⟨-, hbptr, hloops, hcyc⟩ := hrN.relayAt_place (keyAt (E.now + 1) phGen)
  have hsub := State.submit_quiet s k b l hq i hp (by rw [he]; exact hseg) (by rw [he]; exact hst)
    (by rw [hend, hrN.relayAt_st]; exact (Core.st_of_data hEd).trans hst)
    (by rw [hend, hrN.relayAt_msgs]; exact (Core.msgs_of_data hEd).trans hmsgs)
  rw [hend] at hsub
  refine ⟨_, hx.trans (congrArg _ hsub), ⟨by rw [State.setCore_core_same], ?_, ?_⟩, fun e n => ?_⟩
  · rw [State.setCore_core_same, hbptr, hloops, ← hnx]
    exact Prod.ext hEb hEl
  · rw [State.setCore_core_same, hcyc, ← hscyc]
    exact hEs
  · have hkey : keyAt (E.now + 1) phGen ≤ keyAt (E.now + 1 + n) phRead := by simp only [keyAt, phGen, phRead]; omega
    have hadv := hrN.passTo_relayAt hEf e n phRead hkey
    rw [State.setCore_core_same, Core.advance, hadv, hfs n (g (s.core k.val)), ← hnow, ← hEn]
    refine relayAt_data_congr hr.data₁ hr.data₂ _ ?_
    rw [Core.withNow_data, Core.withNow_data, hEd, hdata]

end

/-! HAMAX, HLOAD and HDPARAM (03:R58, R64, R65, R81; 04:R96). -/
section
variable {c : Core} {n sq bd : Nat}

/-- A micro-operation put in flight on a core with nothing in flight. -/
theorem Core.later_quiet (h : c.flight = []) (lat ph : Nat) (op : Micro) :
    c.later lat ph op = c.withFlight [⟨keyAt (c.now + lat) ph, c.seq, c.bptr, op⟩] := Core.push_empty c h ..

theorem Pend.cycle_keyAt {ph : Nat} (h : ph < 8) (op : Micro) : Pend.cycle ⟨keyAt n ph, sq, bd, op⟩ = n := by
  simp only [Pend.cycle, keyAt]
  omega

theorem Core.noteLoads_empty (rs : List (Nat × Nat)) (h : c.flight = []) : c.noteLoads rs = c := by
  simp [Core.noteLoads, h]

theorem stageStore_actsOnData (a : Nat) (bs : List Byte) : ActsOnData (fun c => c.stageStore a bs) := by
  refine ⟨fun c => ?_, fun c => ?_, fun c => ?_⟩ <;> simp only [Core.stageStore] <;> split <;> rfl

/-- A store of one run to bytes that no stream holds, on a core with nothing else in flight. -/
theorem Core.micro_store (e : CEnv) (key : Nat) {a : Nat} {bs : List Byte} (hm : c.mayAccess a bs.length = true) (h : c.flight = []) :
    Core.micro e ⟨key, sq, bd, .store [(a, bs)]⟩ c = c.stageStore (a % stageSize) bs := by
  have hrun : c.storeRun bd (a, bs) = c.stageStore (a % stageSize) bs := if_pos hm
  change (c.storeRun bd (a, bs)).noteLoads _ = _
  rw [hrun]
  exact Core.noteLoads_empty _ (((stageStore_actsOnData _ _).flight c).trans h)

theorem putStage_one (a : Nat) (bs : List Byte) (c : Core) : putStage [(a, bs)] c = c.stageStore (a % stageSize) bs := rfl

theorem putStage_one_actsOnData (a : Nat) (bs : List Byte) : ActsOnData (putStage [(a, bs)]) := by
  have h := stageStore_actsOnData (a % stageSize) bs
  exact ⟨h.eq, h.st, h.msgs⟩

/-- A record cleared, or left as it is. -/
def clearRec (r : Nat) (clr : Bool) (c : Core) : Core := if clr then c.setRecord r Amax.zero else c

theorem clearRec_actsOnData (r : Nat) (clr : Bool) : ActsOnData (clearRec r clr) := by
  cases clr <;> exact ⟨fun _ => rfl, fun _ => rfl, fun _ => rfl⟩

/-- A record's bytes as HAMAX and VAMAX store them (03:R58). -/
def recordBytes (a : Amax) : List Byte := a.bytes ++ leBytes 12 0

theorem recordBytes_length (a : Amax) : (recordBytes a).length = 32 := by
  simp [recordBytes, Amax.bytes]

/-- The read of an amax record gives its store two cycles later. -/
theorem Core.relay_recRead {r dst : Nat} (clr : Bool) (hm : c.mayAccess dst 32 = true) :
    c.Relay ⟨keyAt n phRecRead, sq, bd, .recRead r clr dst⟩
      ⟨keyAt (n + 2) phLand, sq, bd, .store [(dst, recordBytes (c.record r))]⟩
      (clearRec r clr) (putStage [(dst, recordBytes (c.record r))]) where
  data₁ := clearRec_actsOnData r clr
  data₂ := putStage_one_actsOnData _ _
  first e x hx hf := by
    change (clearRec r clr x).push (keyAt (Pend.cycle _ + 2) phLand) sq bd (.store [(dst, recordBytes (x.record r))]) = _
    rw [Core.push_empty _ (((clearRec_actsOnData r clr).flight x).trans hf), Pend.cycle_keyAt (by decide), Core.record_of_data hx]
    rfl
  second e x hx hf := by
    have hclr : (clearRec r clr c).mayAccess dst 32 = c.mayAccess dst 32 := by cases clr <;> rfl
    rw [putStage_one, Core.micro_store e _ ?_ hf]
    rw [recordBytes_length, Core.mayAccess_of_data hx, hclr, hm]

/-- A plane set. -/
def putPlane (k : Nat) (pl : Plane) (c : Core) : Core := { c with planes := Tab.set {} c.planes k pl }
/-- A free value drawn. -/
def freshDrawn (c : Core) : Core := { c with fresh := c.fresh + 1 }

/-- A load whose bytes have not changed gives the plane that they give. -/
theorem mergePlane_same (core fresh : Nat) (p : Plane) : mergePlane core fresh [p, p] = p := by
  simp [mergePlane]

/-- The end of an HLOAD gives its plane one cycle later: nothing else is in flight, so that its bytes stand as at issue (03:R65). -/
theorem Core.relay_loadEnd {d : HloadD} (hm : c.hloadMay d = true) :
    c.Relay ⟨keyAt (n + 63) phRead, sq, bd, .loadEnd d [c.readPlane d]⟩
      ⟨keyAt (n + 64) phLand, sq, bd, .plane (d.arr * 2 + d.plane) (c.readPlane d)⟩
      freshDrawn (putPlane (d.arr * 2 + d.plane) (c.readPlane d)) where
  data₁ := ⟨fun _ => rfl, fun _ => rfl, fun _ => rfl⟩
  data₂ := ⟨fun _ => rfl, fun _ => rfl, fun _ => rfl⟩
  first e x hx hf := by
    have hmay : x.hloadMay d = true := (Core.hloadMay_of_data hx d).trans hm
    simp only [Core.micro, if_pos hmay, Core.readPlane_of_data hx, List.cons_append, List.nil_append, mergePlane_same]
    rw [Core.push_empty _ (by exact hf), Pend.cycle_keyAt (by decide)]
    rfl
  second _ _ _ _ := rfl

variable {s : State} {k : Fin 128} {b : Nat} {l : Launch}

theorem hdparam_does (hq : s.Quiet k b l) (arr : Fin 2) (sc : Fin 32) :
    s.Does (.hdparam (at1 k) arr sc) k id
      [(1, fun c' => { c' with c0 := Tab.set one32 c'.c0 arr.val ((s.core k.val).sget sc.val) })] :=
  State.does_leaves s k b l hq _ rfl rfl rfl rfl 1 phLand (by decide) id
    [(.c0 arr.val ((s.core k.val).sget sc.val), fun c' => { c' with c0 := Tab.set one32 c'.c0 arr.val ((s.core k.val).sget sc.val) })]
    (by
      intro o ho
      rw [List.mem_singleton.1 ho]
      refine ⟨rfl, fun e p c hp => ?_⟩
      simp only [Core.micro, hp])
    ⟨hq.flight, rfl, rfl, rfl, rfl, rfl, rfl⟩ (Core.push_empty _ hq.flight ..)

theorem hamax_does (hq : s.Quiet k b l) (arr : Fin 2) (clr : Bool) {dst : BitVec 23}
    (hm : (s.core k.val).mayAccess dst.toNat 32 = true) :
    s.Does (.hamax (at1 k) arr clr dst) k id
      [(1, clearRec arr.val clr), (2, putStage [(dst.toNat, recordBytes ((s.core k.val).record arr.val))])] := by
  have he : ((s.core k.val).noteAccs [.hamax (at1 k) arr clr dst]).slotEffect (.hamax (at1 k) arr clr dst)
      = ((s.core k.val).withAccs []).withFlight
        [⟨keyAt (s.core k.val).now phRecRead, (s.core k.val).seq, (s.core k.val).bptr, .recRead arr.val clr dst.toNat⟩] := by
    rw [Core.noteAccs_one hq.accs]
    exact Core.later_quiet (c := (s.core k.val).withAccs []) hq.flight ..
  refine State.does_relay hq rfl rfl rfl he rfl rfl rfl hq.st hq.seg hq.msgs hq.bundle
    ((Core.relay_recRead clr hm).of_data rfl) fun n d => ?_
  rw [relayAt, if_neg (by simp only [keyAt, phRead, phRecRead]; omega)]
  cases n with
  | zero =>
    rw [if_pos (by simp only [keyAt, phRead, phLand]; omega)]
    rfl
  | succ m =>
    rw [if_neg (by simp only [keyAt, phRead, phLand]; omega)]
    simp

/-- A plane that an HLOAD of the launch has loaded is noted. -/
def noteLoaded (k : Nat) (c : Core) : Core := { c with loaded := k :: c.loaded }

theorem noteLoaded_hloadMay (j : Nat) (d : HloadD) : (noteLoaded j c).hloadMay d = c.hloadMay d := rfl
theorem noteLoaded_readPlane (j : Nat) (d : HloadD) : (noteLoaded j c).readPlane d = c.readPlane d := rfl

theorem Core.doHload_eq {desc : BitVec 12} {ba : Fin 32} {alt : Bool} {u : Fin 64} {h : HloadD}
    (hop : c.hloadOp (c.loadDesc desc alt u) ba = some h) (hm : c.hloadMay h = true) :
    c.doHload desc ba alt u = (noteLoaded (h.arr * 2 + h.plane) c).later 63 phRead (.loadEnd h [c.readPlane h]) := by
  unfold Core.doHload
  rw [hop]
  exact if_pos hm

theorem hload_does (hq : s.Quiet k b l) {desc : BitVec 12} {ba : Fin 32} {alt : Bool} {u : Fin 64} {h : HloadD}
    (hop : (s.core k.val).hloadOp ((s.core k.val).loadDesc desc alt u) ba = some h) (hm : (s.core k.val).hloadMay h = true) :
    s.Does (.hload (at1 k) desc ba alt u) k (noteLoaded (h.arr * 2 + h.plane))
      [(64, fun c' => putPlane (h.arr * 2 + h.plane) ((s.core k.val).readPlane h) (freshDrawn c'))] := by
  generalize hA : ((s.core k.val).accsOf (.hload (at1 k) desc ba alt u)).map (ArrAcc.at (s.core k.val).now) = A
  have he : ((s.core k.val).noteAccs [.hload (at1 k) desc ba alt u]).slotEffect (.hload (at1 k) desc ba alt u)
      = (noteLoaded (h.arr * 2 + h.plane) ((s.core k.val).withAccs A)).withFlight
        [⟨keyAt ((s.core k.val).now + 63) phRead, (s.core k.val).seq, (s.core k.val).bptr, .loadEnd h [(s.core k.val).readPlane h]⟩] := by
    have hdo := Core.doHload_eq (c := (s.core k.val).withAccs A) hop ((Core.hloadMay_of_data rfl h).trans hm)
    rw [Core.readPlane_of_data (Core.withAccs_data _ A)] at hdo
    rw [Core.noteAccs_one hq.accs, hA]
    exact hdo.trans (Core.later_quiet (c := noteLoaded (h.arr * 2 + h.plane) ((s.core k.val).withAccs A)) hq.flight ..)
  have hmay : (noteLoaded (h.arr * 2 + h.plane) ((s.core k.val).withAccs A)).hloadMay h = true := by
    rw [noteLoaded_hloadMay, Core.hloadMay_of_data (Core.withAccs_data _ A), hm]
  have hr := Core.relay_loadEnd (n := (s.core k.val).now) (sq := (s.core k.val).seq) (bd := (s.core k.val).bptr) hmay
  rw [noteLoaded_readPlane, Core.readPlane_of_data (Core.withAccs_data _ A)] at hr
  refine State.does_relay hq rfl rfl rfl he rfl rfl rfl hq.st hq.seg hq.msgs hq.bundle hr fun n d => ?_
  by_cases hn : 64 ≤ n + 1
  · rw [relayAt, if_neg (by simp only [keyAt, phRead]; omega), if_neg (by simp only [keyAt, phRead, phLand]; omega)]
    simp only [List.filter_cons, hn, decide_true, if_true, List.filter_nil]
    rfl
  · rw [relayAt, if_pos (by simp only [keyAt, phRead]; omega)]
    simp only [List.filter_cons, hn, decide_false, Bool.false_eq_true, if_false, List.filter_nil]
    rfl
end

/-! Row accesses put in flight (03:R73, R75, R78, R85; 06:R132). -/
section

/-- `d` is `c` with more in flight, of which each meets `P`. -/
structure Core.Adds (P : Pend → Prop) (c d : Core) : Prop where
  eq : d = c.withFlight d.flight
  mem : ∀ q ∈ d.flight, q ∈ c.flight ∨ P q

namespace Core.Adds
variable {P : Pend → Prop} {c d x : Core}

theorem refl (c : Core) : c.Adds P c := ⟨rfl, fun _ h => .inl h⟩

theorem trans (h₁ : c.Adds P d) (h₂ : d.Adds P x) : c.Adds P x where
  eq := by
    have h := h₂.eq
    rw [h₁.eq] at h
    exact h
  mem q hq := (h₂.mem q hq).elim (h₁.mem q) .inr

/-- The core keeps its data and its place. -/
theorem data (h : c.Adds P d) : d.data = c.data := by
  rw [h.eq]
  rfl

theorem now (h : c.Adds P d) : d.now = c.now := by
  rw [h.eq]
  rfl

theorem foldl {α : Type} (f : Core → α → Core) (as : List α) (hf : ∀ x : Core, ∀ a ∈ as, x.Adds P (f x a)) :
    ∀ c : Core, c.Adds P (as.foldl f c) := by
  induction as with
  | nil => exact refl
  | cons a as ih => exact fun c => (hf c a (by simp)).trans (ih (fun x b hb => hf x b (by simp [hb])) (f c a))

end Core.Adds

theorem mem_pendInsert {p q : Pend} {ps : List Pend} (h : q ∈ pendInsert p ps) : q = p ∨ q ∈ ps := by
  induction ps with
  | nil => exact .inl (List.mem_singleton.1 h)
  | cons y ys ih =>
    unfold pendInsert at h
    split at h
    · exact List.mem_cons.1 h
    · rcases List.mem_cons.1 h with rfl | h
      · exact .inr (by simp)
      · exact (ih h).imp_right (List.mem_cons_of_mem _)

theorem Core.adds_push {P : Pend → Prop} (c : Core) {key sq bd : Nat} {op : Micro} (h : P ⟨key, sq, bd, op⟩) :
    c.Adds P (c.push key sq bd op) :=
  ⟨rfl, fun _ hq => (mem_pendInsert hq).elim (fun e => .inr (e ▸ h)) .inl⟩

/-- The row accesses of `ps`, put in flight from the present cycle on. -/
def Core.laters (c : Core) (ps : List (Nat × Micro)) : Core := ps.foldl (fun d p => d.later p.1 phRead p.2) c

theorem Core.adds_laters (ps : List (Nat × Micro)) : ∀ c : Core,
    c.Adds (fun q => ∃ p ∈ ps, q = ⟨keyAt (c.now + p.1) phRead, c.seq, c.bptr, p.2⟩) (c.laters ps) := by
  induction ps with
  | nil => exact fun c => Core.Adds.refl c
  | cons p ps ih =>
    intro c
    refine (c.adds_push ⟨p, by simp, rfl⟩).trans ?_
    have hrest := ih (c.later p.1 phRead p.2)
    exact ⟨hrest.eq, fun q hq => (hrest.mem q hq).imp_right fun ⟨r, hr, e⟩ => ⟨r, by simp [hr], e⟩⟩

/-- What falls due before the first landings of the next cycle. -/
def endKey (n : Nat) : Nat := keyAt (n + 1) phGen

/-- A micro-operation that, on a core with the data of `c`, only puts others in flight, due after the cycle `n`. -/
def Pend.Opens (c : Core) (n : Nat) (p : Pend) : Prop :=
  ∀ (e : CEnv) (x : Core), x.data = c.data → x.Adds (fun q => endKey n ≤ q.key) (Core.micro e p x)

/-- The micro-operations in flight fall due, and those of this cycle only put others in flight. -/
theorem Core.adds_runFuel (e : CEnv) {limit n : Nat} (hle : limit ≤ endKey n) (fuel : Nat) : ∀ c : Core,
    (∀ p ∈ c.flight, p.key < endKey n → p.Opens c n) → c.Adds (fun q => endKey n ≤ q.key) (Core.runFuel e limit fuel c) := by
  induction fuel with
  | zero => exact fun c _ => Core.Adds.refl c
  | succ fuel ih =>
    intro c ho
    unfold Core.runFuel
    split
    · exact Core.Adds.refl c
    · next p t ht =>
      split
      · next hk =>
        have hm := ho p (by simp [ht]) (hk.trans_le hle) e (c.withFlight t) rfl
        have h₁ : c.Adds (fun q => endKey n ≤ q.key) (Core.micro e p (c.withFlight t)) :=
          ⟨hm.eq, fun q hq => (hm.mem q hq).imp_left fun h => by rw [ht]; exact List.mem_cons_of_mem _ h⟩
        refine h₁.trans (ih _ fun q hq hqk => ?_)
        have hqt := (hm.mem q hq).resolve_right (Nat.not_le.2 hqk)
        exact fun e x hx => ho q (by rw [ht]; exact List.mem_cons_of_mem _ hqt) hqk e x (hx.trans h₁.data)
      · exact Core.Adds.refl c

theorem Core.endCycle_data (e : CEnv) {c : Core} (ho : ∀ p ∈ c.flight, p.key < endKey c.now → p.Opens c c.now) :
    (c.endCycle e).data = c.data := by
  have h₁ : c.Adds (fun q => endKey c.now ≤ q.key) (c.runTo e (keyAt (c.now + 1) 0)) :=
    Core.adds_runFuel e (Nat.le_add_right _ _) _ c ho
  rw [Core.endCycle, Core.passTo_eq, h₁.now]
  generalize c.runTo e (keyAt (c.now + 1) 0) = d at h₁
  have hdata : (d.withNow (c.now + 1)).data = c.data := (Core.withNow_data ..).trans h₁.data
  have h₂ : (d.withNow (c.now + 1)).Adds (fun q => endKey c.now ≤ q.key) (Core.runTo e (endKey c.now) (d.withNow (c.now + 1))) :=
    Core.adds_runFuel e le_rfl _ _ fun q hq hqk e x hx =>
      ho q ((h₁.mem q hq).resolve_right (Nat.not_le.2 hqk)) hqk e x (hx.trans hdata)
  exact h₂.data.trans hdata

/-- An array instruction on a quiet core that puts row accesses in flight, of which those of its first row may be made. -/
theorem State.exec_rowsIn {s : State} {k : Fin 128} {b : Nat} {l : Launch} (hq : s.Quiet k b l) {i : Instr}
    (hx : exec i s = .next (s.submit i (at1 k))) (hp : plainSlot i = true)
    (hnx : (s.core k.val).nextOf [i] = endCount (s.core k.val).bptr (s.core k.val).loops) {ps : List (Nat × Micro)}
    (he : ∀ as, ((s.core k.val).withAccs as).slotEffect i = ((s.core k.val).withAccs as).laters ps)
    (ho : ∀ p ∈ ps, p.1 = 0 → ∀ sq bd, Pend.Opens (s.core k.val) (s.core k.val).now ⟨keyAt (s.core k.val).now phRead, sq, bd, p.2⟩) :
    exec i s = .next (s.setCore k.val (((s.core k.val).rowsIn i ps).endCycle ((s.box b).env l k.val))) := by
  have hd := Core.adds_laters ps ((s.core k.val).withAccs (((s.core k.val).accsOf i).map (ArrAcc.at (s.core k.val).now)))
  have hslot := he (((s.core k.val).accsOf i).map (ArrAcc.at (s.core k.val).now))
  rw [← Core.noteAccs_one hq.accs] at hslot hd
  rw [← hslot] at hd
  have hdata : (((s.core k.val).noteAccs [i]).slotEffect i).data = (s.core k.val).data := hd.data
  have hrows : (s.core k.val).stepped i = (s.core k.val).rowsIn i ps := by
    rw [Core.stepped, hslot, hnx, Core.noteAccs_one hq.accs]
    rfl
  have hstep : ((s.core k.val).stepped i).data = (s.core k.val).data :=
    (Core.placed_data ((Core.bundle_of_data hdata).trans hq.bundle) _).trans hdata
  have hnow : ((s.core k.val).stepped i).now = (s.core k.val).now := hd.now
  have hend := Core.endCycle_data ((s.box b).env l k.val) (c := (s.core k.val).stepped i) fun q hqf hqk => by
    obtain ⟨p, hps, rfl⟩ := (hd.mem q hqf).resolve_left fun h => by
      rw [show ((s.core k.val).noteAccs [i]).flight = [] from hq.flight] at h
      exact absurd h (by simp)
    have hk : keyAt ((s.core k.val).now + p.1) phRead < endKey (s.core k.val).now := hnow ▸ hqk
    have h0 : p.1 = 0 := by
      simp only [endKey, keyAt, phRead, phGen] at hk
      omega
    rw [hnow, h0]
    exact fun e x hx => ho p hps h0 _ _ e x (hx.trans hstep)
  have hsub := State.submit_quiet s k b l hq i hp ((Core.seg_of_data hdata).trans hq.seg) ((Core.st_of_data hdata).trans hq.st)
    ((Core.st_of_data (hend.trans hstep)).trans hq.st) ((Core.msgs_of_data (hend.trans hstep)).trans hq.msgs)
  rw [hrows] at hsub
  exact hx.trans (congrArg _ hsub)

/-! The row accesses of each array instruction: those whose bytes may be accessed put in flight what falls due later. -/
variable {c : Core} {n sq bd : Nat}

theorem endKey_le {lat ph : Nat} (h : endKey n ≤ keyAt (n + lat) ph) (op : Micro) :
    endKey n ≤ keyAt (Pend.cycle ⟨keyAt n phRead, sq, bd, op⟩ + lat) ph := by
  rwa [Pend.cycle_keyAt (by decide)]

theorem opens_mulRow {d : HmulD} {j row late : Nat} (hm : c.mulMay d j = true) (hl : 2 ≤ late) :
    Pend.Opens c n ⟨keyAt n phRead, sq, bd, .mulRow d j row late⟩ := by
  intro e x hx
  have hmay : x.mulMay d j = true := (Core.mulMay_of_data hx d j).trans hm
  simp only [Core.micro, if_pos hmay]
  refine Core.Adds.foldl _ _ (fun y a _ => y.adds_push (endKey_le ?_ _)) x
  simp only [endKey, keyAt, phGen, phLand]
  omega

theorem opens_preRow {d : PreloadD} {i row : Nat}
    (hm : c.mayAccess (rowAddr d.src (if d.kind = 1 then d.stride else 0) i) (128 * (fmtOf d.fmt).width / 8) = true) :
    Pend.Opens c n ⟨keyAt n phRead, sq, bd, .preRow d i row⟩ := by
  intro e x hx
  have hmay := (Core.mayAccess_of_data hx (rowAddr d.src (if d.kind = 1 then d.stride else 0) i) (128 * (fmtOf d.fmt).width / 8)).trans hm
  simp only [Core.micro, if_pos hmay]
  refine Core.Adds.foldl _ _ (fun y a _ => y.adds_push (endKey_le ?_ _)) x
  simp only [endKey, keyAt, phGen, phLand]
  omega

theorem opens_saveRow {d : HsaveD} {m a i row : Nat} : Pend.Opens c n ⟨keyAt n phRead, sq, bd, .saveRow d m a i row⟩ := by
  intro e x _
  refine x.adds_push (endKey_le ?_ _)
  simp only [endKey, keyAt, phGen, phLand]
  omega

theorem opens_restWords {d : HsaveD} {m a i row q : Nat} (hq : q < 8)
    (hm : c.mayAccess ((d.addr + m * d.rows * 0x400 + i * 0x400 + q * 128) % stageSize) 128 = true) :
    Pend.Opens c n ⟨keyAt n phRead, sq, bd, .restWords d m a i row q⟩ := by
  intro e x hx
  have hmay := (Core.mayAccess_of_data hx ((d.addr + m * d.rows * 0x400 + i * 0x400 + q * 128) % stageSize) 128).trans hm
  simp only [Core.micro, if_pos hmay]
  refine x.adds_push (endKey_le ?_ _)
  simp only [endKey, keyAt, phGen, phLand]
  omega

theorem opens_drainRead {d : HdrainD} {p q : W32} {grid : Int} {c0 : W32} {g : Fin 16} {i row : Nat} :
    Pend.Opens c n ⟨keyAt n phRead, sq, bd, .drainRead d p q grid c0 g i row⟩ := by
  intro e x _
  refine x.adds_push (endKey_le ?_ _)
  simp only [endKey, keyAt, phGen, phRead]
  omega

end

/-! What each array instruction puts in flight at its issue. -/
section
variable {c : Core} {desc : BitVec 12} {ba bb : Fin 32}

/-- HMUL's rows: input row j at issue + j, or + 2j in double-pass mode (03:R73). -/
def mulRows (d : HmulD) (dbl : Prop) [Decidable dbl] : List (Nat × Micro) :=
  (List.range d.rows).map fun j => (if dbl then 2 * j else j, .mulRow d j ((d.accRow + j) % 512) (if dbl then 15 else 14))

/-- PRELOAD's source rows: row i at issue + i (03:R75). -/
def preRows (d : PreloadD) : List (Nat × Micro) :=
  (List.range (if d.kind = 1 then d.rows else 1)).map fun i => (i, .preRow d i ((d.accRow + i) % 512))

/-- The arrays of an HSAVE or HRESTORE, each with its place in stage memory. -/
def saveArrs (d : HsaveD) : List (Nat × Nat) := (arrsOf d.arrs).zip (List.range (arrsOf d.arrs).length)

/-- HSAVE's rows: row i at issue + 8i (03:R85). -/
def saveRows (d : HsaveD) : List (Nat × Micro) :=
  (List.range d.rows).flatMap fun i => (saveArrs d).map fun am => (8 * i, .saveRow d am.2 am.1 i ((d.firstRow + i) % 512))

/-- HRESTORE's words: the q-th sixteen of row i at issue + 8i + q (03:R85). -/
def restRows (d : HsaveD) : List (Nat × Micro) :=
  (List.range d.rows).flatMap fun i => (saveArrs d).flatMap fun am =>
    (List.range 8).map fun q => (8 * i + q, .restWords d am.2 am.1 i ((d.firstRow + i) % 512) q)

/-- HDRAIN's rows: row i at issue + i, with the parameters of the issue cycle (03:R78, R79). -/
def drainRows (c : Core) (d : HdrainD) : List (Nat × Micro) :=
  (List.range d.rows).map fun i => (i, .drainRead d (c.sget d.sp) (c.sget d.sq) (signedOf 16 (c.sget d.se).toNat) (c.c0Of d.arr)
    (c.bound d.arr) i ((d.accRow + i) % 512))

theorem Core.doHmul_laters {d : HmulD} (hop : c.hmulOp desc.toNat ba bb = some d) (hok : c.mulPlanesOk d = true) :
    c.doHmul desc ba bb = c.laters (mulRows d (c.mulMode d = .double)) := by
  unfold Core.doHmul
  rw [hop]
  simp only [if_pos hok, Core.laters, mulRows, List.foldl_map]

theorem Core.doPreload_laters {d : PreloadD} (hop : c.preloadOp desc.toNat ba bb = some d) :
    c.doPreload desc ba bb = c.laters (preRows d) := by
  unfold Core.doPreload
  rw [hop]
  simp only [Core.laters, preRows, List.foldl_map]

theorem Core.doHsave_laters {d : HsaveD} (hop : c.hsaveOp desc.toNat ba bb = some d) :
    c.doHsave desc ba bb = c.laters (saveRows d) := by
  unfold Core.doHsave
  rw [hop]
  simp only [Core.laters, saveRows, saveArrs, List.foldl_flatMap, List.foldl_map]

theorem Core.doHrestore_laters {d : HsaveD} (hop : c.hsaveOp desc.toNat ba bb = some d) :
    c.doHrestore desc ba bb = c.laters (restRows d) := by
  unfold Core.doHrestore
  rw [hop]
  simp only [Core.laters, restRows, saveArrs, List.foldl_flatMap, List.foldl_map]

theorem Core.doHdrain_laters {d : HdrainD} (hop : c.hdrainOp desc.toNat ba bb = some d) :
    c.doHdrain desc ba bb = c.laters (drainRows c d) := by
  unfold Core.doHdrain
  rw [hop]
  simp only [Core.laters, drainRows, List.foldl_map]

end

section
variable {s : State} {k : Fin 128} {b : Nat} {l : Launch} {desc : BitVec 12} {ba bb : Fin 32}

/-- On a quiet core the instruction issues, and puts in flight the row accesses of `ps`. -/
def State.Rows (s : State) (k : Fin 128) (b : Nat) (l : Launch) (i : Instr) (ps : List (Nat × Micro)) : Prop :=
  exec i s = .next (s.setCore k.val (((s.core k.val).rowsIn i ps).endCycle ((s.box b).env l k.val)))

theorem hmul_rows (hq : s.Quiet k b l) {d : HmulD} (hop : (s.core k.val).hmulOp desc.toNat ba bb = some d)
    (hok : (s.core k.val).mulPlanesOk d = true) (hm : (s.core k.val).mulMay d 0 = true) :
    s.Rows k b l (.hmul (at1 k) desc ba bb) (mulRows d ((s.core k.val).mulMode d = .double)) := by
  refine State.exec_rowsIn hq rfl rfl rfl (fun as => Core.doHmul_laters (c := (s.core k.val).withAccs as) hop hok) fun p hp h0 sq bd => ?_
  obtain ⟨j, -, rfl⟩ := List.mem_map.1 hp
  obtain rfl : j = 0 := by
    simp only at h0
    split at h0 <;> omega
  exact opens_mulRow hm (by split <;> omega)

theorem preload_rows (hq : s.Quiet k b l) {d : PreloadD} (hop : (s.core k.val).preloadOp desc.toNat ba bb = some d)
    (hm : (s.core k.val).mayAccess (rowAddr d.src (if d.kind = 1 then d.stride else 0) 0) (128 * (fmtOf d.fmt).width / 8) = true) :
    s.Rows k b l (.preload (at1 k) desc ba bb) (preRows d) := by
  refine State.exec_rowsIn hq rfl rfl rfl (fun as => Core.doPreload_laters (c := (s.core k.val).withAccs as) hop) fun p hp h0 sq bd => ?_
  obtain ⟨i, -, rfl⟩ := List.mem_map.1 hp
  obtain rfl : i = 0 := h0
  exact opens_preRow hm

theorem hsave_rows (hq : s.Quiet k b l) {d : HsaveD} (hop : (s.core k.val).hsaveOp desc.toNat ba bb = some d) :
    s.Rows k b l (.hsave (at1 k) desc ba bb) (saveRows d) := by
  refine State.exec_rowsIn hq rfl rfl rfl (fun as => Core.doHsave_laters (c := (s.core k.val).withAccs as) hop) fun p hp _ sq bd => ?_
  obtain ⟨i, -, hp⟩ := List.mem_flatMap.1 hp
  obtain ⟨am, -, rfl⟩ := List.mem_map.1 hp
  exact opens_saveRow

theorem hrestore_rows (hq : s.Quiet k b l) {d : HsaveD} (hop : (s.core k.val).hsaveOp desc.toNat ba bb = some d)
    (hm : ∀ m < (arrsOf d.arrs).length, (s.core k.val).mayAccess ((d.addr + m * d.rows * 0x400) % 0x800000) 128 = true) :
    s.Rows k b l (.hrestore (at1 k) desc ba bb) (restRows d) := by
  refine State.exec_rowsIn hq rfl rfl rfl (fun as => Core.doHrestore_laters (c := (s.core k.val).withAccs as) hop) fun p hp h0 sq bd => ?_
  obtain ⟨i, -, hp⟩ := List.mem_flatMap.1 hp
  obtain ⟨am, ham, hp⟩ := List.mem_flatMap.1 hp
  obtain ⟨q, -, rfl⟩ := List.mem_map.1 hp
  obtain ⟨rfl, rfl⟩ : i = 0 ∧ q = 0 := by
    simp only at h0
    omega
  have hlt : am.2 < (arrsOf d.arrs).length := List.mem_range.1 (List.of_mem_zip ham).2
  exact opens_restWords (by decide) (hm am.2 hlt)

theorem hdrain_rows (hq : s.Quiet k b l) {d : HdrainD} (hop : (s.core k.val).hdrainOp desc.toNat ba bb = some d) :
    s.Rows k b l (.hdrain (at1 k) desc ba bb) (drainRows (s.core k.val) d) := by
  refine State.exec_rowsIn hq rfl rfl rfl (fun as => Core.doHdrain_laters (c := (s.core k.val).withAccs as) hop) fun p hp _ sq bd => ?_
  obtain ⟨i, -, rfl⟩ := List.mem_map.1 hp
  exact opens_drainRead

end

/-- Settles O17: HAMAX and HLOAD by their relays (`State.does_relay`), HDPARAM by its one leaf, and the others by the row
accesses that they put in flight, none of which does more in the cycle of issue than put others in flight
(`State.exec_rowsIn`). -/
theorem hingeResults : Obligations.HingeResults := by
  unfold Obligations.HingeResults
  refine ⟨fun s k b l hq arr clr alt dst sc ba desc u => ⟨?_, fun hm => ?_, fun h hop hm => ?_⟩,
    fun s k b l hq desc ba bb => ⟨fun d hop hok hm => ?_, fun d hop hm => ?_, fun d hop => ?_, fun d hop hm => ?_, fun d hop => ?_⟩⟩
  · exact hdparam_does hq arr sc
  · exact hamax_does hq arr clr hm
  · exact hload_does hq hop hm
  · exact hmul_rows hq hop hok hm
  · exact preload_rows hq hop hm
  · exact hsave_rows hq hop
  · exact hrestore_rows hq hop hm
  · exact hdrain_rows hq hop
end Sys2Proof.Machine

/-! The rows of the array instructions (03:R66, R68, R73, R75, R77 to R80, R85; 04:R92, R94): the micro-operations that
one puts in flight, in the order in which they take effect. -/
namespace Sys2Proof.Machine

/-! The order of what is in flight. -/
section

/-- The order of micro-operations in flight: by key, then by issue number. -/
def Pend.le (p q : Pend) : Prop := p.key < q.key ∨ p.key = q.key ∧ p.seq ≤ q.seq

theorem Pend.le_of_key {p q : Pend} (hs : p.seq = q.seq) (hk : p.key ≤ q.key) : p.le q := by
  unfold Pend.le
  omega

theorem Pend.le.key {p q : Pend} (h : p.le q) : p.key ≤ q.key := by
  unfold Pend.le at h
  omega

/-- The micro-operations of a list put in flight one by one. -/
def pendInserts (qs fl : List Pend) : List Pend := qs.foldl (fun fl q => pendInsert q fl) fl

theorem pendInsert_perm (x : Pend) (fl : List Pend) : (pendInsert x fl).Perm (x :: fl) := by
  induction fl with
  | nil => exact .refl _
  | cons y ys ih =>
    unfold pendInsert
    split
    · exact .refl _
    · exact (ih.cons y).trans (.swap x y ys)

theorem pendInserts_perm (qs : List Pend) : ∀ fl, (pendInserts qs fl).Perm (qs ++ fl) := by
  induction qs with
  | nil => exact fun fl => .refl fl
  | cons q qs ih => exact fun fl => (ih _).trans (((pendInsert_perm q fl).append_left qs).trans List.perm_middle)

theorem pendInsert_sorted (x : Pend) {fl : List Pend} (h : fl.Pairwise Pend.le) : (pendInsert x fl).Pairwise Pend.le := by
  induction fl with
  | nil => exact List.pairwise_singleton ..
  | cons y ys ih =>
    obtain ⟨hy, hys⟩ := List.pairwise_cons.1 h
    unfold pendInsert
    split
    · next hxy =>
      have hlt : x.key < y.key ∨ x.key = y.key ∧ x.seq < y.seq := by simpa using hxy
      refine List.pairwise_cons.2 ⟨fun z hz => ?_, h⟩
      have hyz : z = y ∨ y.le z := (List.mem_cons.1 hz).imp_right (hy z)
      rcases hyz with rfl | hyz
      · unfold Pend.le
        omega
      · unfold Pend.le at hyz ⊢
        omega
    · next hxy =>
      have hle : ¬(x.key < y.key ∨ x.key = y.key ∧ x.seq < y.seq) := by simpa using hxy
      refine List.pairwise_cons.2 ⟨fun z hz => ?_, ih hys⟩
      rcases List.mem_cons.1 ((pendInsert_perm x ys).mem_iff.1 hz) with rfl | hz
      · unfold Pend.le
        omega
      · exact hy z hz

theorem pendInserts_sorted (qs : List Pend) : ∀ {fl : List Pend}, fl.Pairwise Pend.le → (pendInserts qs fl).Pairwise Pend.le := by
  induction qs with
  | nil => exact fun h => h
  | cons q qs ih => exact fun h => ih (pendInsert_sorted q h)

/-- A micro-operation goes behind those of its class, where none of them is due after it. -/
theorem pendInsert_filter (C : Pend → Bool) (x : Pend) {fl : List Pend} (hs : fl.Pairwise Pend.le)
    (hx : C x = true → ∀ y ∈ fl, C y = true → y.le x) : (pendInsert x fl).filter C = fl.filter C ++ [x].filter C := by
  induction fl with
  | nil => rfl
  | cons y ys ih =>
    obtain ⟨hy, hys⟩ := List.pairwise_cons.1 hs
    unfold pendInsert
    split
    · next hxy =>
      have hlt : x.key < y.key ∨ x.key = y.key ∧ x.seq < y.seq := by simpa using hxy
      cases hC : C x with
      | false => simp [hC]
      | true =>
        have hnone : (y :: ys).filter C = [] := List.filter_eq_nil_iff.2 fun z hz hCz => by
          have hzx := hx hC z hz hCz
          rcases List.mem_cons.1 hz with rfl | hz'
          · unfold Pend.le at hzx
            omega
          · have hyz := hy z hz'
            unfold Pend.le at hzx hyz
            omega
        rw [List.filter_cons_of_pos hC, hnone, List.filter_cons_of_pos hC, List.filter_nil, List.nil_append]
    · have hrest := ih hys fun hC z hz => hx hC z (List.mem_cons_of_mem _ hz)
      simp only [List.filter_cons, hrest]
      split <;> rfl

theorem pendInserts_filter (C : Pend → Bool) (qs : List Pend) : ∀ {fl : List Pend}, fl.Pairwise Pend.le →
    (fl.filter C ++ qs.filter C).Pairwise Pend.le → (pendInserts qs fl).filter C = fl.filter C ++ qs.filter C := by
  induction qs with
  | nil => exact fun _ _ => (List.append_nil _).symm
  | cons q qs ih =>
    intro fl hs hm
    have hsplit : (q :: qs).filter C = [q].filter C ++ qs.filter C := List.filter_append [q] qs
    rw [hsplit, ← List.append_assoc] at hm ⊢
    have hq := pendInsert_filter C q hs fun hC y hy hCy =>
      (List.pairwise_append.1 (List.pairwise_append.1 hm).1).2.2 y (List.mem_filter.2 ⟨hy, hCy⟩) q (by simp [hC])
    rw [← hq] at hm ⊢
    exact ih (pendInsert_sorted q hs) hm

/-- Of two lists in order of their keys, with the same micro-operations in the same order at each key, neither differs. -/
theorem eq_of_sorted_of_filter_key {l₁ : List Pend} : ∀ {l₂ : List Pend}, l₁.Pairwise (fun p q => p.key ≤ q.key) →
    l₂.Pairwise (fun p q => p.key ≤ q.key) → (∀ K, l₁.filter (fun p => p.key = K) = l₂.filter (fun p => p.key = K)) → l₁ = l₂ := by
  induction l₁ with
  | nil =>
    intro l₂ _ _ h
    cases l₂ with
    | nil => rfl
    | cons q t => simpa using h q.key
  | cons p s ih =>
    intro l₂ h₁ h₂ h
    cases l₂ with
    | nil => simpa using h p.key
    | cons q t =>
      obtain ⟨hp, hs⟩ := List.pairwise_cons.1 h₁
      obtain ⟨hq, ht⟩ := List.pairwise_cons.1 h₂
      have hpq : p.key = q.key := by
        have hmem : p ∈ q :: t := (List.mem_filter.1 (h p.key ▸ List.mem_filter.2 ⟨List.mem_cons_self, by simp⟩)).1
        have hmem' : q ∈ p :: s := (List.mem_filter.1 ((h q.key).symm ▸ List.mem_filter.2 ⟨List.mem_cons_self, by simp⟩)).1
        rcases List.mem_cons.1 hmem with e | hm
        · rw [e]
        · rcases List.mem_cons.1 hmem' with e | hm'
          · rw [e]
          · exact Nat.le_antisymm (hp q hm') (hq p hm)
      have hK := h p.key
      rw [List.filter_cons_of_pos (by simp), List.filter_cons_of_pos (by simp [hpq])] at hK
      obtain ⟨rfl, -⟩ := List.cons.inj hK
      refine congrArg (p :: ·) (ih hs ht fun K => ?_)
      have hall := h K
      simp only [List.filter_cons] at hall
      split at hall
      · exact (List.cons.inj hall).2
      · exact hall

end

/-! What a micro-operation of an array instruction does: what it puts in flight, and what it changes. -/
section

/-- A later one of the same instruction. -/
def Pend.after (p : Pend) (lat ph : Nat) (op : Micro) : Pend := ⟨keyAt (p.cycle + lat) ph, p.seq, p.bundle, op⟩

/-- The values of an accumulator row as a drain reads them (03:R79). -/
def Core.drainVals (c : Core) (d : HdrainD) (row : Nat) : List DVal :=
  (c.rowWords d.arr row).map fun w => ⟨(accSrc w).v, (accSrc w).sticky⟩

/-- The address and length of the operand row of a drain's row, and of its kept data (03:R77; 04:R93). -/
def ewSpan (d : HdrainD) (i : Nat) : Nat × Nat := (rowAddr d.ewSrc d.ewStride i, 128 * (fmtOf d.ewFmt).width / 8)
def derivSpan (d : HdrainD) (i : Nat) : Nat × Nat := (derivAddr d i, (derivRow d.deriv).2)

/-- A drain's row after its element-wise stage, and after its derivative stage. -/
def Core.ewVals (c : Core) (d : HdrainD) (i : Nat) (xs : List DVal) : List DVal :=
  if d.ewOp = 0 then xs
  else List.zipWith (fun x o => Sys2Proof.drainEw d.ewOp x o) xs
    ((unpackBits (fmtOf d.ewFmt).width 128 (c.stageBytes (ewSpan d i).1 (ewSpan d i).2)).map (fmtOf d.ewFmt).decode)
def Core.derivVals (c : Core) (d : HdrainD) (c0 : W32) (i : Nat) (xs : List DVal) : List DVal :=
  if d.deriv = 0 then xs
  else (List.zip (List.range 128) xs).map fun nx =>
    let kept := derivElem d.deriv (c.stageBytes (derivSpan d i).1 (derivSpan d i).2) nx.1
    drainDeriv d.deriv nx.2 kept.1 kept.2.1 kept.2.2 (Fmt.fp32.decode c0.toNat)

/-- The conversion of a drain's row with the random bits of a generator. -/
def drainRow (cv : Conv) (g : Gen) (xs : List DVal) : List Nat × List Nat × Amax :=
  cv.row ((xs.map (fun x => (⟨x.v, x.sticky⟩ : Src))).zip
    ((List.range 128).map (fun n => if cv.rnd = .stoch then g.half n 0 0 else 0))) Amax.zero

/-- A generator after `i` draws. -/
def genAfter (g : Gen) (i : Nat) : Gen := (List.range i).foldl (fun g _ => g.next) g

theorem genAfter_succ (g : Gen) (i : Nat) : genAfter g (i + 1) = (genAfter g i).next := by
  simp [genAfter, List.range_succ]

/-- What a row access puts in flight where it reads what stands in `c`; the conversion of a drain's row `i` draws after
those of the rows before it. -/
def Core.spawn (c : Core) (p : Pend) : List Pend :=
  match p.op with
  | .mulRow d j row late => (arrsOf d.arrs).map fun a => p.after late phLand (.accAdd a row d.accMode (c.rowSums d a (c.mulInput d j)))
  | .preRow d i row => (List.range (if d.kind = 1 then 1 else d.rows)).map fun r =>
      p.after (3 + r) phLand (.accSet d.arr ((row + r) % 512) 0 (c.preRow d i))
  | .saveRow d m a i row => [p.after 10 phLand (.store [((d.addr + m * d.rows * 0x400 + i * 0x400) % stageSize,
      (c.rowWords a row).flatMap (fun w => leBytes 8 w.toNat))])]
  | .restWords d m a i row q => [p.after (10 - q) phLand (.accSet a row (16 * q) ((List.range 16).map (fun k =>
      BitVec.ofNat 64 (fieldAt (c.stageBytes ((d.addr + m * d.rows * 0x400 + i * 0x400 + q * 128) % stageSize) 128) (8 * k) 8))))]
  | .drainRead d sp sq grid c0 g i row => [p.after 1 phRead (.drainEw d sp sq grid c0 g i (c.drainVals d row))]
  | .drainEw d sp sq grid c0 g i xs => [p.after 2 phRead (.drainDer d sp sq grid c0 g i (c.ewVals d i xs))]
  | .drainDer d sp sq grid c0 g i xs => [p.after 2 (phDraw + d.arr) (.drainCvt d sp sq grid g i (c.derivVals d c0 i xs))]
  | .drainCvt d sp sq grid g i xs =>
      let r := drainRow (drainConv d sp sq grid) (genAfter (c.gen g.val) i) xs
      [p.after 1 phRecAdd (.recAdd d.arr r.2.2), p.after 4 phLand (.store (drainRuns d i r.1 r.2.1))]
  | _ => []

/-- How many micro-operations one gives rise to, itself included. -/
def Micro.size : Micro → Nat
  | .mulRow d .. => (arrsOf d.arrs).length + 1
  | .preRow d .. => (if d.kind = 1 then 1 else d.rows) + 1
  | .saveRow .. | .restWords .. => 2
  | .drainRead .. => 6
  | .drainEw .. => 5
  | .drainDer .. => 4
  | .drainCvt .. => 3
  | _ => 1

theorem Core.size_spawn (c : Core) (p : Pend) : ((c.spawn p).map fun q => q.op.size).sum + 1 = p.op.size := by
  unfold Core.spawn
  split <;> simp_all [Pend.after, Micro.size, Function.comp_def]

theorem arrsOf_length_le (a : Nat) : (arrsOf a).length ≤ 2 := by
  unfold arrsOf
  split <;> split <;> decide

theorem Pend.size_le_weight (p : Pend) : p.op.size ≤ p.weight := by
  unfold Pend.weight
  cases hop : p.op with
  | mulRow d _ _ _ =>
    have := arrsOf_length_le d.arrs
    simp only [Micro.size]
    omega
  | preRow d _ _ =>
    simp only [Micro.size]
    split <;> omega
  | _ => simp [Micro.size]

/-- A store of one run, as stage memory shows it. -/
def storeAt (m : Mem) (a : Nat) (bs : List Byte) : Mem :=
  if a + bs.length ≤ stageSize then m.store a bs else (m.store a (bs.take (stageSize - a))).store 0 (bs.drop (stageSize - a))

/-- What a micro-operation changes: the generators, the records, stage memory, the accumulators. -/
def Micro.onGs : Micro → Tab Gen → Tab Gen
  | .drainCvt d sp sq grid g _ _, gs =>
      if (drainConv d sp sq grid).rnd = .stoch then Tab.set {} gs g.val (Tab.get {} gs g.val).next else gs
  | _, gs => gs
def Micro.onRecs : Micro → Tab Amax → Tab Amax
  | .recAdd k a, rs =>
      let r : Amax := Tab.get {} rs k
      Tab.set {} rs k ⟨max r.amax a.amax, satAdd 32 r.nan a.nan, satAdd 32 r.inf a.inf, satAdd 32 r.sat a.sat, satAdd 32 r.sticky a.sticky⟩
  | _, rs => rs
def Micro.onStage : Micro → Mem → Mem
  | .store runs, m => runs.foldl (fun m r => storeAt m (r.1 % stageSize) r.2) m
  | _, m => m
def Micro.onAcc : Micro → Tab W64 → Tab W64
  | .accAdd a row mode sums, t => Tab.setRun 0 t (a * 65536 + row * 128 + 0)
      (List.zipWith (fun w r => accStep w mode r) ((List.range 128).map (fun n => Tab.get 0 t (a * 65536 + row * 128 + n))) sums)
  | .accSet a row first ws, t => Tab.setRun 0 t (a * 65536 + row * 128 + first) ws
  | _, t => t

/-- The effect of a micro-operation on its core. -/
def Micro.effect (op : Micro) (c : Core) : Core :=
  { c with gs := op.onGs c.gs, recs := op.onRecs c.recs, stage := op.onStage c.stage, acc := op.onAcc c.acc }

theorem Core.stageStore_eq (c : Core) (a : Nat) (bs : List Byte) : c.stageStore a bs = { c with stage := storeAt c.stage a bs } := by
  unfold Core.stageStore storeAt
  split <;> rfl

theorem putStage_eq_effect (runs : List (Nat × List Byte)) : putStage runs = (Micro.store runs).effect := by
  funext c
  unfold putStage
  induction runs generalizing c with
  | nil => rfl
  | cons r rs ih =>
    rw [List.foldl_cons, ih, Core.stageStore_eq]
    rfl

theorem enterRec_eq_effect (k : Nat) (a : Amax) : enterRec k a = (Micro.recAdd k a).effect := rfl

theorem drawn_eq_effect (d : HdrainD) (sp sq : W32) (grid : Int) (g : Fin 16) (i : Nat) (xs : List DVal) :
    drawn (drainConv d sp sq grid).rnd g = (Micro.drainCvt d sp sq grid g i xs).effect := by
  funext c
  by_cases h : (drainConv d sp sq grid).rnd = .stoch
  · simp only [drawn, Micro.effect, Micro.onGs, if_pos h]
    rfl
  · simp only [drawn, Micro.effect, Micro.onGs, if_neg h]
    rfl

theorem Micro.effect_actsOnData (op : Micro) : ActsOnData op.effect := ⟨fun _ => rfl, fun _ => rfl, fun _ => rfl⟩

end

/-! The trace of what is in flight. -/
section

/-- `tr` is the order in which all that is in flight, with all that it gives rise to, takes effect, where each row access reads
what stands in `c`. -/
inductive Core.Trace (c : Core) : List Pend → List Pend → Prop where
  | nil : c.Trace [] []
  | cons {p : Pend} {t tr : List Pend} : c.Trace (pendInserts (c.spawn p) t) tr → c.Trace (p :: t) (p :: tr)

/-- The core with the effects of a trace. -/
def Core.played (c : Core) (u : List Pend) : Core := u.foldl (fun d p => p.op.effect d) c

namespace Core.Trace
variable {c : Core} {fl tr : List Pend}

theorem exists_of_sizes (c : Core) (n : Nat) : ∀ fl : List Pend, (fl.map fun q => q.op.size).sum = n → ∃ tr, c.Trace fl tr := by
  induction n with
  | zero =>
    intro fl hn
    cases fl with
    | nil => exact ⟨[], .nil⟩
    | cons p t =>
      have hp := c.size_spawn p
      simp only [List.map_cons, List.sum_cons] at hn
      omega
  | succ n ih =>
    intro fl hn
    cases fl with
    | nil => exact ⟨[], .nil⟩
    | cons p t =>
      have hp := c.size_spawn p
      have hsum := ((pendInserts_perm (c.spawn p) t).map fun q => q.op.size).sum_eq
      simp only [List.map_append, List.sum_append, List.map_cons, List.sum_cons] at hsum hn
      obtain ⟨tr, htr⟩ := ih (pendInserts (c.spawn p) t) (by omega)
      exact ⟨p :: tr, .cons htr⟩

theorem exists_trace (c : Core) (fl : List Pend) : ∃ tr, c.Trace fl tr := exists_of_sizes c _ fl rfl

theorem length_eq (h : c.Trace fl tr) : tr.length = (fl.map fun q => q.op.size).sum := by
  induction h with
  | nil => rfl
  | @cons p t tr _ ih =>
    have hp := c.size_spawn p
    have hsum := ((pendInserts_perm (c.spawn p) t).map fun q => q.op.size).sum_eq
    simp only [List.map_append, List.sum_append, List.length_cons, List.map_cons, List.sum_cons] at hsum ⊢
    omega

theorem mem_of_flight (h : c.Trace fl tr) : ∀ q ∈ fl, q ∈ tr := by
  induction h with
  | nil => exact fun q hq => hq
  | @cons p t tr _ ih =>
    intro q hq
    rcases List.mem_cons.1 hq with rfl | hq
    · exact List.mem_cons_self
    · exact List.mem_cons_of_mem _ (ih q ((pendInserts_perm _ _).mem_iff.2 (List.mem_append_right _ hq)))

/-- What holds of all in flight and of what each puts in flight holds of the trace. -/
theorem forall_mem (h : c.Trace fl tr) {P : Pend → Prop} (hsp : ∀ p, P p → ∀ q ∈ c.spawn p, P q) :
    (∀ p ∈ fl, P p) → ∀ p ∈ tr, P p := by
  induction h with
  | nil => exact fun hP => hP
  | @cons p t tr _ ih =>
    intro hP q hq
    rcases List.mem_cons.1 hq with rfl | hq
    · exact hP q List.mem_cons_self
    · refine ih (fun r hr => ?_) q hq
      rcases List.mem_append.1 ((pendInserts_perm _ _).mem_iff.1 hr) with hr | hr
      · exact hsp p (hP p List.mem_cons_self) r hr
      · exact hP r (List.mem_cons_of_mem _ hr)

theorem le_of_le_flight (h : c.Trace fl tr) : (∀ p ∈ tr, ∀ q ∈ c.spawn p, p.key ≤ q.key) → ∀ K, (∀ q ∈ fl, K ≤ q.key) →
    ∀ q ∈ tr, K ≤ q.key := by
  induction h with
  | nil => exact fun _ K _ q hq => absurd hq List.not_mem_nil
  | @cons p t tr _ ih =>
    intro hsp K hK q hq
    rcases List.mem_cons.1 hq with rfl | hq
    · exact hK q List.mem_cons_self
    · refine ih (fun r hr => hsp r (List.mem_cons_of_mem _ hr)) K (fun r hr => ?_) q hq
      rcases List.mem_append.1 ((pendInserts_perm _ _).mem_iff.1 hr) with hr | hr
      · exact (hK p List.mem_cons_self).trans (hsp p List.mem_cons_self r hr)
      · exact hK r (List.mem_cons_of_mem _ hr)

/-- A trace is in the order of its keys. -/
theorem sorted (h : c.Trace fl tr) : fl.Pairwise Pend.le → (∀ p ∈ tr, ∀ q ∈ c.spawn p, p.key ≤ q.key) →
    tr.Pairwise (fun p q => p.key ≤ q.key) := by
  induction h with
  | nil => exact fun _ _ => .nil
  | @cons p t tr htr ih =>
    intro hs hsp
    obtain ⟨hp, ht⟩ := List.pairwise_cons.1 hs
    have hsp' : ∀ r ∈ tr, ∀ q ∈ c.spawn r, r.key ≤ q.key := fun r hr => hsp r (List.mem_cons_of_mem _ hr)
    refine List.pairwise_cons.2 ⟨htr.le_of_le_flight hsp' p.key fun r hr => ?_, ih (pendInserts_sorted _ ht) hsp'⟩
    rcases List.mem_append.1 ((pendInserts_perm _ _).mem_iff.1 hr) with hr | hr
    · exact hsp p List.mem_cons_self r hr
    · exact (hp r hr).key

/-- A class that is put in flight in the order of its keys takes effect in the order in which it was put in flight. -/
theorem filter_eq (C : Pend → Bool) (h : c.Trace fl tr) : fl.Pairwise Pend.le →
    (fl.filter C ++ (tr.flatMap c.spawn).filter C).Pairwise Pend.le → tr.filter C = fl.filter C ++ (tr.flatMap c.spawn).filter C := by
  induction h with
  | nil => exact fun _ _ => rfl
  | @cons p t tr _ ih =>
    intro hs hm
    obtain ⟨-, ht⟩ := List.pairwise_cons.1 hs
    have hp : (p :: t).filter C = [p].filter C ++ t.filter C := List.filter_append [p] t
    rw [List.flatMap_cons, List.filter_append, hp, List.append_assoc, ← List.append_assoc (t.filter C)] at hm
    have hm' := (List.pairwise_append.1 hm).2.1
    have hins := pendInserts_filter C (c.spawn p) ht (List.pairwise_append.1 hm').1
    rw [← hins] at hm'
    have hrest := ih (pendInserts_sorted _ ht) hm'
    rw [hins] at hrest
    rw [List.flatMap_cons, List.filter_append, hp, List.append_assoc, ← List.append_assoc (t.filter C), ← hrest]
    exact List.filter_append [p] tr

/-- The class `C` of what only the class `B` puts in flight. -/
theorem filter_next (h : c.Trace fl tr) (hs : fl.Pairwise Pend.le) {B C : Pend → Bool} {bs cs : List Pend}
    (hB : tr.filter B = bs) (hfl : fl.filter C = []) (hsp : ∀ p ∈ tr, B p = false → (c.spawn p).filter C = [])
    (hcs : (bs.flatMap c.spawn).filter C = cs) (hm : cs.Pairwise Pend.le) : tr.filter C = cs := by
  have hspawn : ∀ u : List Pend, (∀ p ∈ u, B p = false → (c.spawn p).filter C = []) →
      (u.flatMap c.spawn).filter C = ((u.filter B).flatMap c.spawn).filter C := by
    intro u
    induction u with
    | nil => exact fun _ => rfl
    | cons p u ih =>
      intro hu
      rw [List.flatMap_cons, List.filter_append, ih fun q hq => hu q (List.mem_cons_of_mem _ hq)]
      cases hp : B p with
      | false => rw [hu p List.mem_cons_self hp, List.filter_cons_of_neg (by simp [hp]), List.nil_append]
      | true => rw [List.filter_cons_of_pos hp, List.flatMap_cons, List.filter_append]
  have hall : (tr.flatMap c.spawn).filter C = cs := by rw [hspawn tr hsp, hB, hcs]
  have hC := h.filter_eq C hs (by rwa [hfl, hall])
  rwa [hfl, hall] at hC

end Core.Trace

/-! A core on which a trace takes effect. -/

/-- `y` is `x` at the same place of the same cycle. -/
structure Core.SamePlace (x y : Core) : Prop where
  now : y.now = x.now
  bptr : y.bptr = x.bptr
  loops : y.loops = x.loops
  scyc : y.scyc = x.scyc

theorem Core.SamePlace.trans {x y z : Core} (h₁ : x.SamePlace y) (h₂ : y.SamePlace z) : x.SamePlace z :=
  ⟨h₂.now.trans h₁.now, h₂.bptr.trans h₁.bptr, h₂.loops.trans h₁.loops, h₂.scyc.trans h₁.scyc⟩

/-- The end of an HLOAD, which a store may meet (03:R65). -/
def Micro.isLoad : Micro → Bool
  | .loadEnd .. => true
  | _ => false

/-- On every core with the data of `d` and no HLOAD in flight, `p` takes its effect and puts in flight what it would put in
flight on `c`. -/
def Core.Plays (c : Core) (p : Pend) (d : Core) : Prop :=
  ∀ (e : CEnv) (x : Core), x.data = d.data → (∀ q ∈ x.flight, q.op.isLoad = false) →
    Core.micro e p x = (p.op.effect x).withFlight (pendInserts (c.spawn p) x.flight)

/-- Each micro-operation of a trace reads what it would read on `c`. -/
structure Core.Playable (c : Core) (tr : List Pend) : Prop where
  plays : ∀ u p v, tr = u ++ p :: v → c.Plays p (c.played u)
  noLoad : ∀ p ∈ tr, p.op.isLoad = false

theorem Core.played_append (c : Core) (u v : List Pend) : c.played (u ++ v) = (c.played u).played v := List.foldl_append ..

/-- The effects of a trace, each part of the core by itself. -/
theorem Core.played_eq (u : List Pend) : ∀ c : Core, c.played u = { c with
    gs := u.foldl (fun t p => p.op.onGs t) c.gs, recs := u.foldl (fun t p => p.op.onRecs t) c.recs,
    stage := u.foldl (fun t p => p.op.onStage t) c.stage, acc := u.foldl (fun t p => p.op.onAcc t) c.acc } := by
  induction u with
  | nil => exact fun _ => rfl
  | cons p u ih => exact fun c => ih (p.op.effect c)

/-- The core `x` is `c` with what of the trace lies below a limit, and has the rest in flight. -/
structure Core.Upto (c : Core) (tr : List Pend) (limit : Nat) (x : Core) : Prop where
  data : x.data = (c.played (tr.takeWhile fun p => decide (p.key < limit))).data
  flight : c.Trace x.flight (tr.dropWhile fun p => decide (p.key < limit))

theorem takeWhile_dropWhile_max (a b : Nat) (L : List Pend) :
    L.takeWhile (fun p => decide (p.key < a)) ++ (L.dropWhile fun p => decide (p.key < a)).takeWhile (fun p => decide (p.key < b))
      = L.takeWhile (fun p => decide (p.key < max a b)) ∧
    (L.dropWhile fun p => decide (p.key < a)).dropWhile (fun p => decide (p.key < b))
      = L.dropWhile (fun p => decide (p.key < max a b)) := by
  rcases Nat.le_total a b with h | h
  · rw [Nat.max_eq_right h]
    exact takeWhile_dropWhile_le Pend.key a b h L
  · rw [Nat.max_eq_left h]
    induction L with
    | nil => exact ⟨rfl, rfl⟩
    | cons p t ih =>
      by_cases hp : p.key < a
      · simpa [hp] using ih
      · simp [hp, h.trans (Nat.le_of_not_lt hp)]

section
variable {c : Core} {tr : List Pend}

theorem Core.runFuel_trace (e : CEnv) (limit : Nat) (hpl : c.Playable tr) (fuel : Nat) : ∀ (u v : List Pend) (x : Core),
    tr = u ++ v → x.data = (c.played u).data → c.Trace x.flight v → v.length ≤ fuel →
    (Core.runFuel e limit fuel x).data = (c.played (u ++ v.takeWhile fun p => decide (p.key < limit))).data ∧
    c.Trace (Core.runFuel e limit fuel x).flight (v.dropWhile fun p => decide (p.key < limit)) ∧
    x.SamePlace (Core.runFuel e limit fuel x) := by
  induction fuel with
  | zero =>
    intro u v x _ hx ht hf
    obtain rfl : v = [] := List.length_eq_zero_iff.1 (Nat.le_zero.1 hf)
    rw [List.takeWhile_nil, List.append_nil]
    exact ⟨hx, ht, rfl, rfl, rfl, rfl⟩
  | succ fuel ih =>
    intro u v x htr hx ht hf
    obtain ⟨fl, hfl⟩ : ∃ fl, fl = x.flight := ⟨_, rfl⟩
    rw [← hfl] at ht
    cases ht with
    | nil =>
      rw [Core.runFuel_none e limit _ hfl.symm, ← hfl, List.takeWhile_nil, List.append_nil]
      exact ⟨hx, .nil, rfl, rfl, rfl, rfl⟩
    | @cons p t v ht =>
      unfold Core.runFuel
      rw [← hfl]
      by_cases hk : p.key < limit
      · have hload : ∀ q ∈ t, q.op.isLoad = false := fun q hq => hpl.noLoad q (by
          rw [htr]
          exact List.mem_append_right _ ((Core.Trace.cons ht).mem_of_flight q (List.mem_cons_of_mem _ hq)))
        have hm := hpl.plays u p v htr e (x.withFlight t) hx hload
        have hdata : (Core.micro e p (x.withFlight t)).data = (c.played (u ++ [p])).data := by
          rw [hm, Core.withFlight_data, Core.played_append]
          exact p.op.effect_actsOnData.data_congr hx
        have hflight : c.Trace (Core.micro e p (x.withFlight t)).flight v := by
          rw [hm]
          exact ht
        have hplace : x.SamePlace (Core.micro e p (x.withFlight t)) := by
          rw [hm]
          exact ⟨rfl, rfl, rfl, rfl⟩
        obtain ⟨h₁, h₂, h₃⟩ := ih (u ++ [p]) v (Core.micro e p (x.withFlight t)) (by simpa using htr) hdata hflight
          (Nat.le_of_succ_le_succ hf)
        simp only [List.takeWhile_cons, List.dropWhile_cons, hk, decide_true, if_true]
        rw [List.append_cons]
        exact ⟨h₁, h₂, hplace.trans h₃⟩
      · simp only [List.takeWhile_cons, List.dropWhile_cons, hk, decide_false, Bool.false_eq_true, if_false,
          List.append_nil]
        rw [← hfl]
        exact ⟨hx, .cons ht, rfl, rfl, rfl, rfl⟩

theorem Core.Trace.length_le_fuel {x : Core} {v : List Pend} (h : c.Trace x.flight v) : v.length ≤ x.fuel := by
  rw [h.length_eq, Core.fuel]
  exact List.sum_le_sum fun p _ => p.size_le_weight

namespace Core.Upto
variable {L : Nat} {x : Core} (hpl : c.Playable tr) (h : c.Upto tr L x)
include hpl h

theorem runTo (e : CEnv) (limit : Nat) : c.Upto tr (max L limit) (Core.runTo e limit x) ∧ x.SamePlace (Core.runTo e limit x) := by
  obtain ⟨h₁, h₂, h₃⟩ := Core.runFuel_trace e limit hpl x.fuel _ _ x List.takeWhile_append_dropWhile.symm h.data h.flight
    h.flight.length_le_fuel
  obtain ⟨ht, hd⟩ := takeWhile_dropWhile_max L limit tr
  exact ⟨⟨by rw [← ht]; exact h₁, by rw [← hd]; exact h₂⟩, h₃⟩

/-- Cycles pass on a core on which a trace takes effect. -/
theorem passTo (e : CEnv) (n ph : Nat) (hle : L ≤ keyAt (x.now + n) ph) :
    c.Upto tr (keyAt (x.now + n) ph) (x.passTo e n ph) ∧ (x.withNow (x.now + n)).SamePlace (x.passTo e n ph) := by
  obtain ⟨h₁, hp₁⟩ := h.runTo hpl e (keyAt (x.now + n) 0)
  have h₁' : c.Upto tr (max L (keyAt (x.now + n) 0)) ((Core.runTo e (keyAt (x.now + n) 0) x).withNow (x.now + n)) :=
    ⟨h₁.data, h₁.flight⟩
  obtain ⟨h₂, hp₂⟩ := h₁'.runTo hpl e (keyAt (x.now + n) ph)
  have hmax : max (max L (keyAt (x.now + n) 0)) (keyAt (x.now + n) ph) = keyAt (x.now + n) ph :=
    Nat.max_eq_right (Nat.max_le.2 ⟨hle, Nat.le_add_right _ _⟩)
  rw [hmax] at h₂
  rw [Core.passTo_eq, hp₁.now]
  exact ⟨h₂, hp₂.now, hp₂.bptr.trans hp₁.bptr, hp₂.loops.trans hp₁.loops, hp₂.scyc.trans hp₁.scyc⟩

end Core.Upto
end

end

/-! The micro-operations of the array instructions, where what they read stands as on `c`. -/
section

/-- The places of the micro-operations of an array instruction, one behind the other: row accesses 0, a drain's stages 1 to 3,
its record 4, stores 5 and accumulator words 6. -/
def Micro.rank : Micro → Nat
  | .mulRow .. | .preRow .. | .saveRow .. | .restWords .. | .drainRead .. => 0
  | .drainEw .. => 1
  | .drainDer .. => 2
  | .drainCvt .. => 3
  | .recAdd .. => 4
  | .store .. => 5
  | .accAdd .. | .accSet .. => 6
  | _ => 7

def Pend.ranks (r : Nat) (p : Pend) : Bool := decide (p.op.rank = r)

theorem Micro.isLoad_of_rank {op : Micro} (h : op.rank ≤ 6) : op.isLoad = false := by
  cases op with
  | loadEnd => exact absurd h (by simp [Micro.rank])
  | _ => rfl

theorem Micro.onGs_of_rank {op : Micro} (h : op.rank ≠ 3) (t : Tab Gen) : op.onGs t = t := by
  cases op with
  | drainCvt => exact absurd rfl h
  | _ => rfl
theorem Micro.onRecs_of_rank {op : Micro} (h : op.rank ≠ 4) (t : Tab Amax) : op.onRecs t = t := by
  cases op with
  | recAdd => exact absurd rfl h
  | _ => rfl
theorem Micro.onStage_of_rank {op : Micro} (h : op.rank ≠ 5) (m : Mem) : op.onStage m = m := by
  cases op with
  | store => exact absurd rfl h
  | _ => rfl
theorem Micro.onAcc_of_rank {op : Micro} (h : op.rank ≠ 6) (t : Tab W64) : op.onAcc t = t := by
  cases op with
  | accAdd | accSet => exact absurd rfl h
  | _ => rfl

theorem Micro.effect_of_rank_zero {op : Micro} (h : op.rank = 0) (c : Core) : op.effect c = c := by
  rw [Micro.effect, Micro.onGs_of_rank (by omega), Micro.onRecs_of_rank (by omega), Micro.onStage_of_rank (by omega),
    Micro.onAcc_of_rank (by omega)]

theorem Core.spawn_of_rank (c : Core) {p : Pend} (h : 4 ≤ p.op.rank) : c.spawn p = [] := by
  obtain ⟨key, sq, bd, op⟩ := p
  cases op with
  | mulRow | preRow | saveRow | restWords | drainRead | drainEw | drainDer | drainCvt => exact absurd h (by simp [Micro.rank])
  | _ => rfl

theorem Core.rank_spawn (c : Core) {p q : Pend} (h : q ∈ c.spawn p) : p.op.rank < q.op.rank := by
  obtain ⟨key, sq, bd, op⟩ := p
  cases op with
  | mulRow | preRow =>
    obtain ⟨a, -, rfl⟩ := List.mem_map.1 h
    simp [Pend.after, Micro.rank]
  | drainCvt =>
    simp only [Core.spawn, List.mem_cons, List.not_mem_nil, or_false] at h
    rcases h with rfl | rfl <;> simp [Pend.after, Micro.rank]
  | saveRow | restWords | drainRead | drainEw | drainDer =>
    rw [List.mem_singleton.1 h]
    simp [Pend.after, Micro.rank]
  | _ => exact absurd h List.not_mem_nil

@[simp] theorem Core.played_ctxs (c : Core) (u : List Pend) : (c.played u).ctxs = c.ctxs := by rw [Core.played_eq]
@[simp] theorem Core.played_planes (c : Core) (u : List Pend) : (c.played u).planes = c.planes := by rw [Core.played_eq]

theorem foldl_filter_of_fixed {α β : Type} (f : β → α → β) (C : α → Bool) {l : List α} (h : ∀ a ∈ l, C a = false → ∀ b, f b a = b)
    (b : β) : (l.filter C).foldl f b = l.foldl f b := by
  induction l generalizing b with
  | nil => rfl
  | cons a l ih =>
    have hl := fun b => ih (fun x hx => h x (List.mem_cons_of_mem _ hx)) b
    cases ha : C a with
    | true => rw [List.filter_cons_of_pos ha, List.foldl_cons, List.foldl_cons, hl]
    | false => rw [List.filter_cons_of_neg (by simp [ha]), List.foldl_cons, h a List.mem_cons_self ha, hl]

theorem foldl_of_fixed {α β : Type} (f : β → α → β) {l : List α} (h : ∀ a ∈ l, ∀ b, f b a = b) (b : β) : l.foldl f b = b := by
  rw [← foldl_filter_of_fixed f (fun _ => false) (fun a ha _ => h a ha) b, List.filter_false, List.foldl_nil]

theorem Core.played_stage (c : Core) {u : List Pend} (h : ∀ p ∈ u, p.op.rank ≠ 5) : (c.played u).stage = c.stage := by
  rw [Core.played_eq]
  exact foldl_of_fixed _ (fun p hp => p.op.onStage_of_rank (h p hp)) _

theorem Core.played_acc (c : Core) {u : List Pend} (h : ∀ p ∈ u, p.op.rank ≠ 6) : (c.played u).acc = c.acc := by
  rw [Core.played_eq]
  exact foldl_of_fixed _ (fun p hp => p.op.onAcc_of_rank (h p hp)) _

/-! What of a core each reading sees. -/
variable {c d x : Core}

theorem Core.mayAccess_congr (h : x.ctxs = c.ctxs) (a n : Nat) : x.mayAccess a n = c.mayAccess a n := by
  simp only [Core.mayAccess, Core.streamHolds, h]
theorem Core.mulMay_congr (h : x.ctxs = c.ctxs) (l : HmulD) (j : Nat) : x.mulMay l j = c.mulMay l j := by
  simp only [Core.mulMay, Core.mayAccess_congr h]
theorem Core.stageBytes_congr (h : x.stage = c.stage) (a n : Nat) : x.stageBytes a n = c.stageBytes a n := by
  simp only [Core.stageBytes, h]
theorem Core.mulInput_congr (h : x.stage = c.stage) (l : HmulD) (j : Nat) : x.mulInput l j = c.mulInput l j := by
  simp only [Core.mulInput, Core.stageBytes_congr h]
theorem Core.rowSums_congr (h : x.planes = c.planes) (l : HmulD) (a : Nat) (vs : List Val) : x.rowSums l a vs = c.rowSums l a vs := by
  simp only [Core.rowSums, Core.plane, h]
theorem Core.preRow_congr (h : x.stage = c.stage) (l : PreloadD) (i : Nat) : x.preRow l i = c.preRow l i := by
  simp only [Core.preRow, Core.stageBytes_congr h]
theorem Core.rowWords_congr (h : x.acc = c.acc) (a row : Nat) : x.rowWords a row = c.rowWords a row := by
  simp only [Core.rowWords, Core.accWordAt, h]
theorem Core.drainVals_congr (h : x.acc = c.acc) (l : HdrainD) (row : Nat) : x.drainVals l row = c.drainVals l row := by
  simp only [Core.drainVals, Core.rowWords_congr h]

theorem Core.ctxs_of_data (h : x.data = d.data) : x.ctxs = d.ctxs := show x.data.ctxs = d.data.ctxs by rw [h]
theorem Core.planes_of_data (h : x.data = d.data) : x.planes = d.planes := show x.data.planes = d.data.planes by rw [h]
theorem Core.stage_of_data (h : x.data = d.data) : x.stage = d.stage := show x.data.stage = d.data.stage by rw [h]
theorem Core.acc_of_data (h : x.data = d.data) : x.acc = d.acc := show x.data.acc = d.data.acc by rw [h]
theorem Core.gs_of_data (h : x.data = d.data) : x.gs = d.gs := show x.data.gs = d.data.gs by rw [h]

/-- Micro-operations put in flight one by one. -/
theorem Core.foldl_push {α : Type} (g : α → Pend) (f : Core → α → Core) {x : Core}
    (hf : ∀ fl a, f (x.withFlight fl) a = x.withFlight (pendInsert (g a) fl)) (as : List α) : ∀ fl,
    as.foldl f (x.withFlight fl) = x.withFlight (pendInserts (as.map g) fl) := by
  induction as with
  | nil => exact fun _ => rfl
  | cons a as ih =>
    intro fl
    rw [List.foldl_cons, hf, ih]
    rfl

variable {key sq bd : Nat}

theorem plays_mulRow {l : HmulD} {j row late : Nat} (hctx : d.ctxs = c.ctxs) (hpl : d.planes = c.planes)
    (hst : d.stage = c.stage) (hm : c.mulMay l j = true) : c.Plays ⟨key, sq, bd, .mulRow l j row late⟩ d := by
  intro e x hx _
  have hmay : x.mulMay l j = true := (Core.mulMay_congr ((Core.ctxs_of_data hx).trans hctx) l j).trans hm
  have hin := Core.mulInput_congr ((Core.stage_of_data hx).trans hst) l j
  simp only [Core.micro, if_pos hmay, hin]
  refine Core.foldl_push _ _ (fun fl a => ?_) _ x.flight
  rw [Core.rowSums_congr (x := x.withFlight fl) ((Core.planes_of_data hx).trans hpl)]
  rfl

theorem plays_preRow {l : PreloadD} {i row : Nat} (hctx : d.ctxs = c.ctxs) (hst : d.stage = c.stage)
    (hm : c.mayAccess (rowAddr l.src (if l.kind = 1 then l.stride else 0) i) (128 * (fmtOf l.fmt).width / 8) = true) :
    c.Plays ⟨key, sq, bd, .preRow l i row⟩ d := by
  intro e x hx _
  have hmay := (Core.mayAccess_congr ((Core.ctxs_of_data hx).trans hctx) _ _).trans hm
  have hin := Core.preRow_congr ((Core.stage_of_data hx).trans hst) l i
  simp only [Core.micro, if_pos hmay, hin]
  exact Core.foldl_push _ _ (fun _ _ => rfl) _ x.flight

theorem plays_saveRow {l : HsaveD} {m a i row : Nat} (hacc : d.acc = c.acc) : c.Plays ⟨key, sq, bd, .saveRow l m a i row⟩ d := by
  intro e x hx _
  simp only [Core.micro, Core.rowWords_congr ((Core.acc_of_data hx).trans hacc)]
  rfl

theorem plays_restWords {l : HsaveD} {m a i row q : Nat} (hctx : d.ctxs = c.ctxs) (hst : d.stage = c.stage)
    (hm : c.mayAccess ((l.addr + m * l.rows * 0x400 + i * 0x400 + q * 128) % stageSize) 128 = true) :
    c.Plays ⟨key, sq, bd, .restWords l m a i row q⟩ d := by
  intro e x hx _
  have hmay := (Core.mayAccess_congr ((Core.ctxs_of_data hx).trans hctx) _ _).trans hm
  simp only [Core.micro, if_pos hmay, Core.stageBytes_congr ((Core.stage_of_data hx).trans hst)]
  rfl

variable {l : HdrainD} {sp sq' c0 : W32} {grid : Int} {g : Fin 16} {i : Nat} {xs : List DVal}

theorem plays_drainRead {row : Nat} (hacc : d.acc = c.acc) : c.Plays ⟨key, sq, bd, .drainRead l sp sq' grid c0 g i row⟩ d := by
  intro e x hx _
  have hv := Core.drainVals_congr ((Core.acc_of_data hx).trans hacc) l row
  simp only [Core.spawn, ← hv]
  rfl

theorem plays_drainEw (hctx : d.ctxs = c.ctxs)
    (hst : l.ewOp ≠ 0 → d.stageBytes (ewSpan l i).1 (ewSpan l i).2 = c.stageBytes (ewSpan l i).1 (ewSpan l i).2)
    (hm : l.ewOp ≠ 0 → c.mayAccess (ewSpan l i).1 (ewSpan l i).2 = true) :
    c.Plays ⟨key, sq, bd, .drainEw l sp sq' grid c0 g i xs⟩ d := by
  intro e x hx _
  by_cases h : l.ewOp = 0
  · simp only [Core.micro, Core.spawn, Core.ewVals, if_pos h]
    rfl
  · have hmay := (Core.mayAccess_congr ((Core.ctxs_of_data hx).trans hctx) _ _).trans (hm h)
    have hby := (Core.stageBytes_congr (Core.stage_of_data hx) _ _).trans (hst h)
    simp only [ewSpan] at hmay hby
    simp only [Core.micro, Core.spawn, Core.ewVals, if_neg h, ewSpan, if_pos hmay, hby]
    rfl

theorem plays_drainDer (hctx : d.ctxs = c.ctxs)
    (hst : l.deriv ≠ 0 → d.stageBytes (derivSpan l i).1 (derivSpan l i).2 = c.stageBytes (derivSpan l i).1 (derivSpan l i).2)
    (hm : l.deriv ≠ 0 → c.mayAccess (derivSpan l i).1 (derivSpan l i).2 = true) :
    c.Plays ⟨key, sq, bd, .drainDer l sp sq' grid c0 g i xs⟩ d := by
  intro e x hx _
  by_cases h : l.deriv = 0
  · simp only [Core.micro, Core.spawn, Core.derivVals, if_pos h]
    rfl
  · have hmay := (Core.mayAccess_congr ((Core.ctxs_of_data hx).trans hctx) _ _).trans (hm h)
    have hby := (Core.stageBytes_congr (Core.stage_of_data hx) _ _).trans (hst h)
    simp only [derivSpan] at hmay hby
    simp only [Core.micro, Core.spawn, Core.derivVals, if_neg h, derivSpan, if_pos hmay, hby]
    rfl

theorem drainRow_congr (cv : Conv) {g g' : Gen} (h : cv.rnd = .stoch → g = g') (xs : List DVal) : drainRow cv g xs = drainRow cv g' xs := by
  by_cases hr : cv.rnd = .stoch
  · rw [h hr]
  · simp only [drainRow, if_neg hr]

theorem plays_drainCvt (hg : (drainConv l sp sq' grid).rnd = .stoch → d.gen g.val = genAfter (c.gen g.val) i) :
    c.Plays ⟨key, sq, bd, .drainCvt l sp sq' grid g i xs⟩ d := by
  intro e x hx _
  have hgen : x.gen g.val = d.gen g.val := by simp only [Core.gen, Core.gs_of_data hx]
  have hrow := drainRow_congr (drainConv l sp sq' grid) (g := x.gen g.val) (fun h => hgen.trans (hg h)) xs
  simp only [Core.spawn, ← hrow, ← drawn_eq_effect]
  simp only [Core.micro, drawn, drainRow]
  split <;> rfl

theorem Core.storeRuns_eq (b : Nat) (runs : List (Nat × List Byte)) : ∀ {x : Core}, (∀ r ∈ runs, x.mayAccess r.1 r.2.length = true) →
    runs.foldl (fun c r => c.storeRun b r) x = putStage runs x := by
  induction runs with
  | nil => exact fun _ => rfl
  | cons r rs ih =>
    intro x h
    have hr : x.storeRun b r = x.stageStore (r.1 % stageSize) r.2 := if_pos (h r List.mem_cons_self)
    rw [List.foldl_cons, hr, ih fun q hq => ?_]
    · rfl
    · rw [← h q (List.mem_cons_of_mem _ hq), Core.stageStore_eq]
      rfl

theorem Core.noteLoads_none (runs : List (Nat × Nat)) (h : ∀ q ∈ x.flight, q.op.isLoad = false) : x.noteLoads runs = x := by
  refine if_neg fun hany => ?_
  obtain ⟨q, hq, hhit⟩ := List.any_eq_true.1 hany
  have hl := h q hq
  cases hop : q.op with
  | loadEnd =>
    rw [hop] at hl
    exact Bool.noConfusion hl
  | _ => simp [hop] at hhit

theorem plays_store {runs : List (Nat × List Byte)} (hctx : d.ctxs = c.ctxs) (hm : ∀ r ∈ runs, c.mayAccess r.1 r.2.length = true) :
    c.Plays ⟨key, sq, bd, .store runs⟩ d := by
  intro e x hx hload
  have hst := Core.storeRuns_eq bd runs fun r hr => (Core.mayAccess_congr ((Core.ctxs_of_data hx).trans hctx) _ _).trans (hm r hr)
  simp only [Core.micro]
  rw [hst, putStage_eq_effect]
  exact Core.noteLoads_none _ hload

theorem plays_recAdd {k : Nat} {a : Amax} : c.Plays ⟨key, sq, bd, .recAdd k a⟩ d := fun _ _ _ _ => rfl
theorem plays_accSet {a row first : Nat} {ws : List W64} : c.Plays ⟨key, sq, bd, .accSet a row first ws⟩ d := fun _ _ _ _ => rfl
theorem plays_accAdd {a row mode : Nat} {rs : List RowSum} : c.Plays ⟨key, sq, bd, .accAdd a row mode rs⟩ d := fun _ _ _ _ => rfl

end

/-! An array instruction's results from the trace of its row accesses (06:R134). -/
section

/-- A micro-operation of the instruction that issues, due so many cycles later, in a phase. -/
def Core.dated (c : Core) (ph : Nat) (w : Nat × Micro) : Pend := ⟨keyAt (c.now + w.1) ph, c.seq, c.bptr, w.2⟩

theorem Core.dated_le (c : Core) (ph : Nat) {v w : Nat × Micro} (h : v.1 ≤ w.1) : (c.dated ph v).le (c.dated ph w) :=
  Pend.le_of_key rfl (Nat.add_le_add_right (Nat.mul_le_mul_right 8 (Nat.add_le_add_left h c.now)) ph)

/-- What one of the present instruction gives rise to is dated by its own cycle. -/
theorem Core.dated_after (c : Core) {ph : Nat} (hph : ph < 8) (t lat ph' : Nat) (op op' : Micro) :
    (c.dated ph (t, op)).after lat ph' op' = c.dated ph' (t + lat, op') := by
  simp only [Pend.after, Core.dated, Pend.cycle_keyAt hph, Nat.add_assoc]

theorem Core.laters_eq (ps : List (Nat × Micro)) : ∀ c : Core,
    c.laters ps = c.withFlight (pendInserts (ps.map (c.dated phRead)) c.flight) := by
  induction ps with
  | nil => exact fun _ => rfl
  | cons p ps ih => exact fun c => ih (c.later p.1 phRead p.2)

theorem Pend.key_le_after (p : Pend) {lat : Nat} (h : 1 ≤ lat) (ph : Nat) (op : Micro) : p.key ≤ (p.after lat ph op).key := by
  simp only [Pend.after, keyAt, Pend.cycle]
  omega

/-- A row access gives what it reads to a later cycle. -/
def Micro.Delays : Micro → Prop
  | .mulRow _ _ _ late => 1 ≤ late
  | .restWords _ _ _ _ _ q => q < 10
  | _ => True

theorem Micro.delays_of_rank {op : Micro} (h : op.rank ≠ 0) : op.Delays := by
  cases op <;> trivial

theorem Core.key_le_spawn (c : Core) {p q : Pend} (hp : p.op.Delays) (h : q ∈ c.spawn p) : p.key ≤ q.key := by
  obtain ⟨key, sq, bd, op⟩ := p
  cases op with
  | mulRow =>
    obtain ⟨a, -, rfl⟩ := List.mem_map.1 h
    exact Pend.key_le_after _ hp ..
  | preRow =>
    obtain ⟨r, -, rfl⟩ := List.mem_map.1 h
    exact Pend.key_le_after _ (by omega) ..
  | restWords =>
    rw [List.mem_singleton.1 h]
    exact Pend.key_le_after _ (Nat.sub_pos_of_lt hp) ..
  | drainCvt =>
    simp only [Core.spawn, List.mem_cons, List.not_mem_nil, or_false] at h
    rcases h with rfl | rfl <;> exact Pend.key_le_after _ (by decide) ..
  | saveRow | drainRead | drainEw | drainDer =>
    rw [List.mem_singleton.1 h]
    exact Pend.key_le_after _ (by decide) ..
  | _ => exact absurd h List.not_mem_nil

/-- Row accesses of an array instruction, in the order of their cycles. -/
structure Accesses (fl : List Pend) : Prop where
  sorted : fl.Pairwise Pend.le
  rank : ∀ p ∈ fl, p.op.rank = 0
  delays : ∀ p ∈ fl, p.op.Delays

namespace Core.Trace
variable {c : Core} {fl tr : List Pend} (h : c.Trace fl tr) (ha : Accesses fl)
include h ha

theorem filter_accesses : tr.filter (Pend.ranks 0) = fl := by
  have hsp : (tr.flatMap c.spawn).filter (Pend.ranks 0) = [] := List.filter_eq_nil_iff.2 fun q hq hr => by
    obtain ⟨p, -, hqp⟩ := List.mem_flatMap.1 hq
    have hlt := c.rank_spawn hqp
    rw [of_decide_eq_true hr] at hlt
    exact Nat.not_lt_zero _ hlt
  have hfl : fl.filter (Pend.ranks 0) = fl := List.filter_eq_self.2 fun p hp => decide_eq_true (ha.rank p hp)
  have heq := h.filter_eq (Pend.ranks 0) ha.sorted (by rw [hsp, hfl, List.append_nil]; exact ha.sorted)
  rw [heq, hsp, hfl, List.append_nil]

theorem sorted_of_accesses : tr.Pairwise (fun p q => p.key ≤ q.key) :=
  h.sorted ha.sorted fun p hp q hq => c.key_le_spawn (by
    by_cases hr : p.op.rank = 0
    · refine ha.delays p ?_
      rw [← h.filter_accesses ha]
      exact List.mem_filter.2 ⟨hp, decide_eq_true hr⟩
    · exact Micro.delays_of_rank hr) hq

/-- What the trace holds below a limit. -/
theorem takeWhile_eq_filter (K : Nat) : tr.takeWhile (fun p => decide (p.key < K)) = tr.filter (fun p => decide (p.key < K)) := by
  have hs := h.sorted_of_accesses ha
  clear h
  induction tr with
  | nil => rfl
  | cons p t ih =>
    obtain ⟨hp, ht⟩ := List.pairwise_cons.1 hs
    by_cases hk : p.key < K
    · simp [hk, ih ht]
    · have hnone : t.filter (fun p => decide (p.key < K)) = [] := List.filter_eq_nil_iff.2 fun q hq hqk =>
        hk ((hp q hq).trans_lt (of_decide_eq_true hqk))
      simp [hk, hnone]

end Core.Trace

/-- Effects that are seen from so many cycles after issue on. -/
def seenFrom (es : List (Nat × Pend)) : List (Nat × (Core → Core)) := es.map fun w => (w.1, w.2.op.effect)

theorem seenFrom_foldl {es : List (Nat × Pend)} {n K : Nat} (h : ∀ w ∈ es, w.1 ≤ n ↔ w.2.key < K) : ∀ d : Core,
    ((seenFrom es).filter (fun f => decide (f.1 ≤ n))).foldl (fun c f => f.2 c) d
      = d.played ((es.map Prod.snd).filter fun p => decide (p.key < K)) := by
  induction es with
  | nil => exact fun _ => rfl
  | cons w es ih =>
    intro d
    have hes := ih fun v hv => h v (List.mem_cons_of_mem _ hv)
    have hw := h w List.mem_cons_self
    by_cases hk : w.2.key < K
    · simpa [seenFrom, hw.2 hk, hk, Core.played] using hes (w.2.op.effect d)
    · simpa [seenFrom, mt hw.1 hk, hk] using hes d

theorem Core.Upto.st {c x : Core} {tr : List Pend} {L : Nat} (h : c.Upto tr L x) : x.st = c.st :=
  (Core.st_of_data h.data).trans (by rw [Core.played_eq])
theorem Core.Upto.msgs {c x : Core} {tr : List Pend} {L : Nat} (h : c.Upto tr L x) : x.msgs = c.msgs :=
  (Core.msgs_of_data h.data).trans (by rw [Core.played_eq])

variable {s : State} {k : Fin 128} {b : Nat} {l : Launch} {i : Instr} {ps : List (Nat × Micro)} {tr : List Pend}

/-- The row accesses of an instruction, as they stand in flight. -/
def Core.inFlight (c : Core) (ps : List (Nat × Micro)) : List Pend := pendInserts (ps.map (c.dated phRead)) []

theorem Core.mem_inFlight {c : Core} {p : Pend} (h : p ∈ c.inFlight ps) : ∃ w ∈ ps, c.dated phRead w = p := by
  have hp := (pendInserts_perm _ _).mem_iff.1 h
  rw [List.append_nil] at hp
  exact List.mem_map.1 hp

theorem Core.accesses_inFlight (c : Core) (h : ∀ w ∈ ps, w.2.rank = 0 ∧ w.2.Delays) : Accesses (c.inFlight ps) := by
  refine ⟨pendInserts_sorted _ .nil, fun p hp => ?_, fun p hp => ?_⟩ <;> obtain ⟨w, hw, rfl⟩ := Core.mem_inFlight hp
  · exact (h w hw).1
  · exact (h w hw).2

/-- Row accesses stand in flight in the order of their cycles, those of one cycle in the order in which they were put there. -/
theorem Core.inFlight_eq_of_filter (c : Core) {rs : List (Nat × Micro)} (hs : rs.Pairwise (fun v w => v.1 ≤ w.1))
    (h : ∀ T, ps.filter (fun w => decide (w.1 = T)) = rs.filter (fun w => decide (w.1 = T))) :
    c.inFlight ps = rs.map (c.dated phRead) := by
  refine eq_of_sorted_of_filter_key ((pendInserts_sorted _ .nil).imp Pend.le.key)
    (List.pairwise_map.2 (hs.imp fun hvw => (c.dated_le phRead hvw).key)) fun K => ?_
  have hsame : (ps.map (c.dated phRead)).filter (fun p => decide (p.key = K))
      = (rs.map (c.dated phRead)).filter (fun p => decide (p.key = K)) := by
    rw [List.filter_map, List.filter_map]
    refine congrArg (List.map (c.dated phRead)) ?_
    by_cases hT : ∃ T, K = keyAt (c.now + T) phRead
    · obtain ⟨T, rfl⟩ := hT
      have hkey : (fun p : Pend => decide (p.key = keyAt (c.now + T) phRead)) ∘ c.dated phRead = fun w => decide (w.1 = T) :=
        funext fun w => decide_eq_decide.2 (by simp only [Core.dated, keyAt]; omega)
      rw [hkey, h T]
    · have hnone : ∀ vs : List (Nat × Micro), vs.filter ((fun p : Pend => decide (p.key = K)) ∘ c.dated phRead) = [] := fun vs =>
        List.filter_eq_nil_iff.2 fun w _ hw => hT ⟨w.1, (of_decide_eq_true hw).symm⟩
      rw [hnone, hnone]
  rw [← hsame]
  refine pendInserts_filter _ _ .nil (List.pairwise_of_forall_mem_list fun p hp q hq => ?_)
  obtain ⟨hp, hpK⟩ := List.mem_filter.1 hp
  obtain ⟨hq, hqK⟩ := List.mem_filter.1 hq
  obtain ⟨v, -, rfl⟩ := List.mem_map.1 hp
  obtain ⟨w, -, rfl⟩ := List.mem_map.1 hq
  exact Pend.le_of_key rfl ((of_decide_eq_true hpK).trans (of_decide_eq_true hqK).symm).le

theorem Core.inFlight_of_sorted (c : Core) (hs : ps.Pairwise (fun v w => v.1 ≤ w.1)) : c.inFlight ps = ps.map (c.dated phRead) :=
  c.inFlight_eq_of_filter hs fun _ => rfl

/-- A slot that puts row accesses in flight does nothing more at once. -/
theorem Core.slotEffect_laters {c : Core} (hf : c.flight = []) (hacc : c.accs = [])
    (he : ∀ as, (c.withAccs as).slotEffect i = (c.withAccs as).laters ps) :
    ∃ as, (c.noteAccs [i]).slotEffect i = (c.withAccs as).withFlight (c.inFlight ps) := by
  refine ⟨(c.accsOf i).map (ArrAcc.at c.now), ?_⟩
  rw [Core.noteAccs_one hacc, he, Core.laters_eq]
  exact congrArg (fun fl => (c.withAccs _).withFlight (pendInserts (ps.map (c.dated phRead)) fl)) hf

/-- The core with the slot issued: nothing of the trace has taken effect. -/
theorem Core.stepped_upto {c : Core} {as : List ArrAcc} (hb : c.bundle = [])
    (hslot : (c.noteAccs [i]).slotEffect i = (c.withAccs as).withFlight (c.inFlight ps)) (ht : c.Trace (c.inFlight ps) tr) :
    c.Upto tr 0 (c.stepped i) where
  data := by
    rw [takeWhile_none _ _ fun _ _ => by simp, Core.stepped, hslot]
    exact Core.placed_data (c := (c.withAccs as).withFlight (c.inFlight ps)) hb _
  flight := by
    have hdrop := List.takeWhile_append_dropWhile (p := fun p : Pend => decide (p.key < 0)) (l := tr)
    rw [takeWhile_none _ _ fun _ _ => by simp, List.nil_append] at hdrop
    rw [hdrop, Core.stepped, hslot]
    exact ht

/-- An array instruction on a quiet core, whose row accesses read on the way what they would read at issue: its results, `es`
being the effects of its trace each with the cycle from which it is seen. -/
theorem State.does_trace (hq : s.Quiet k b l) (hx : exec i s = .next (s.submit i (at1 k))) (hp : plainSlot i = true)
    (hnx : (s.core k.val).nextOf [i] = endCount (s.core k.val).bptr (s.core k.val).loops)
    (he : ∀ as, ((s.core k.val).withAccs as).slotEffect i = ((s.core k.val).withAccs as).laters ps)
    (ha : Accesses ((s.core k.val).inFlight ps)) (ht : (s.core k.val).Trace ((s.core k.val).inFlight ps) tr)
    (hpl : (s.core k.val).Playable tr) {es : List (Nat × Pend)}
    (htime : ∀ w ∈ es, ∀ n, w.1 ≤ n + 1 ↔ w.2.key < keyAt ((s.core k.val).now + 1 + n) phRead)
    (hes : ∀ (K : Nat) (d : Core), d.played ((es.map Prod.snd).filter fun p => decide (p.key < K))
      = d.played (tr.filter fun p => decide (p.key < K))) :
    s.Does i k id (seenFrom es) := by
  obtain ⟨as, hslot⟩ := Core.slotEffect_laters hq.flight hq.accs he
  obtain ⟨hnow, hbptr, hloops, hscyc⟩ : Core.SamePlace ((((s.core k.val).withAccs as).withFlight ((s.core k.val).inFlight ps)).placed
      (endCount (s.core k.val).bptr (s.core k.val).loops)) ((s.core k.val).stepped i) := by
    rw [Core.stepped, hslot, hnx]
    exact ⟨rfl, rfl, rfl, rfl⟩
  obtain ⟨h₁, hplace⟩ := (Core.stepped_upto hq.bundle hslot ht).passTo hpl ((s.box b).env l k.val) 1 phGen (Nat.zero_le _)
  have hsub := State.submit_quiet s k b l hq i hp (by rw [hslot]; exact hq.seg) (by rw [hslot]; exact hq.st)
    (h₁.st.trans hq.st) (h₁.msgs.trans hq.msgs)
  refine ⟨_, hx.trans (congrArg _ hsub), ⟨by rw [State.setCore_core_same], ?_, ?_⟩, fun e n => ?_⟩
  · rw [State.setCore_core_same]
    exact Prod.ext (hplace.bptr.trans hbptr) (hplace.loops.trans hloops)
  · rw [State.setCore_core_same]
    exact hplace.scyc.trans hscyc
  · have hnext : (Core.endCycle ((s.box b).env l k.val) ((s.core k.val).stepped i)).now = (s.core k.val).now + 1 :=
      hplace.now.trans (congrArg (· + 1) hnow)
    have hkey : keyAt (((s.core k.val).stepped i).now + 1) phGen
        ≤ keyAt ((Core.endCycle ((s.box b).env l k.val) ((s.core k.val).stepped i)).now + n) phRead := by
      rw [hnext, hnow]
      exact Nat.add_le_add (Nat.mul_le_mul_right 8 (Nat.le_add_right _ n)) (by decide)
    have h₂ := (h₁.passTo hpl e n phRead hkey).1.data
    rw [State.setCore_core_same, seenFrom_foldl (fun w hw => htime w hw n), hes, ← ht.takeWhile_eq_filter ha, ← hnext]
    exact h₂

end

/-! HMUL, PRELOAD, HSAVE and HRESTORE: row accesses that each put landings in flight. -/
section
variable {s : State} {k : Fin 128} {b : Nat} {l : Launch} {i : Instr} {ps ws : List (Nat × Micro)}

/-- The landings that row accesses give, `ws`, in the order in which they are put in flight. -/
structure Core.Landings (c : Core) (ps ws : List (Nat × Micro)) (r : Nat) : Prop where
  accesses : Accesses (c.inFlight ps)
  spawn : (c.inFlight ps).flatMap c.spawn = ws.map (c.dated phLand)
  sorted : ws.Pairwise (fun v w => v.1 ≤ w.1)
  rank : ∀ w ∈ ws, w.2.rank = r
  four_le : 4 ≤ r
  le_six : r ≤ 6

theorem Core.Landings.spawn_rank {c : Core} {r : Nat} (h : c.Landings ps ws r) {p q : Pend} (hp : p ∈ c.inFlight ps) (hq : q ∈ c.spawn p) :
    q.op.rank = r := by
  have hmem := List.mem_flatMap.2 ⟨p, hp, hq⟩
  rw [h.spawn] at hmem
  obtain ⟨w, hw, rfl⟩ := List.mem_map.1 hmem
  exact h.rank w hw

/-- The trace of row accesses that give landings. -/
theorem Core.Landings.trace {c : Core} {r : Nat} (h : c.Landings ps ws r) {tr : List Pend} (ht : c.Trace (c.inFlight ps) tr) :
    (∀ p ∈ tr, p ∈ c.inFlight ps ∨ p.op.rank = r) ∧ tr.filter (Pend.ranks r) = ws.map (c.dated phLand) := by
  have hr := h.four_le
  have hall : ∀ p ∈ tr, p ∈ c.inFlight ps ∨ p.op.rank = r := ht.forall_mem (fun p hp q hq => .inr (by
    rcases hp with hp | hp
    · exact h.spawn_rank hp hq
    · rw [c.spawn_of_rank (hp ▸ hr)] at hq
      exact absurd hq List.not_mem_nil)) fun p hp => .inl hp
  refine ⟨hall, ht.filter_next h.accesses.sorted (ht.filter_accesses h.accesses) ?_ (fun p hp hz => ?_) ?_ ?_⟩
  · refine List.filter_eq_nil_iff.2 fun p hp hpr => ?_
    have := h.accesses.rank p hp
    have := of_decide_eq_true hpr
    omega
  · have hne : p.op.rank ≠ 0 := of_decide_eq_false hz
    rcases hall p hp with hp | hp
    · exact absurd (h.accesses.rank p hp) hne
    · rw [c.spawn_of_rank (hp ▸ hr), List.filter_nil]
  · rw [h.spawn]
    refine List.filter_eq_self.2 fun p hp => ?_
    obtain ⟨w, hw, rfl⟩ := List.mem_map.1 hp
    exact decide_eq_true (h.rank w hw)
  · exact List.pairwise_map.2 (h.sorted.imp fun hvw => c.dated_le phLand hvw)

theorem State.does_landings (hq : s.Quiet k b l) (hx : exec i s = .next (s.submit i (at1 k))) (hp : plainSlot i = true)
    (hnx : (s.core k.val).nextOf [i] = endCount (s.core k.val).bptr (s.core k.val).loops)
    (he : ∀ as, ((s.core k.val).withAccs as).slotEffect i = ((s.core k.val).withAccs as).laters ps) {r : Nat}
    (hl : (s.core k.val).Landings ps ws r)
    (hpl : ∀ u, (∀ p ∈ u, p.op.rank = 0 ∨ p.op.rank = r) → ∀ p, p ∈ (s.core k.val).inFlight ps ∨ p ∈ ws.map ((s.core k.val).dated phLand) →
      (s.core k.val).Plays p ((s.core k.val).played u)) :
    s.Does i k id (ws.map fun w => (w.1, w.2.effect)) := by
  obtain ⟨tr, ht⟩ := Core.Trace.exists_trace (s.core k.val) ((s.core k.val).inFlight ps)
  obtain ⟨hall, hws⟩ := hl.trace ht
  have hrank : ∀ p ∈ tr, p.op.rank = 0 ∨ p.op.rank = r := fun p hp => (hall p hp).imp_left (hl.accesses.rank p)
  have hplay : (s.core k.val).Playable tr := by
    refine ⟨fun u p v htr => ?_, fun p hp => Micro.isLoad_of_rank ?_⟩
    · have hmem : p ∈ tr := by simp [htr]
      refine hpl u (fun q hqu => hrank q (by simp [htr, hqu])) p ((hall p hmem).imp_right fun hpr => ?_)
      rw [← hws]
      exact List.mem_filter.2 ⟨hmem, decide_eq_true hpr⟩
    · have := hl.le_six
      have := hrank p hp
      omega
  have hdoes := State.does_trace hq hx hp hnx he hl.accesses ht hplay (es := ws.map fun w => (w.1, (s.core k.val).dated phLand w))
    (fun w hw n => by
      obtain ⟨v, -, rfl⟩ := List.mem_map.1 hw
      simp only [Core.dated, keyAt, phLand, phRead]
      omega)
    (fun K d => by
      have hsnd : (ws.map fun w => (w.1, (s.core k.val).dated phLand w)).map Prod.snd = tr.filter (Pend.ranks r) := by
        rw [hws, List.map_map]
        rfl
      rw [hsnd, List.filter_comm]
      refine foldl_filter_of_fixed _ _ (fun p hp hpr d => Micro.effect_of_rank_zero ?_ d) d
      exact (hrank p (List.mem_filter.1 hp).1).resolve_right (of_decide_eq_false hpr))
  rw [seenFrom, List.map_map] at hdoes
  exact hdoes

end

/-! HMUL, PRELOAD, HSAVE and HRESTORE (03:R66, R68, R73, R75, R85). -/
section

theorem pairwise_range_map {α : Type} (f : Nat → Nat × α) (n : Nat) (h : ∀ i j, i < j → (f i).1 ≤ (f j).1) :
    ((List.range n).map f).Pairwise (fun v w => v.1 ≤ w.1) :=
  List.pairwise_map.2 (List.pairwise_lt_range.imp (h _ _))

/-- Rows of results, those of one row at its own cycle, behind those of the rows before. -/
theorem pairwise_range_flatMap {α : Type} (f : Nat → List (Nat × α)) (t : Nat → Nat) (n : Nat) (hf : ∀ i, ∀ w ∈ f i, w.1 = t i)
    (ht : ∀ i j, i < j → t i ≤ t j) : ((List.range n).flatMap f).Pairwise (fun v w => v.1 ≤ w.1) := by
  refine List.pairwise_flatMap.2 ⟨fun i _ => List.pairwise_of_forall_mem_list fun v hv w hw => ?_,
    List.pairwise_lt_range.imp fun hij v hv w hw => ?_⟩
  · rw [hf i v hv, hf i w hw]
  · rw [hf _ v hv, hf _ w hw]
    exact ht _ _ hij

theorem foldl_group {α β : Type} (as : List α) (bs : List β) (t : α → Nat) (f : α → β → Core → Core) (n : Nat) : ∀ c : Core,
    ((as.flatMap fun a => bs.map fun b => (t a, f a b)).filter (fun f => decide (f.1 ≤ n))).foldl (fun c f => f.2 c) c
      = ((as.map fun a => (t a, fun c => bs.foldl (fun c b => f a b c) c)).filter (fun f => decide (f.1 ≤ n))).foldl
        (fun c f => f.2 c) c := by
  induction as with
  | nil => exact fun _ => rfl
  | cons a as ih =>
    intro c
    rw [List.flatMap_cons, List.filter_append, List.foldl_append, List.map_cons]
    by_cases ha : t a ≤ n
    · have hrow : (bs.map fun b => (t a, f a b)).filter (fun f => decide (f.1 ≤ n)) = bs.map fun b => (t a, f a b) :=
        List.filter_eq_self.2 fun w hw => by
          obtain ⟨b, -, rfl⟩ := List.mem_map.1 hw
          exact decide_eq_true ha
      rw [hrow, List.foldl_map, ih, List.filter_cons_of_pos (by exact decide_eq_true ha)]
      rfl
    · have hrow : (bs.map fun b => (t a, f a b)).filter (fun f => decide (f.1 ≤ n)) = [] :=
        List.filter_eq_nil_iff.2 fun w hw => by
          obtain ⟨b, -, rfl⟩ := List.mem_map.1 hw
          simpa using ha
      rw [hrow, List.foldl_nil, ih, List.filter_cons_of_neg (by simpa using ha)]

/-- Results of one cycle may be taken together. -/
theorem State.Does.group {s : State} {i : Instr} {k : Fin 128} {g : Core → Core} {α β : Type} {as : List α} {bs : List β} {t : α → Nat}
    {f : α → β → Core → Core} (h : s.Does i k g (as.flatMap fun a => bs.map fun b => (t a, f a b))) :
    s.Does i k g (as.map fun a => (t a, fun c => bs.foldl (fun c b => f a b c) c)) := by
  obtain ⟨u, hu, hissued, hlands⟩ := h
  exact ⟨u, hu, hissued, fun e n => (hlands e n).trans (congrArg Core.data (foldl_group as bs t f (n + 1) _))⟩

variable {s : State} {k : Fin 128} {b : Nat} {l : Launch} {desc : BitVec 12} {ba bb : Fin 32}

/-- The sums of HMUL's rows, on their way to the accumulator rows of its arrays (03:R68, R73). -/
def Core.mulSums (c : Core) (d : HmulD) (dbl : Prop) [Decidable dbl] : List (Nat × Micro) :=
  (List.range d.rows).flatMap fun j => (arrsOf d.arrs).map fun a =>
    (if dbl then 2 * j + 15 else j + 14, .accAdd a ((d.accRow + j) % 512) d.accMode (c.rowSums d a (c.mulInput d j)))

theorem Core.mul_landings (c : Core) (d : HmulD) (dbl : Prop) [Decidable dbl] : c.Landings (mulRows d dbl) (c.mulSums d dbl) 6 where
  accesses := c.accesses_inFlight fun w hw => by
    obtain ⟨j, -, rfl⟩ := List.mem_map.1 hw
    exact ⟨rfl, show 1 ≤ if dbl then 15 else 14 by split <;> decide⟩
  spawn := by
    have hs : (mulRows d dbl).Pairwise (fun v w => v.1 ≤ w.1) := pairwise_range_map _ _ fun i j hij => by simp only; split <;> omega
    rw [c.inFlight_of_sorted hs, mulRows, Core.mulSums, List.map_map, List.flatMap_map, List.map_flatMap]
    refine congrArg (List.flatMap · (List.range d.rows)) (funext fun j => ?_)
    rw [List.map_map]
    refine List.map_congr_left fun a _ => ?_
    rw [Function.comp_apply, c.dated_after (by decide)]
    refine congrArg (fun t => c.dated phLand (t, _)) ?_
    split <;> rfl
  sorted := pairwise_range_flatMap _ (fun j => if dbl then 2 * j + 15 else j + 14) _ (fun j w hw => by
    obtain ⟨a, -, rfl⟩ := List.mem_map.1 hw
    rfl) fun i j hij => by split <;> omega
  rank w hw := by
    obtain ⟨j, -, hw⟩ := List.mem_flatMap.1 hw
    obtain ⟨a, -, rfl⟩ := List.mem_map.1 hw
    rfl
  four_le := by decide
  le_six := by decide

theorem hmul_does (hq : s.Quiet k b l) {d : HmulD} (hop : (s.core k.val).hmulOp desc.toNat ba bb = some d)
    (hok : (s.core k.val).mulPlanesOk d = true) (hm : ∀ j < d.rows, (s.core k.val).mulMay d j = true) :
    s.Does (.hmul (at1 k) desc ba bb) k id (((s.core k.val).mulSums d ((s.core k.val).mulMode d = .double)).map
      fun w => (w.1, w.2.effect)) := by
  refine State.does_landings hq rfl rfl rfl (ps := mulRows d ((s.core k.val).mulMode d = .double))
    (fun as => Core.doHmul_laters (c := (s.core k.val).withAccs as) hop hok) (Core.mul_landings ..) fun u hu p hp => ?_
  have hst : ((s.core k.val).played u).stage = (s.core k.val).stage := Core.played_stage _ fun p hp => by have := hu p hp; omega
  rcases hp with hp | hp
  · obtain ⟨w, hw, rfl⟩ := Core.mem_inFlight hp
    obtain ⟨j, hj, rfl⟩ := List.mem_map.1 hw
    exact plays_mulRow (Core.played_ctxs ..) (Core.played_planes ..) hst (hm j (List.mem_range.1 hj))
  · obtain ⟨w, hw, rfl⟩ := List.mem_map.1 hp
    obtain ⟨j, -, hw⟩ := List.mem_flatMap.1 hw
    obtain ⟨a, -, rfl⟩ := List.mem_map.1 hw
    exact plays_accAdd

/-- PRELOAD's rows, on their way to the accumulator (03:R75). -/
def Core.preWords (c : Core) (d : PreloadD) : List (Nat × Micro) :=
  (List.range d.rows).map fun i => (i + 3, .accSet d.arr ((d.accRow + i) % 512) 0 (c.preRow d i))

theorem Core.spawn_preRow (c : Core) (d : PreloadD) (i row : Nat) : c.spawn (c.dated phRead (i, .preRow d i row))
    = (List.range (if d.kind = 1 then 1 else d.rows)).map fun r =>
      c.dated phLand (i + (3 + r), .accSet d.arr ((row + r) % 512) 0 (c.preRow d i)) :=
  List.map_congr_left fun _ _ => c.dated_after (by decide) ..

/-- KIND 0 gives one source row to all (03:R75). -/
theorem Core.preRow_same (c : Core) {d : PreloadD} (h : d.kind ≠ 1) (i : Nat) : c.preRow d i = c.preRow d 0 := by
  simp only [Core.preRow, if_neg h, rowAddr, Nat.mul_zero]

theorem Core.pre_landings (c : Core) (d : PreloadD) : c.Landings (preRows d) (c.preWords d) 6 where
  accesses := c.accesses_inFlight fun w hw => by
    obtain ⟨i, -, rfl⟩ := List.mem_map.1 hw
    exact ⟨rfl, trivial⟩
  spawn := by
    have hs : (preRows d).Pairwise (fun v w => v.1 ≤ w.1) := pairwise_range_map _ _ fun i j hij => hij.le
    rw [c.inFlight_of_sorted hs, preRows, Core.preWords, List.map_map, List.flatMap_map, List.map_map]
    simp only [Function.comp_def, Core.spawn_preRow]
    by_cases h : d.kind = 1
    · simp [h, List.map_eq_flatMap]
    · simp [h, Nat.add_comm, c.preRow_same h]
  sorted := pairwise_range_map _ _ fun i j hij => by simp only; omega
  rank w hw := by
    obtain ⟨i, -, rfl⟩ := List.mem_map.1 hw
    rfl
  four_le := by decide
  le_six := by decide

theorem preload_does (hq : s.Quiet k b l) {d : PreloadD} (hop : (s.core k.val).preloadOp desc.toNat ba bb = some d)
    (hm : ∀ i < d.rows, (s.core k.val).mayAccess (rowAddr d.src (if d.kind = 1 then d.stride else 0) i)
      (128 * (fmtOf d.fmt).width / 8) = true) (hpos : 0 < d.rows) :
    s.Does (.preload (at1 k) desc ba bb) k id (((s.core k.val).preWords d).map fun w => (w.1, w.2.effect)) := by
  refine State.does_landings hq rfl rfl rfl (fun as => Core.doPreload_laters (c := (s.core k.val).withAccs as) hop)
    (Core.pre_landings ..) fun u hu p hp => ?_
  have hst : ((s.core k.val).played u).stage = (s.core k.val).stage := Core.played_stage _ fun p hp => by have := hu p hp; omega
  rcases hp with hp | hp
  · obtain ⟨w, hw, rfl⟩ := Core.mem_inFlight hp
    obtain ⟨i, hi, rfl⟩ := List.mem_map.1 hw
    refine plays_preRow (Core.played_ctxs ..) hst (hm i ?_)
    have hlt := List.mem_range.1 hi
    split at hlt <;> omega
  · obtain ⟨w, hw, rfl⟩ := List.mem_map.1 hp
    obtain ⟨i, -, rfl⟩ := List.mem_map.1 hw
    exact plays_accSet

/-- Where row `i` of the `m`-th array of an HSAVE or HRESTORE lies (03:R85). -/
def saveAddr (d : HsaveD) (m i : Nat) : Nat := (d.addr + m * d.rows * 0x400 + i * 0x400) % stageSize

/-- HSAVE's rows, on their way to stage memory (03:R85). -/
def Core.savedRows (c : Core) (d : HsaveD) : List (Nat × Micro) :=
  (List.range d.rows).flatMap fun i => (saveArrs d).map fun am =>
    (8 * i + 10, .store [(saveAddr d am.2 i, (c.rowWords am.1 ((d.firstRow + i) % 512)).flatMap (fun w => leBytes 8 w.toNat))])

theorem Core.save_landings (c : Core) (d : HsaveD) : c.Landings (saveRows d) (c.savedRows d) 5 where
  accesses := c.accesses_inFlight fun w hw => by
    obtain ⟨i, -, hw⟩ := List.mem_flatMap.1 hw
    obtain ⟨am, -, rfl⟩ := List.mem_map.1 hw
    exact ⟨rfl, trivial⟩
  spawn := by
    have hs : (saveRows d).Pairwise (fun v w => v.1 ≤ w.1) := pairwise_range_flatMap _ (8 * ·) _ (fun i w hw => by
      obtain ⟨am, -, rfl⟩ := List.mem_map.1 hw
      rfl) fun i j hij => by omega
    rw [c.inFlight_of_sorted hs, saveRows, Core.savedRows, List.map_flatMap, List.flatMap_assoc, List.map_flatMap]
    refine congrArg (List.flatMap · (List.range d.rows)) (funext fun i => ?_)
    rw [List.map_map, List.flatMap_map, List.map_map, List.map_eq_flatMap]
    refine congrArg (List.flatMap · (saveArrs d)) (funext fun am => ?_)
    exact congrArg (fun p => [p]) (c.dated_after (by decide) ..)
  sorted := pairwise_range_flatMap _ (8 * · + 10) _ (fun i w hw => by
    obtain ⟨am, -, rfl⟩ := List.mem_map.1 hw
    rfl) fun i j hij => by omega
  rank w hw := by
    obtain ⟨i, -, hw⟩ := List.mem_flatMap.1 hw
    obtain ⟨am, -, rfl⟩ := List.mem_map.1 hw
    rfl
  four_le := by decide
  le_six := by decide

theorem hsave_does (hq : s.Quiet k b l) {d : HsaveD} (hop : (s.core k.val).hsaveOp desc.toNat ba bb = some d)
    (hm : ∀ i < d.rows, ∀ m < (arrsOf d.arrs).length, (s.core k.val).mayAccess (saveAddr d m i) 0x400 = true) :
    s.Does (.hsave (at1 k) desc ba bb) k id (((s.core k.val).savedRows d).map fun w => (w.1, w.2.effect)) := by
  refine State.does_landings hq rfl rfl rfl (fun as => Core.doHsave_laters (c := (s.core k.val).withAccs as) hop)
    (Core.save_landings ..) fun u hu p hp => ?_
  rcases hp with hp | hp
  · obtain ⟨w, hw, rfl⟩ := Core.mem_inFlight hp
    obtain ⟨i, -, hw⟩ := List.mem_flatMap.1 hw
    obtain ⟨am, -, rfl⟩ := List.mem_map.1 hw
    exact plays_saveRow (Core.played_acc _ fun p hp => by have := hu p hp; omega)
  · obtain ⟨w, hw, rfl⟩ := List.mem_map.1 hp
    obtain ⟨i, hi, hw⟩ := List.mem_flatMap.1 hw
    obtain ⟨am, ham, rfl⟩ := List.mem_map.1 hw
    refine plays_store (Core.played_ctxs ..) fun r hr => ?_
    rw [List.mem_singleton.1 hr]
    have hlen : (((s.core k.val).rowWords am.1 ((d.firstRow + i) % 512)).flatMap (fun w => leBytes 8 w.toNat)).length = 0x400 := by
      simp [List.length_flatMap, Core.rowWords, Function.comp_def]
    rw [hlen]
    exact hm i (List.mem_range.1 hi) am.2 (List.mem_range.1 (List.of_mem_zip ham).2)

/-- HRESTORE's reads in the order in which they stand in flight: row by row, sixteen words of each array (03:R85). -/
def restReads (d : HsaveD) : List (Nat × Micro) :=
  (List.range d.rows).flatMap fun i => (List.range 8).flatMap fun q => (saveArrs d).map fun am =>
    (8 * i + q, .restWords d am.2 am.1 i ((d.firstRow + i) % 512) q)

/-- HRESTORE's words, on their way to the accumulator (03:R85). -/
def Core.restoredWords (c : Core) (d : HsaveD) : List (Nat × Micro) :=
  (List.range d.rows).flatMap fun i => (List.range 8).flatMap fun q => (saveArrs d).map fun am =>
    (8 * i + 10, .accSet am.1 ((d.firstRow + i) % 512) (16 * q) ((List.range 16).map fun j =>
      BitVec.ofNat 64 (fieldAt (c.stageBytes ((d.addr + am.2 * d.rows * 0x400 + i * 0x400 + q * 128) % stageSize) 128) (8 * j) 8)))

/-- Where at most one of `bs` is kept, it does not matter in which of two lists the other varies first. -/
theorem flatMap_filter_swap {α β γ : Type} (as : List α) (bs : List β) (f : α → β → γ) (C : γ → Bool) (D : β → Bool)
    (hC : ∀ a b, C (f a b) = D b) (h : (bs.filter D).length ≤ 1) :
    (as.flatMap fun a => bs.map (f a)).filter C = (bs.flatMap fun b => as.map fun a => f a b).filter C := by
  have hrows : (as.flatMap fun a => bs.map (f a)).filter C = as.flatMap fun a => (bs.filter D).map (f a) := by
    rw [List.filter_flatMap]
    refine congrArg (List.flatMap · as) (funext fun a => ?_)
    rw [List.filter_map]
    exact congrArg (fun E => (bs.filter E).map (f a)) (funext (hC a))
  have hcols : (bs.flatMap fun b => as.map fun a => f a b).filter C = (bs.filter D).flatMap fun b => as.map fun a => f a b := by
    clear h hrows
    induction bs with
    | nil => rfl
    | cons b bs ih =>
      rw [List.flatMap_cons, List.filter_append, ih, List.filter_map]
      have hb : (C ∘ fun a => f a b) = fun _ => D b := funext fun a => hC a b
      cases hD : D b <;> simp [hb, hD]
  rw [hrows, hcols]
  match bs.filter D, h with
  | [], _ => simp
  | [b], _ => simp [List.map_eq_flatMap]

theorem filter_range_add_length_le (a n T : Nat) : ((List.range n).filter fun q => decide (a + q = T)).length ≤ 1 := by
  refine (List.Nodup.subperm (List.nodup_range.filter _) (l₂ := [T - a]) fun q hq => ?_).length_le
  have hqT : a + q = T := of_decide_eq_true (List.mem_filter.1 hq).2
  exact List.mem_singleton.2 (by omega)

theorem Core.inFlight_restRows (c : Core) (d : HsaveD) : c.inFlight (restRows d) = (restReads d).map (c.dated phRead) := by
  refine c.inFlight_eq_of_filter ?_ fun T => ?_
  · refine List.pairwise_flatMap.2 ⟨fun i _ => pairwise_range_flatMap _ (8 * i + ·) _ (fun q w hw => ?_) fun q r hqr => by omega,
      List.pairwise_lt_range.imp fun hij v hv w hw => ?_⟩
    · obtain ⟨am, -, rfl⟩ := List.mem_map.1 hw
      rfl
    · obtain ⟨q, hq, hv⟩ := List.mem_flatMap.1 hv
      obtain ⟨r, -, hw⟩ := List.mem_flatMap.1 hw
      obtain ⟨am, -, rfl⟩ := List.mem_map.1 hv
      obtain ⟨an, -, rfl⟩ := List.mem_map.1 hw
      have := List.mem_range.1 hq
      simp only
      omega
  · rw [restRows, restReads, List.filter_flatMap, List.filter_flatMap]
    refine congrArg (List.flatMap · (List.range d.rows)) (funext fun i => ?_)
    exact flatMap_filter_swap (saveArrs d) (List.range 8) (fun am q => (8 * i + q, Micro.restWords d am.2 am.1 i ((d.firstRow + i) % 512) q))
      (fun w => decide (w.1 = T)) (fun q => decide (8 * i + q = T)) (fun _ _ => rfl) (filter_range_add_length_le ..)

theorem Core.rest_landings (c : Core) (d : HsaveD) : c.Landings (restRows d) (c.restoredWords d) 6 where
  accesses := c.accesses_inFlight fun w hw => by
    obtain ⟨i, -, hw⟩ := List.mem_flatMap.1 hw
    obtain ⟨am, -, hw⟩ := List.mem_flatMap.1 hw
    obtain ⟨q, hq, rfl⟩ := List.mem_map.1 hw
    exact ⟨rfl, (List.mem_range.1 hq).trans (by decide)⟩
  spawn := by
    rw [c.inFlight_restRows, restReads, Core.restoredWords]
    simp only [List.map_flatMap, List.flatMap_assoc, List.map_map, List.flatMap_map]
    refine congrArg (List.flatMap · (List.range d.rows)) (funext fun i => ?_)
    refine List.flatMap_congr fun q hq => ?_
    rw [List.map_eq_flatMap]
    refine congrArg (List.flatMap · (saveArrs d)) (funext fun am => ?_)
    have hlt := List.mem_range.1 hq
    have ht : 8 * i + q + (10 - q) = 8 * i + 10 := by omega
    rw [Function.comp_apply, ← ht]
    exact congrArg (fun p => [p]) (c.dated_after (by decide) ..)
  sorted := pairwise_range_flatMap _ (8 * · + 10) _ (fun i w hw => by
    obtain ⟨q, -, hw⟩ := List.mem_flatMap.1 hw
    obtain ⟨am, -, rfl⟩ := List.mem_map.1 hw
    rfl) fun i j hij => by omega
  rank w hw := by
    obtain ⟨i, -, hw⟩ := List.mem_flatMap.1 hw
    obtain ⟨q, -, hw⟩ := List.mem_flatMap.1 hw
    obtain ⟨am, -, rfl⟩ := List.mem_map.1 hw
    rfl
  four_le := by decide
  le_six := by decide

theorem saveAddr_add (d : HsaveD) (m i n : Nat) :
    (d.addr + m * d.rows * 0x400 + i * 0x400 + n) % stageSize = (saveAddr d m i + n) % stageSize := (Nat.mod_add_mod ..).symm

theorem hrestore_does (hq : s.Quiet k b l) {d : HsaveD} (hop : (s.core k.val).hsaveOp desc.toNat ba bb = some d)
    (hm : ∀ i < d.rows, ∀ m < (arrsOf d.arrs).length, ∀ q < 8,
      (s.core k.val).mayAccess ((saveAddr d m i + q * 128) % stageSize) 128 = true) :
    s.Does (.hrestore (at1 k) desc ba bb) k id (((s.core k.val).restoredWords d).map fun w => (w.1, w.2.effect)) := by
  refine State.does_landings hq rfl rfl rfl (fun as => Core.doHrestore_laters (c := (s.core k.val).withAccs as) hop)
    (Core.rest_landings ..) fun u hu p hp => ?_
  have hst : ((s.core k.val).played u).stage = (s.core k.val).stage := Core.played_stage _ fun p hp => by have := hu p hp; omega
  rcases hp with hp | hp
  · obtain ⟨w, hw, rfl⟩ := Core.mem_inFlight hp
    obtain ⟨i, hi, hw⟩ := List.mem_flatMap.1 hw
    obtain ⟨am, ham, hw⟩ := List.mem_flatMap.1 hw
    obtain ⟨q, hq, rfl⟩ := List.mem_map.1 hw
    refine plays_restWords (Core.played_ctxs ..) hst ?_
    rw [saveAddr_add]
    exact hm i (List.mem_range.1 hi) am.2 (List.mem_range.1 (List.of_mem_zip ham).2) q (List.mem_range.1 hq)
  · obtain ⟨w, hw, rfl⟩ := List.mem_map.1 hp
    obtain ⟨i, -, hw⟩ := List.mem_flatMap.1 hw
    obtain ⟨q, -, hw⟩ := List.mem_flatMap.1 hw
    obtain ⟨am, -, rfl⟩ := List.mem_map.1 hw
    exact plays_accSet

/-- A field of a run of stage memory is the bytes at its offset. -/
theorem Core.fieldAt_stageBytes (c : Core) (a : Nat) {n off m : Nat} (h : off + m ≤ n) :
    fieldAt (c.stageBytes (a % stageSize) n) off m = leNat (c.stageBytes (a + off) m) := by
  refine congrArg leNat (List.map_congr_left fun i hi => ?_)
  have hlt := List.mem_range.1 hi
  have hget : (c.stageBytes (a % stageSize) n)[off + i]? = some (c.stage.read ((a % stageSize + (off + i)) % stageSize)) := by
    simp [Core.stageBytes, show off + i < n by omega]
  rw [List.getD_eq_getElem?_getD, hget, Option.getD_some, Nat.mod_add_mod, Nat.add_assoc]

end

/-! HDRAIN (03:R77 to R80; 04:R92 to R95; 05:R121). -/
section

theorem read_storeAt (m : Mem) {a y : Nat} (bs : List Byte) (hy : y < stageSize) (h : ∀ x < bs.length, (a + x) % stageSize ≠ y) :
    (storeAt m (a % stageSize) bs).read y = m.read y := by
  have ha : a % stageSize < stageSize := Nat.mod_lt _ (by decide)
  have hoff : ∀ x, a % stageSize + x = y ∨ a % stageSize + x = y + stageSize → bs.length ≤ x := fun x hx => by
    by_contra hlt
    refine h x (Nat.lt_of_not_le hlt) ?_
    rw [← Nat.mod_add_mod]
    rcases hx with hx | hx
    · rw [hx, Nat.mod_eq_of_lt hy]
    · rw [hx, Nat.add_mod_right, Nat.mod_eq_of_lt hy]
  have h₁ := hoff (y - a % stageSize)
  have h₂ := hoff (y + (stageSize - a % stageSize))
  unfold storeAt
  split
  · rw [Mem.read_store, if_neg (by omega)]
  · rw [Mem.read_store, if_neg (by rw [List.length_drop]; omega), Mem.read_store, if_neg (by rw [List.length_take]; omega)]

/-- Two spans of stage memory, addresses modulo its size, do not meet. -/
def Apart (p q : Nat × Nat) : Prop := ∀ x < p.2, ∀ y < q.2, (p.1 + x) % stageSize ≠ (q.1 + y) % stageSize

theorem read_onStage {op : Micro} {sp : Nat × Nat} {y : Nat} (hy : y < sp.2)
    (h : ∀ runs, op = .store runs → ∀ r ∈ runs, Apart (r.1, r.2.length) sp) (m : Mem) :
    (op.onStage m).read ((sp.1 + y) % stageSize) = m.read ((sp.1 + y) % stageSize) := by
  by_cases hr : op.rank = 5
  · cases op with
    | store runs =>
      have hruns := h runs rfl
      clear h hr
      induction runs generalizing m with
      | nil => rfl
      | cons r rs ih =>
        refine (ih (storeAt m (r.1 % stageSize) r.2) fun q hq => hruns q (List.mem_cons_of_mem _ hq)).trans ?_
        exact read_storeAt m r.2 (Nat.mod_lt _ (by decide)) fun x hx => hruns r List.mem_cons_self x hx y hy
    | _ => exact absurd hr (by simp [Micro.rank])
  · rw [Micro.onStage_of_rank hr]

/-- Stores that do not meet a span leave its bytes. -/
theorem Core.played_stageBytes (c : Core) {u : List Pend} {sp : Nat × Nat}
    (h : ∀ p ∈ u, ∀ runs, p.op = .store runs → ∀ r ∈ runs, Apart (r.1, r.2.length) sp) :
    (c.played u).stageBytes sp.1 sp.2 = c.stageBytes sp.1 sp.2 := by
  induction u generalizing c with
  | nil => rfl
  | cons p u ih =>
    refine (ih (p.op.effect c) fun q hq => h q (List.mem_cons_of_mem _ hq)).trans ?_
    exact List.map_congr_left fun y hy => read_onStage (List.mem_range.1 hy) (h p List.mem_cons_self) c.stage

/-- Effects are the same where they are so for each part of the core. -/
theorem Core.played_congr {u v : List Pend} (h : ∀ r, 3 ≤ r → r ≤ 6 → u.filter (Pend.ranks r) = v.filter (Pend.ranks r)) (d : Core) :
    d.played u = d.played v := by
  have hne {p : Pend} {r : Nat} (hp : Pend.ranks r p = false) : p.op.rank ≠ r := of_decide_eq_false hp
  have hgs (w : List Pend) := foldl_filter_of_fixed (fun t p => p.op.onGs t) (Pend.ranks 3) (l := w)
    (fun p _ hp => Micro.onGs_of_rank (hne hp)) d.gs
  have hrecs (w : List Pend) := foldl_filter_of_fixed (fun t p => p.op.onRecs t) (Pend.ranks 4) (l := w)
    (fun p _ hp => Micro.onRecs_of_rank (hne hp)) d.recs
  have hstage (w : List Pend) := foldl_filter_of_fixed (fun t p => p.op.onStage t) (Pend.ranks 5) (l := w)
    (fun p _ hp => Micro.onStage_of_rank (hne hp)) d.stage
  have hacc (w : List Pend) := foldl_filter_of_fixed (fun t p => p.op.onAcc t) (Pend.ranks 6) (l := w)
    (fun p _ hp => Micro.onAcc_of_rank (hne hp)) d.acc
  rw [Core.played_eq u, Core.played_eq v, ← hgs u, ← hgs v, ← hrecs u, ← hrecs v, ← hstage u, ← hstage v, ← hacc u, ← hacc v,
    h 3 (by decide) (by decide), h 4 (by decide) (by decide), h 5 (by decide) (by decide), h 6 (by decide) (by decide)]

/-! The row `i` of a drain, micro-operation by micro-operation (03:R78, R79). -/
variable (c : Core) (d : HdrainD)

/-- The conversion of a drain with the parameters of its issue cycle. -/
def Core.drainCv (c : Core) (d : HdrainD) : Conv := drainConv d (c.sget d.sp) (c.sget d.sq) (signedOf 16 (c.sget d.se).toNat)

/-- Row `i` after the element-wise stage, after the derivative stage, and converted. -/
def Core.drainEwOut (i : Nat) : List DVal := c.ewVals d i (c.drainVals d ((d.accRow + i) % 512))
def Core.drainOut (i : Nat) : List DVal := c.derivVals d (c.c0Of d.arr) i (c.drainEwOut d i)
def Core.drainRes (i : Nat) : List Nat × List Nat × Amax :=
  drainRow (c.drainCv d) (genAfter (c.gen (c.bound d.arr).val) i) (c.drainOut d i)

/-- The micro-operation of rank `r` of row `i`, its cycle counted from the row's own, and its phase. -/
def Core.drainOp (r i : Nat) : Micro :=
  let sp := c.sget d.sp
  let sq := c.sget d.sq
  let grid := signedOf 16 (c.sget d.se).toNat
  let c0 := c.c0Of d.arr
  let g := c.bound d.arr
  match r with
  | 0 => .drainRead d sp sq grid c0 g i ((d.accRow + i) % 512)
  | 1 => .drainEw d sp sq grid c0 g i (c.drainVals d ((d.accRow + i) % 512))
  | 2 => .drainDer d sp sq grid c0 g i (c.drainEwOut d i)
  | 3 => .drainCvt d sp sq grid g i (c.drainOut d i)
  | 4 => .recAdd d.arr (c.drainRes d i).2.2
  | _ => .store (drainRuns d i (c.drainRes d i).1 (c.drainRes d i).2.1)
def drainLat : Nat → Nat
  | 0 => 0
  | 1 => 1
  | 2 => 3
  | 3 => 5
  | 4 => 6
  | _ => 9
def drainPhase (d : HdrainD) : Nat → Nat
  | 3 => phDraw + d.arr
  | 4 => phRecAdd
  | 5 => phLand
  | _ => phRead
def Core.drainPend (r i : Nat) : Pend := c.dated (drainPhase d r) (i + drainLat r, c.drainOp d r i)

/-- The ranks of what the micro-operation of a rank puts in flight, and the rank that puts a rank in flight. -/
def drainNext : Nat → List Nat
  | 0 => [1]
  | 1 => [2]
  | 2 => [3]
  | 3 => [4, 5]
  | _ => []
def drainPrev (r : Nat) : Nat := min (r - 1) 3

theorem drainNext_filter {r q : Nat} (hr : r ≤ 5) (hq : q ≤ 5) (hpos : 1 ≤ q) :
    (drainNext r).filter (fun x => decide (x = q)) = if r = drainPrev q then [q] else [] := by
  interval_cases r <;> interval_cases q <;> decide

theorem Core.drainPend_rank {r : Nat} (hr : r ≤ 5) (i : Nat) : (c.drainPend d r i).op.rank = r := by
  interval_cases r <;> rfl

theorem Core.drainPend_le (r : Nat) {i j : Nat} (h : i ≤ j) : (c.drainPend d r i).le (c.drainPend d r j) :=
  c.dated_le _ (Nat.add_le_add_right h _)

theorem drainPhase_lt {d : HdrainD} (ha : d.arr < 2) (r : Nat) : drainPhase d r < 8 := by
  unfold drainPhase
  split <;> simp only [phDraw, phRecAdd, phLand, phRead] <;> omega

theorem Core.spawn_drainPend {d : HdrainD} (ha : d.arr < 2) {r : Nat} (hr : r ≤ 5) (i : Nat) :
    c.spawn (c.drainPend d r i) = (drainNext r).map fun q => c.drainPend d q i := by
  have hat (q lat ph : Nat) (op : Micro) : (c.drainPend d q i).after lat ph op = c.dated ph (i + drainLat q + lat, op) :=
    c.dated_after (drainPhase_lt ha q) ..
  interval_cases r
  · exact congrArg (fun p => [p]) (hat 0 ..)
  · exact congrArg (fun p => [p]) (hat 1 ..)
  · exact congrArg (fun p => [p]) (hat 2 ..)
  · exact congrArg₂ (fun p q => [p, q]) (hat 3 ..) (hat 3 ..)
  · rfl
  · rfl

end
/-! A drain's trace: the micro-operations of each rank, row by row. -/
section
variable {c : Core} {d : HdrainD} {tr : List Pend}

theorem Core.inFlight_drainRows (c : Core) (d : HdrainD) : c.inFlight (drainRows c d) = (List.range d.rows).map (c.drainPend d 0) := by
  have hs : (drainRows c d).Pairwise (fun v w => v.1 ≤ w.1) := pairwise_range_map _ _ fun i j hij => hij.le
  rw [c.inFlight_of_sorted hs, drainRows, List.map_map]
  rfl

theorem Core.accesses_drainRows (c : Core) (d : HdrainD) : Accesses (c.inFlight (drainRows c d)) :=
  c.accesses_inFlight fun w hw => by
    obtain ⟨i, -, rfl⟩ := List.mem_map.1 hw
    exact ⟨rfl, trivial⟩

/-- The micro-operations of a drain. -/
theorem Core.Trace.mem_drain (ht : c.Trace (c.inFlight (drainRows c d)) tr) (ha : d.arr < 2) :
    ∀ p ∈ tr, ∃ r ≤ 5, ∃ i < d.rows, p = c.drainPend d r i := by
  refine ht.forall_mem (fun p hp q hq => ?_) fun p hp => ?_
  · obtain ⟨r, hr, i, hi, rfl⟩ := hp
    rw [c.spawn_drainPend ha hr] at hq
    obtain ⟨x, hx, rfl⟩ := List.mem_map.1 hq
    refine ⟨x, ?_, i, hi, rfl⟩
    have hall : ∀ r ≤ 5, ∀ x ∈ drainNext r, x ≤ 5 := by decide
    exact hall r hr x hx
  · rw [c.inFlight_drainRows] at hp
    obtain ⟨i, hi, rfl⟩ := List.mem_map.1 hp
    exact ⟨0, by decide, i, List.mem_range.1 hi, rfl⟩

theorem Core.filter_map_drainPend (c : Core) (d : HdrainD) {rs : List Nat} (h : ∀ r ∈ rs, r ≤ 5) (q i : Nat) :
    (rs.map fun r => c.drainPend d r i).filter (Pend.ranks q) = (rs.filter fun r => decide (r = q)).map fun r => c.drainPend d r i := by
  rw [List.filter_map]
  refine congrArg _ (List.filter_congr fun r hr => ?_)
  rw [Function.comp_apply, Pend.ranks, c.drainPend_rank d (h r hr)]

theorem Core.filter_spawn_drainPend (ha : d.arr < 2) {r q : Nat} (hr : r ≤ 5) (hq : q ≤ 5) (hpos : 1 ≤ q) (i : Nat) :
    (c.spawn (c.drainPend d r i)).filter (Pend.ranks q) = if r = drainPrev q then [c.drainPend d q i] else [] := by
  have hall : ∀ r ≤ 5, ∀ x ∈ drainNext r, x ≤ 5 := by decide
  rw [c.spawn_drainPend ha hr, c.filter_map_drainPend d (hall r hr), drainNext_filter hr hq hpos]
  split <;> rfl

/-- The micro-operations of each rank take effect row by row. -/
theorem Core.Trace.filter_drain (ht : c.Trace (c.inFlight (drainRows c d)) tr) (ha : d.arr < 2) (r : Nat) (hr : r ≤ 5) :
    tr.filter (Pend.ranks r) = (List.range d.rows).map (c.drainPend d r) := by
  have hacc := c.accesses_drainRows d
  induction r using Nat.strongRecOn with
  | _ r ih =>
    rcases Nat.eq_zero_or_pos r with rfl | hpos
    · rw [ht.filter_accesses hacc, c.inFlight_drainRows]
    · have hlt : drainPrev r < r := by
        unfold drainPrev
        omega
      refine ht.filter_next hacc.sorted (ih _ hlt (by omega)) (List.filter_eq_nil_iff.2 fun p hp hpr => ?_) (fun p hp hpr => ?_) ?_ ?_
      · have := hacc.rank p hp
        have := of_decide_eq_true hpr
        omega
      · obtain ⟨q, hq, i, -, rfl⟩ := ht.mem_drain ha p hp
        rw [c.filter_spawn_drainPend ha hq hr hpos, if_neg]
        rw [← c.drainPend_rank d hq i]
        exact of_decide_eq_false hpr
      · rw [List.flatMap_map, List.filter_flatMap, List.map_eq_flatMap]
        refine congrArg (List.flatMap · (List.range d.rows)) (funext fun i => ?_)
        rw [c.filter_spawn_drainPend ha (by omega) hr hpos, if_pos rfl]
      · exact List.pairwise_map.2 (List.pairwise_lt_range.imp fun hij => c.drainPend_le d r hij.le)

theorem eq_take_of_map_range_eq_append {α : Type} {f : Nat → α} {n : Nat} {u v : List α} {x : α}
    (h : (List.range n).map f = u ++ x :: v) : u = (List.range u.length).map f ∧ x = f u.length := by
  have hlen : u.length < n := by
    have := congrArg List.length h
    simp only [List.length_map, List.length_range, List.length_append, List.length_cons] at this
    omega
  refine ⟨?_, ?_⟩
  · have htake := congrArg (List.take u.length) h
    rw [List.take_left, ← List.map_take, List.take_range, Nat.min_eq_left hlen.le] at htake
    exact htake.symm
  · have hget := congrArg (·[u.length]?) h
    simpa [hlen] using hget.symm

theorem Core.drainPend_inj {r i j : Nat} (h : c.drainPend d r i = c.drainPend d r j) : i = j := by
  have hkey := congrArg Pend.key h
  simp only [Core.drainPend, Core.dated, keyAt] at hkey
  omega

/-- Before row `i` of a drain is converted, those before it have been, and none else. -/
theorem Core.Trace.drawn_before (ht : c.Trace (c.inFlight (drainRows c d)) tr) (ha : d.arr < 2) {u v : List Pend} {i : Nat}
    (h : tr = u ++ c.drainPend d 3 i :: v) : u.filter (Pend.ranks 3) = (List.range i).map (c.drainPend d 3) := by
  have hall := ht.filter_drain ha 3 (by decide)
  rw [h, List.filter_append, List.filter_cons_of_pos rfl] at hall
  obtain ⟨hu, hi⟩ := eq_take_of_map_range_eq_append hall.symm
  rw [c.drainPend_inj hi]
  exact hu

theorem Core.gen_after_draws (h : (c.drainCv d).rnd = .stoch) (i : Nat) (gs : Tab Gen) :
    Tab.get {} (((List.range i).map (c.drainPend d 3)).foldl (fun t p => p.op.onGs t) gs) (c.bound d.arr).val
      = genAfter (Tab.get {} gs (c.bound d.arr).val) i := by
  induction i with
  | zero => rfl
  | succ i ih =>
    rw [List.range_succ, List.map_append, List.foldl_append, genAfter_succ, ← ih]
    have hset (t : Tab Gen) : (c.drainPend d 3 i).op.onGs t
        = Tab.set {} t (c.bound d.arr).val (Tab.get {} t (c.bound d.arr).val).next := if_pos h
    rw [List.map_cons, List.map_nil, List.foldl_cons, List.foldl_nil, hset, Tab.get_set_same]

theorem Core.gen_played (h : (c.drainCv d).rnd = .stoch) {u : List Pend} {i : Nat}
    (hu : u.filter (Pend.ranks 3) = (List.range i).map (c.drainPend d 3)) :
    (c.played u).gen (c.bound d.arr).val = genAfter (c.gen (c.bound d.arr).val) i := by
  have hgs := foldl_filter_of_fixed (fun t p => p.op.onGs t) (Pend.ranks 3) (l := u)
    (fun p _ hp => Micro.onGs_of_rank (of_decide_eq_false hp)) c.gs
  rw [Core.gen, Core.played_eq]
  simp only [← hgs, hu]
  exact Core.gen_after_draws h i c.gs

/-- What a drain stores of its row `i`. -/
def Core.drainStores (c : Core) (d : HdrainD) (i : Nat) : List (Nat × List Byte) :=
  drainRuns d i (c.drainRes d i).1 (c.drainRes d i).2.1

/-- A drain whose rows may be read and stored, and whose stores do not meet what a later row reads. -/
structure Core.DrainOk (c : Core) (d : HdrainD) : Prop where
  arr : d.arr < 2
  stores : ∀ i < d.rows, ∀ r ∈ c.drainStores d i, c.mayAccess r.1 r.2.length = true
  ew : d.ewOp ≠ 0 → ∀ i < d.rows, c.mayAccess (ewSpan d i).1 (ewSpan d i).2 = true
  deriv : d.deriv ≠ 0 → ∀ i < d.rows, c.mayAccess (derivSpan d i).1 (derivSpan d i).2 = true
  ewApart : d.ewOp ≠ 0 → ∀ i < d.rows, ∀ j < d.rows, i < j → ∀ r ∈ c.drainStores d i, Apart (r.1, r.2.length) (ewSpan d j)
  derivApart : d.deriv ≠ 0 → ∀ i < d.rows, ∀ j < d.rows, i < j → ∀ r ∈ c.drainStores d i, Apart (r.1, r.2.length) (derivSpan d j)

/-- The stores that have been made by a row's later stages are those of rows before it. -/
theorem Core.Trace.stage_before (ht : c.Trace (c.inFlight (drainRows c d)) tr) (ha : d.arr < 2) {u v : List Pend} {r j : Nat}
    (h : tr = u ++ c.drainPend d r j :: v) (hr : drainPhase d r < 8) (hlat : drainLat r < 9) {sp : Nat × Nat}
    (hsp : ∀ i < d.rows, i < j → ∀ r ∈ c.drainStores d i, Apart (r.1, r.2.length) sp) :
    (c.played u).stageBytes sp.1 sp.2 = c.stageBytes sp.1 sp.2 := by
  refine c.played_stageBytes fun p hp runs hop => ?_
  have hsorted := ht.sorted_of_accesses (c.accesses_drainRows d)
  rw [h] at hsorted
  have hkey := (List.pairwise_append.1 hsorted).2.2 p hp _ List.mem_cons_self
  obtain ⟨q, hq, i, hi, rfl⟩ := ht.mem_drain ha p (by simp [h, hp])
  have hrank := c.drainPend_rank d hq i
  rw [hop] at hrank
  obtain rfl : 5 = q := hrank
  obtain rfl : c.drainStores d i = runs := Micro.store.inj hop
  refine hsp i hi ?_
  simp only [Core.drainPend, Core.dated, keyAt, drainLat, drainPhase, phLand] at hkey hlat hr
  omega

theorem Core.Trace.playable_drain (ht : c.Trace (c.inFlight (drainRows c d)) tr) (hd : c.DrainOk d) : c.Playable tr := by
  obtain ⟨ha, hstores, hew, hderiv, hewApart, hderivApart⟩ := hd
  refine ⟨fun u p v h => ?_, fun p hp => ?_⟩
  · obtain ⟨r, hr, i, hi, rfl⟩ := ht.mem_drain ha p (by simp [h])
    have hctx := c.played_ctxs u
    have hacc : (c.played u).acc = c.acc := c.played_acc fun q hq => by
      obtain ⟨x, hx, j, -, rfl⟩ := ht.mem_drain ha q (by simp [h, hq])
      rw [c.drainPend_rank d hx]
      omega
    interval_cases r
    · exact plays_drainRead hacc
    · exact plays_drainEw hctx (fun h0 => ht.stage_before ha h (drainPhase_lt ha 1) (by decide) fun j hj hji => hewApart h0 j hj i hi hji)
        fun h0 => hew h0 i hi
    · exact plays_drainDer hctx (fun h0 => ht.stage_before ha h (drainPhase_lt ha 2) (by decide) fun j hj hji => hderivApart h0 j hj i hi hji)
        fun h0 => hderiv h0 i hi
    · exact plays_drainCvt fun h0 => Core.gen_played h0 (ht.drawn_before ha h)
    · exact plays_recAdd
    · exact plays_store hctx (hstores i hi)
  · obtain ⟨r, hr, i, -, rfl⟩ := ht.mem_drain ha p hp
    refine Micro.isLoad_of_rank ?_
    rw [c.drainPend_rank d hr]
    omega

/-- The cycle after a row's own from which the effect of a rank is seen. -/
def drainSeen : Nat → Nat
  | 3 => 6
  | 4 => 7
  | _ => 9

/-- The effects of a drain: of each row its draw, its record and its stores, with the cycle from which each is seen. -/
def Core.drainEffects (c : Core) (d : HdrainD) : List (Nat × Pend) :=
  (List.range d.rows).flatMap fun i => [3, 4, 5].map fun r => (i + drainSeen r, c.drainPend d r i)

theorem Core.mem_drainEffects {w : Nat × Pend} (h : w ∈ c.drainEffects d) :
    ∃ i r, (r = 3 ∨ r = 4 ∨ r = 5) ∧ w = (i + drainSeen r, c.drainPend d r i) := by
  obtain ⟨i, -, hw⟩ := List.mem_flatMap.1 h
  obtain ⟨r, hr, rfl⟩ := List.mem_map.1 hw
  exact ⟨i, r, by simpa using hr, rfl⟩

theorem Core.drainEffects_filter (c : Core) (d : HdrainD) {r : Nat} (hr : 3 ≤ r) (hr' : r ≤ 5) :
    ((c.drainEffects d).map Prod.snd).filter (Pend.ranks r) = (List.range d.rows).map (c.drainPend d r) := by
  have hone : [3, 4, 5].filter (fun x => decide (x = r)) = [r] := by interval_cases r <;> rfl
  rw [Core.drainEffects, List.map_flatMap, List.filter_flatMap, List.map_eq_flatMap]
  refine congrArg (List.flatMap · (List.range d.rows)) (funext fun i => ?_)
  rw [List.map_map]
  exact (c.filter_map_drainPend d (by decide) r i).trans (by rw [hone]; rfl)

variable {s : State} {k : Fin 128} {b : Nat} {l : Launch} {desc : BitVec 12} {ba bb : Fin 32}

theorem hdrain_does (hq : s.Quiet k b l) (hop : (s.core k.val).hdrainOp desc.toNat ba bb = some d) (hd : (s.core k.val).DrainOk d) :
    s.Does (.hdrain (at1 k) desc ba bb) k id (seenFrom ((s.core k.val).drainEffects d)) := by
  obtain ⟨tr, ht⟩ := Core.Trace.exists_trace (s.core k.val) ((s.core k.val).inFlight (drainRows (s.core k.val) d))
  refine State.does_trace hq (i := .hdrain (at1 k) desc ba bb) rfl rfl rfl (ps := drainRows (s.core k.val) d)
    (fun as => Core.doHdrain_laters (c := (s.core k.val).withAccs as) hop) ((s.core k.val).accesses_drainRows d) ht
    (ht.playable_drain hd) (fun w hw n => ?_) fun K x => Core.played_congr (fun r hr hr' => ?_) x
  · obtain ⟨i, r, hr, rfl⟩ := Core.mem_drainEffects hw
    have := hd.arr
    rcases hr with rfl | rfl | rfl <;>
      simp only [Core.drainPend, Core.dated, keyAt, drainLat, drainPhase, drainSeen, phDraw, phRecAdd, phLand, phRead] <;> omega
  · rw [List.filter_comm, List.filter_comm (l := tr)]
    refine congrArg _ ?_
    rcases Nat.lt_or_eq_of_le hr' with hlt | rfl
    · rw [Core.drainEffects_filter _ d hr (by omega), ht.filter_drain hd.arr r (by omega)]
    · have hnone {p : Pend} {r i : Nat} (hr : r ≤ 5) (hp : p = (s.core k.val).drainPend d r i) : ¬Pend.ranks 6 p = true := fun h6 => by
        have hrank := of_decide_eq_true h6
        rw [hp, Core.drainPend_rank _ d hr] at hrank
        omega
      rw [List.filter_eq_nil_iff.2 fun p hp => ?_, List.filter_eq_nil_iff.2 fun p hp => ?_]
      · obtain ⟨r, hr, i, -, hp⟩ := ht.mem_drain hd.arr p hp
        exact hnone hr hp
      · obtain ⟨w, hw, rfl⟩ := List.mem_map.1 hp
        obtain ⟨i, r, hr, rfl⟩ := Core.mem_drainEffects hw
        exact hnone (by omega) rfl

end
/-! The results of each instruction in the terms of the rules. -/
section

/-- The words of a restored row, as sixteen at a time come from stage memory. -/
theorem Core.restoredWords_eq (c : Core) (d : HsaveD) : (c.restoredWords d).map (fun w => (w.1, w.2.effect))
    = (List.range d.rows).flatMap fun i => (List.range 8).flatMap fun q => (saveArrs d).map fun am =>
      (8 * i + 10, fun c' => c'.setWords am.1 ((d.firstRow + i) % 512) (16 * q) ((List.range 16).map fun j =>
        BitVec.ofNat 64 (leNat (c.stageBytes (saveAddr d am.2 i + q * 128 + 8 * j) 8)))) := by
  simp only [Core.restoredWords, List.map_flatMap, List.map_map]
  refine List.flatMap_congr fun i _ => List.flatMap_congr fun q _ => List.map_congr_left fun am _ => ?_
  refine congrArg (fun ws => (8 * i + 10, fun c' : Core => c'.setWords am.1 ((d.firstRow + i) % 512) (16 * q) ws)) ?_
  refine List.map_congr_left fun j hj => congrArg (BitVec.ofNat 64) ?_
  have hlt := List.mem_range.1 hj
  rw [saveAddr_add, c.fieldAt_stageBytes _ (by omega)]

theorem Core.savedRows_eq (c : Core) (d : HsaveD) : (c.savedRows d).map (fun w => (w.1, w.2.effect))
    = (List.range d.rows).flatMap fun i => (saveArrs d).map fun am =>
      (8 * i + 10, putStage [(saveAddr d am.2 i, (c.rowWords am.1 ((d.firstRow + i) % 512)).flatMap (fun w => leBytes 8 w.toNat))]) := by
  simp only [Core.savedRows, List.map_flatMap, List.map_map, putStage_eq_effect]
  rfl

theorem Core.mulSums_eq (c : Core) (d : HmulD) (dbl : Prop) [Decidable dbl] : (c.mulSums d dbl).map (fun w => (w.1, w.2.effect))
    = (List.range d.rows).flatMap fun j => (arrsOf d.arrs).map fun a => (if dbl then 2 * j + 15 else j + 14, fun c' : Core =>
      c'.setWords a ((d.accRow + j) % 512) 0 (List.zipWith (fun w r => accStep w d.accMode r)
        (c'.rowWords a ((d.accRow + j) % 512)) (c.rowSums d a (c.mulInput d j)))) := by
  simp only [Core.mulSums, List.map_flatMap, List.map_map]
  rfl

theorem Core.drainEffects_eq (c : Core) (d : HdrainD) : seenFrom (c.drainEffects d) = (List.range d.rows).flatMap fun i =>
    [(i + 6, drawn (c.drainCv d).rnd (c.bound d.arr)), (i + 7, enterRec d.arr (c.drainRes d i).2.2),
      (i + 9, putStage (c.drainStores d i))] := by
  rw [seenFrom, Core.drainEffects, List.map_flatMap]
  refine congrArg (List.flatMap · (List.range d.rows)) (funext fun i => ?_)
  rw [putStage_eq_effect, enterRec_eq_effect, Core.drainCv, drawn_eq_effect d _ _ _ _ i (c.drainOut d i)]
  rfl

/-- The element-wise stage as chapter 3 gives it (03:R79). -/
theorem Core.drainEwOut_eq (c : Core) (d : HdrainD) (i : Nat) (h : d.ewOp ≤ 2) : c.drainEwOut d i =
    if d.ewOp = 0 then c.drainVals d ((d.accRow + i) % 512) else
      List.zipWith (fun (x : DVal) o => drainVal (if d.ewOp = 1 then x.v.add o else x.v.mul o) x.sticky)
        (c.drainVals d ((d.accRow + i) % 512))
        ((unpackBits (fmtOf d.ewFmt).width 128 (c.stageBytes (ewSpan d i).1 (ewSpan d i).2)).map (fmtOf d.ewFmt).decode) := by
  unfold Core.drainEwOut Core.ewVals
  generalize d.ewOp = op at h ⊢
  interval_cases op <;> rfl

theorem Core.drainEwOut_length (c : Core) (d : HdrainD) (i : Nat) : (c.drainEwOut d i).length = 128 := by
  unfold Core.drainEwOut Core.ewVals
  split <;> simp [Core.drainVals, Core.rowWords, unpackBits]

/-- The factor of a value kind, by its number (04:R92, R94). -/
theorem derivFactor_eq (kind : Nat) (a c0 : Val) : derivFactor kind a c0 =
    if kind = 5 then (if a.isFin then a.mul ((Val.fin false 1 0).add a.neg) else .nan)
    else if kind = 6 then (if a.isFin then (Val.fin false 1 0).add (a.mul a).neg else .nan)
    else if kind = 9 then a.mul c0 else a := by
  unfold derivFactor
  split
  · cases a <;> rfl
  · cases a <;> rfl
  · rfl
  · next h5 h6 h9 => rw [if_neg h5, if_neg h6, if_neg h9]

/-- The derivative stage on an element, by its number (04:R92, R94). -/
theorem drainDeriv_eq (kind : Nat) (x : DVal) (b0 b1 : Bool) (a c0 : Val) : drainDeriv kind x b0 b1 a c0 =
    if kind = 0 then x
    else if kind = 1 then (if b0 then x else ⟨.fin false 0 0, x.sticky⟩)
    else if kind = 2 then (if b0 then drainVal (x.v.mul c0) x.sticky else ⟨.fin false 0 0, x.sticky⟩)
    else if kind = 3 then (if b0 then x else drainVal (x.v.mul c0) x.sticky)
    else if kind = 4 then (if b0 && b1 then drainVal (x.v.mul c0) x.sticky else ⟨.fin false 0 0, x.sticky⟩)
    else drainVal (x.v.mul (derivFactor kind a c0)) x.sticky := by
  match kind with
  | 0 | 1 | 2 | 3 | 4 => rfl
  | n + 5 => simp [drainDeriv]

theorem Core.drainOut_eq (c : Core) (d : HdrainD) (i : Nat) : c.drainOut d i =
    ((List.range 128).zip (c.drainEwOut d i)).map fun nx =>
      let kept := derivElem d.deriv (c.stageBytes (derivSpan d i).1 (derivSpan d i).2) nx.1
      drainDeriv d.deriv nx.2 kept.1 kept.2.1 kept.2.2 (Fmt.fp32.decode (c.c0Of d.arr).toNat) := by
  unfold Core.drainOut Core.derivVals
  split
  · next h =>
    rw [h]
    exact (List.map_snd_zip (by rw [c.drainEwOut_length, List.length_range])).symm
  · rfl

end

/-- Settles O18: the trace of an instruction's row accesses (`Core.Trace`) gives its results (`State.does_trace`), for HMUL,
PRELOAD, HSAVE and HRESTORE as each row access gives landings (`State.does_landings`), and for HDRAIN as each row goes through
its stages behind the rows before it (`hdrain_does`). -/
theorem hmulAndHdrainRows : Obligations.HmulAndHdrainRows := by
  unfold Obligations.HmulAndHdrainRows
  refine ⟨fun s k b l hq desc ba bb d => ?_, fun s k b l hq desc ba bb => ⟨fun d hop => ?_, fun d hop => ⟨fun hm => ?_, fun hm => ?_⟩⟩,
    fun s k b l hq desc ba bb d => ?_⟩
  · intro c hop hok hm
    have h := hmul_does hq hop hok hm
    rw [Core.mulSums_eq] at h
    exact h.group
  · intro f src word hm hpos
    have h := preload_does hq hop hm hpos
    rw [Core.preWords, List.map_map] at h
    exact h
  · have h := hsave_does hq hop hm
    rw [Core.savedRows_eq] at h
    exact h
  · have h := hrestore_does hq hop hm
    rw [Core.restoredWords_eq] at h
    exact h
  · intro c cv c0 gen read ewF ewAt ew derAt kept factor zero times der out row runs apart hop ha hew hm hap
    have hout (i : Nat) : out i = c.drainOut d i := by
      simp only [Core.drainOut_eq, drainDeriv_eq, derivFactor_eq, Core.drainEwOut_eq c d i hew]
      rfl
    have hrow : row = c.drainRes d := funext fun i => by
      simp only [row, hout]
      rfl
    have hruns : runs = c.drainStores d := funext fun i => by
      simp only [runs, hrow]
      rfl
    rw [hruns] at hm hap
    have h := hdrain_does hq hop ⟨ha, fun i hi => (hm i hi).1, fun h0 i hi => (hm i hi).2.1 h0, fun h0 i hi => (hm i hi).2.2 h0,
      fun h0 i hi j hj hij r hr => (hap i hi j hj hij r hr).1 h0, fun h0 i hi j hj hij r hr => (hap i hi j hj hij r hr).2 h0⟩
    rw [Core.drainEffects_eq] at h
    simp only [hruns, hrow]
    exact h
end Sys2Proof.Machine

/-! What a vector instruction leaves in flight lands in its destinations (05:R102 to R105): landings of registers, each with the
cycle from which it is seen. -/
namespace Sys2Proof.Machine

section

/-- A micro-operation that an instruction leaves in flight, `lat` cycles after its issue in phase `ph`, with its effect. -/
structure Landing where
  lat : Nat
  ph : Nat
  op : Micro
  f : Core → Core

/-- The micro-operation is a leaf with that effect. -/
structure Landing.Ok (w : Landing) : Prop where
  ph : w.ph < 8
  leaf : w.op.leaf = true
  eq : ∀ e p c, p.op = w.op → Core.micro e p c = w.f c

/-- The effect, with the cycle after issue from which an instruction sees it (06:R134). -/
def Landing.seen (w : Landing) : Nat × (Core → Core) := (if w.ph < phRead then w.lat else w.lat + 1, w.f)

/-- Landings come in the order of their cycles and phases. -/
def Landing.le (v w : Landing) : Prop := v.lat * 8 + v.ph ≤ w.lat * 8 + w.ph

/-- A landing in flight, of the instruction that issues. -/
def Landing.pend (c : Core) (w : Landing) : Pend := ⟨keyAt (c.now + w.lat) w.ph, c.seq, c.bptr, w.op⟩

/-- Landings put in flight one by one. -/
def Core.lands (c : Core) (ws : List Landing) : Core := ws.foldl (fun d w => d.later w.lat w.ph w.op) c

theorem Landing.seen_le {w : Landing} (h : w.ph < 8) (c : Core) (m : Nat) :
    w.seen.1 ≤ m + 1 ↔ (w.pend c).key < keyAt (c.now + (m + 1)) phRead := by
  have hkey : (w.pend c).key < keyAt (c.now + (m + 1)) phRead ↔ (c.now + w.lat) * 8 + w.ph < (c.now + (m + 1)) * 8 + 3 := Iff.rfl
  rw [hkey, Landing.seen]
  split
  · next hr =>
    have : w.ph < 3 := hr
    dsimp only
    omega
  · next hr =>
    have : ¬w.ph < 3 := hr
    dsimp only
    omega

/-- Landings in the order of their keys: those seen by a cycle have taken effect. -/
theorem foldl_landings (e : CEnv) (d : Core) (m : Nat) {ws : List Landing} (hok : ∀ w ∈ ws, w.Ok) (hs : ws.Pairwise Landing.le) :
    ∀ c : Core, ((ws.map (Landing.pend d)).takeWhile (fun p => decide (p.key < keyAt (d.now + (m + 1)) phRead))).foldl
        (fun c p => Core.micro e p c) c
      = ((ws.map Landing.seen).filter (fun f => decide (f.1 ≤ m + 1))).foldl (fun c f => f.2 c) c := by
  induction ws with
  | nil => exact fun _ => rfl
  | cons w ws ih =>
    intro c
    obtain ⟨hw, hws⟩ := List.pairwise_cons.1 hs
    have hseen := Landing.seen_le (hok w (by simp)).ph d m
    by_cases hk : (w.pend d).key < keyAt (d.now + (m + 1)) phRead
    · simp only [List.map_cons, List.takeWhile_cons, List.filter_cons, hk, hseen.2 hk, decide_true, if_true, List.foldl_cons]
      rw [(hok w (by simp)).eq e _ c rfl]
      exact ih (fun v hv => hok v (by simp [hv])) hws _
    · have hnone : ∀ f ∈ (w :: ws).map Landing.seen, ¬f.1 ≤ m + 1 := by
        intro f hf
        obtain ⟨v, hv, rfl⟩ := List.mem_map.1 hf
        rw [Landing.seen_le (hok v hv).ph d]
        refine fun hv' => hk ?_
        rcases List.mem_cons.1 hv with rfl | hv
        · exact hv'
        · have hle := hw v hv
          simp only [Landing.le, Landing.pend, keyAt] at hle hv' ⊢
          omega
      rw [List.filter_eq_nil_iff.2 (by simpa using hnone), List.map_cons, List.takeWhile_cons, if_neg (by simpa using hk)]
      rfl

theorem pendInsert_last (p : Pend) {fl : List Pend} (h : ∀ q ∈ fl, q.le p) : pendInsert p fl = fl ++ [p] := by
  induction fl with
  | nil => rfl
  | cons q fl ih =>
    have hq := h q (by simp)
    unfold pendInsert
    rw [if_neg (by unfold Pend.le at hq; simp; omega), ih fun r hr => h r (by simp [hr])]
    rfl

theorem pendInsert_first (p : Pend) {fl : List Pend} (h : ∀ q ∈ fl, p.key < q.key) : pendInsert p fl = p :: fl := by
  cases fl with
  | nil => rfl
  | cons q fl =>
    unfold pendInsert
    rw [if_pos (by simp [h q (by simp)])]

/-- Landings put in flight in their order stand in that order. -/
theorem Core.lands_eq {ws : List Landing} (hs : ws.Pairwise Landing.le) {c : Core} (hc : c.flight = []) :
    c.lands ws = c.withFlight (ws.map (Landing.pend c)) := by
  suffices h : ∀ fl : List Pend, (∀ p ∈ fl, ∀ w ∈ ws, p.le (w.pend c)) →
      (c.withFlight fl).lands ws = c.withFlight (fl ++ ws.map (Landing.pend c)) by
    have hnil := h [] (by simp)
    rwa [Core.withFlight_self hc] at hnil
  induction ws with
  | nil => intro fl _; simp [Core.lands]
  | cons w ws ih =>
    intro fl hfl
    obtain ⟨hw, hws⟩ := List.pairwise_cons.1 hs
    have hstep : (c.withFlight fl).later w.lat w.ph w.op = c.withFlight (fl ++ [w.pend c]) :=
      congrArg c.withFlight (pendInsert_last (w.pend c) fun p hp => hfl p hp w (by simp))
    rw [List.map_cons, List.append_cons, ← ih hws (fl ++ [w.pend c]), ← hstep]
    · rfl
    · intro p hp v hv
      rcases List.mem_append.1 hp with hp | hp
      · exact hfl p hp v (by simp [hv])
      · rw [List.mem_singleton.1 hp]
        refine Pend.le_of_key rfl ?_
        have hle := hw v hv
        simp only [Landing.le, Landing.pend, keyAt] at hle ⊢
        omega

end

/-! The instruction's effect at once, and its landings. -/
section

def Core.withGs (c : Core) (t : Tab Gen) : Core := { c with gs := t }

/-- At its issue an instruction changes generators alone. -/
def OnlyDraws (g : Core → Core) : Prop := ∀ c, ∃ t, g c = c.withGs t

theorem OnlyDraws.id : OnlyDraws id := fun c => ⟨c.gs, rfl⟩

theorem OnlyDraws.drawn (rnd : Rnd) (g : Fin 16) : OnlyDraws (drawn rnd g) := fun c => by
  unfold Sys2Proof.Machine.drawn
  split
  · exact ⟨_, rfl⟩
  · exact ⟨c.gs, rfl⟩

/-- A slot that neither waits nor branches and makes no array access. -/
structure PlainSlot (k : Fin 128) (i : Instr) : Prop where
  exec : ∀ s, exec i s = .next (s.submit i (at1 k))
  plain : plainSlot i = true
  accs : ∀ c : Core, c.accsOf i = []
  next : ∀ c : Core, c.nextOf [i] = endCount c.bptr c.loops

variable {s : State} {k : Fin 128} {b : Nat} {l : Launch} {i : Instr} {g : Core → Core}

theorem PlainSlot.noteAccs (hi : PlainSlot k i) {c : Core} (h : c.accs = []) : c.noteAccs [i] = c := by
  rw [Core.noteAccs_one h, hi.accs, List.map_nil]
  unfold Core.withAccs
  rw [← h]

/-- A slot that draws and leaves landings in flight: its results (06:R134, 05:R105). -/
theorem State.does_landings_in_order (hq : s.Quiet k b l) (hi : PlainSlot k i) (hg : OnlyDraws g) {ws : List Landing} (hok : ∀ w ∈ ws, w.Ok)
    (hs : ws.Pairwise Landing.le)
    (he : (s.core k.val).slotEffect i = (g (s.core k.val)).withFlight (ws.map (Landing.pend (s.core k.val)))) :
    s.Does i k g (ws.map Landing.seen) := by
  obtain ⟨gs, hgs⟩ := hg (s.core k.val)
  have hslot : ((s.core k.val).noteAccs [i]).slotEffect i = (g (s.core k.val)).withFlight (ws.map (Landing.pend (s.core k.val))) := by
    rw [hi.noteAccs hq.accs, he]
  obtain ⟨t, ht, hl⟩ := State.lands_leaves s k b l hq i hi.plain g (ws.map Landing.seen) (hi.next _)
    (by
      rw [hslot]
      intro p hp
      obtain ⟨w, hw, rfl⟩ := List.mem_map.1 hp
      exact (hok w hw).leaf)
    (by
      rw [hslot, hgs]
      exact ⟨hq.seg, hq.st, hq.msgs, rfl, hq.bundle, rfl⟩)
    (by rw [hslot, Core.withFlight_data])
    (by
      rw [hslot]
      exact fun e m c => foldl_landings e (s.core k.val) m hok hs c)
  exact ⟨t, (hi.exec s).trans (congrArg _ ht), hl⟩

/-- The same where the landings are put in flight in their order. -/
theorem State.does_lands (hq : s.Quiet k b l) (hi : PlainSlot k i) (hg : OnlyDraws g) {ws : List Landing} (hok : ∀ w ∈ ws, w.Ok)
    (hs : ws.Pairwise Landing.le) (he : (s.core k.val).slotEffect i = (g (s.core k.val)).lands ws) : s.Does i k g (ws.map Landing.seen) := by
  refine State.does_landings_in_order hq hi hg hok hs ?_
  obtain ⟨gs, hgs⟩ := hg (s.core k.val)
  rw [he, hgs, Core.lands_eq hs (by exact hq.flight)]
  rfl

end

/-! The landings of the vector instructions. -/
section

/-- Elements of a vector register, bits of a mask register, a scalar register. -/
def Landing.vec (lat w : Nat) (d : Fin 32) (ws : List (Nat × Nat)) : Landing :=
  ⟨lat, phLand, .vreg d (elemWrites w ws).1 (elemWrites w ws).2, putV d w ws⟩
def Landing.mask (lat : Nat) (d : Fin 8) (ws : List (Nat × Bool)) : Landing :=
  ⟨lat, phLand, .mreg d (maskWrites ws).1 (maskWrites ws).2, putM d ws⟩
def Landing.scal (lat : Nat) (d : Fin 32) (v : W32) : Landing := ⟨lat, phLand, .sreg d v, putS d v⟩
/-- VLEN; a generator's field, at the next bundle's issue (05:R124); a drain port's generator; a conversion in its record. -/
def Landing.len (n : Nat) : Landing := ⟨1, phLand, .vlen n, fun c => { c with vlen := n }⟩
def Landing.gen (g : Fin 16) (field v : Nat) : Landing :=
  ⟨1, phGen, .genSet g field v, fun c => c.setGen g.val (genSetField (c.gen g.val) field v)⟩
def Landing.bind (arr : Nat) (g : Fin 16) : Landing :=
  ⟨1, phLand, .bind arr g, fun c => if arr = 0 then { c with bind0 := g } else { c with bind1 := g }⟩
def Landing.record (lat k : Nat) (a : Amax) : Landing := ⟨lat, phRecAdd, .recAdd k a, enterRec k a⟩

theorem phLand_lt : phLand < 8 := by decide
theorem phGen_lt : phGen < 8 := by decide
theorem phRecAdd_lt : phRecAdd < 8 := by decide

/-- A landing's effect is what its micro-operation does. -/
theorem Landing.ok_of_eq {w : Landing} (hph : w.ph < 8) (hl : w.op.leaf = true)
    (h : ∀ e key sq bd c, Core.micro e ⟨key, sq, bd, w.op⟩ c = w.f c) : w.Ok where
  ph := hph
  leaf := hl
  eq := by
    rintro e ⟨key, sq, bd, _⟩ c rfl
    exact h e key sq bd c

variable (lat w : Nat)
theorem Landing.ok_vec (d : Fin 32) (ws : List (Nat × Nat)) : (Landing.vec lat w d ws).Ok :=
  ok_of_eq phLand_lt rfl fun _ _ _ _ _ => rfl
theorem Landing.ok_mask (d : Fin 8) (ws : List (Nat × Bool)) : (Landing.mask lat d ws).Ok :=
  ok_of_eq phLand_lt rfl fun _ _ _ _ _ => rfl
theorem Landing.ok_scal (d : Fin 32) (v : W32) : (Landing.scal lat d v).Ok := ok_of_eq phLand_lt rfl fun _ _ _ _ _ => rfl
theorem Landing.ok_len (n : Nat) : (Landing.len n).Ok := ok_of_eq phLand_lt rfl fun _ _ _ _ _ => rfl
theorem Landing.ok_gen (g : Fin 16) (field v : Nat) : (Landing.gen g field v).Ok := ok_of_eq phGen_lt rfl fun _ _ _ _ _ => rfl
theorem Landing.ok_bind (arr : Nat) (g : Fin 16) : (Landing.bind arr g).Ok := ok_of_eq phLand_lt rfl fun _ _ _ _ _ => rfl
theorem Landing.ok_record (k : Nat) (a : Amax) : (Landing.record lat k a).Ok := ok_of_eq phRecAdd_lt rfl fun _ _ _ _ _ => rfl

variable {lat w} {s : State} {k : Fin 128} {b : Nat} {l : Launch} {i : Instr} {g : Core → Core}

/-- An instruction with one landing. -/
theorem State.does_one (hq : s.Quiet k b l) {w : Landing} (hw : w.Ok) (hg : OnlyDraws g)
    (he : (s.core k.val).slotEffect i = (g (s.core k.val)).later w.lat w.ph w.op)
    (hi : PlainSlot k i := by exact ⟨fun _ => rfl, rfl, fun _ => rfl, fun _ => rfl⟩) : s.Does i k g [w.seen] :=
  State.does_lands hq hi hg (ws := [w]) (by simpa using hw) (List.pairwise_singleton ..) he

/-- An instruction with two landings. -/
theorem State.does_two (hq : s.Quiet k b l) {v w : Landing} (hv : v.Ok) (hw : w.Ok) (hle : v.le w) (hg : OnlyDraws g)
    (he : (s.core k.val).slotEffect i = ((g (s.core k.val)).later v.lat v.ph v.op).later w.lat w.ph w.op)
    (hi : PlainSlot k i := by exact ⟨fun _ => rfl, rfl, fun _ => rfl, fun _ => rfl⟩) : s.Does i k g [v.seen, w.seen] :=
  State.does_lands hq hi hg (ws := [v, w]) (by simp [hv, hw]) (by simp [hle]) he

/-- An instruction that writes elements of one vector register. -/
theorem State.does_vec (hq : s.Quiet k b l) (hg : OnlyDraws g) {d : Fin 32} {ws : List (Nat × Nat)}
    (he : (s.core k.val).slotEffect i = (g (s.core k.val)).landV lat w d ws)
    (hi : PlainSlot k i := by exact ⟨fun _ => rfl, rfl, fun _ => rfl, fun _ => rfl⟩) : s.Does i k g [(lat, putV d w ws)] :=
  State.does_one hq (Landing.ok_vec lat w d ws) hg he hi

/-- An instruction that writes bits of one mask register. -/
theorem State.does_mask (hq : s.Quiet k b l) (hg : OnlyDraws g) {d : Fin 8} {ws : List (Nat × Bool)}
    (he : (s.core k.val).slotEffect i = (g (s.core k.val)).landM lat d ws)
    (hi : PlainSlot k i := by exact ⟨fun _ => rfl, rfl, fun _ => rfl, fun _ => rfl⟩) : s.Does i k g [(lat, putM d ws)] :=
  State.does_one hq (Landing.ok_mask lat d ws) hg he hi

/-- An instruction that writes one scalar register. -/
theorem State.does_scal (hq : s.Quiet k b l) (hg : OnlyDraws g) {d : Fin 32} {v : W32}
    (he : (s.core k.val).slotEffect i = (g (s.core k.val)).landS lat d v)
    (hi : PlainSlot k i := by exact ⟨fun _ => rfl, rfl, fun _ => rfl, fun _ => rfl⟩) : s.Does i k g [(lat, putS d v)] :=
  State.does_one hq (Landing.ok_scal lat d v) hg he hi

end

end Sys2Proof.Machine

/-! Elements and mask bits written and read back (05:R102 to R104). -/
namespace Sys2Proof.Machine
section

theorem foldl_or_pair {α : Type} {n : Nat} (f h : α → BitVec n) (ws : List α) : ∀ a b : BitVec n,
    ws.foldl (fun acc p => (acc.1 ||| f p, acc.2 ||| h p)) (a, b)
      = (ws.foldl (fun a p => a ||| f p) a, ws.foldl (fun b p => b ||| h p) b) := by
  induction ws with
  | nil => exact fun _ _ => rfl
  | cons p ws ih => exact fun a b => ih _ _

theorem getLsbD_foldl_or {α : Type} {n : Nat} (f : α → BitVec n) (j : Nat) (ws : List α) : ∀ a : BitVec n,
    (ws.foldl (fun a p => a ||| f p) a).getLsbD j = (a.getLsbD j || ws.any fun p => (f p).getLsbD j) := by
  induction ws with
  | nil => simp
  | cons p ws ih =>
    intro a
    rw [List.foldl_cons, ih, BitVec.getLsbD_or, List.any_cons, Bool.or_assoc]

theorem getLsbD_none {n : Nat} (j : Nat) : BitVec.getLsbD (0 : BitVec n) j = false := BitVec.getLsbD_zero

theorem getLsbD_mergeBits {n : Nat} (old m v : BitVec n) (j : Nat) :
    (mergeBits old m v).getLsbD j = if m.getLsbD j then v.getLsbD j else old.getLsbD j := by
  by_cases hj : j < n
  · cases hm : m.getLsbD j <;>
      simp only [mergeBits, BitVec.getLsbD_or, BitVec.getLsbD_and, BitVec.getLsbD_not, hm, hj] <;> simp
  · simp [mergeBits, BitVec.getLsbD_of_ge _ j (Nat.le_of_not_lt hj)]

theorem bits_pos (w : VW) : 0 < w.bits := by cases w <;> decide
theorem bits_mul_lmax (w : VW) : w.bits * w.lmax = 4096 := by cases w <;> rfl

/-- A bit of a number put at an element's place. -/
theorem getLsbD_shifted {w : Nat} (hw : 0 < w) {x i j : Nat} (hj : j < 4096) :
    (BitVec.ofNat 4096 (x % 2 ^ w * 2 ^ (w * i))).getLsbD j = (decide (j / w = i) && x.testBit (j % w)) := by
  rw [BitVec.getLsbD_ofNat, decide_eq_true hj, Bool.true_and, Nat.testBit_mul_two_pow, Nat.testBit_mod_two_pow]
  have hdm := Nat.div_add_mod j w
  have hlt := Nat.mod_lt j hw
  by_cases he : j / w = i
  · subst he
    have hsub : j - w * (j / w) = j % w := by omega
    simp [hsub, hlt, Nat.mul_div_le]
  · have hout : ¬(w * i ≤ j ∧ j - w * i < w) := fun ⟨h₁, h₂⟩ =>
      he (Nat.div_eq_of_lt_le (by rwa [Nat.mul_comm]) (by rw [Nat.mul_comm, Nat.mul_succ]; omega))
    by_cases h₁ : w * i ≤ j
    · simp [he, mt (And.intro h₁) hout]
    · simp [he, h₁]

variable {w : VW} {ws : List (Nat × Nat)} {j : Nat}

/-- The bits that element writes reach, and their values. -/
theorem getLsbD_elemWrites (hj : j < 4096) :
    (elemWrites w.bits ws).1.getLsbD j = (ws.any fun p => decide (j / w.bits = p.1)) ∧
    (elemWrites w.bits ws).2.getLsbD j = (ws.any fun p => decide (j / w.bits = p.1) && p.2.testBit (j % w.bits)) := by
  have hones : ∀ i, (2 ^ w.bits - 1) * 2 ^ (w.bits * i) = (2 ^ w.bits - 1) % 2 ^ w.bits * 2 ^ (w.bits * i) := fun i => by
    rw [Nat.mod_eq_of_lt (Nat.sub_lt (Nat.two_pow_pos _) Nat.one_pos)]
  rw [elemWrites, foldl_or_pair, getLsbD_foldl_or, getLsbD_foldl_or]
  simp only [hones, getLsbD_shifted (bits_pos w) hj, Nat.testBit_two_pow_sub_one, Nat.mod_lt j (bits_pos w), decide_true,
    Bool.and_true, getLsbD_none, Bool.false_or, and_self]

/-- A bit of an element. -/
theorem testBit_elemAt (r : VReg) (i t : Nat) :
    (elemAt w.bits r i).testBit t = (decide (t < w.bits) && r.getLsbD (w.bits * i + t)) := by
  rw [elemAt, Nat.testBit_mod_two_pow, Nat.testBit_div_two_pow, Nat.add_comm t, BitVec.getLsbD]

theorem any_key_of_nodup {α : Type} {f : α → Bool} {ws : List (Nat × α)} (hn : (ws.map Prod.fst).Nodup) {p : Nat × α} (hp : p ∈ ws) :
    (ws.any fun q => decide (p.1 = q.1) && f q.2) = f p.2 := by
  have huniq : ∀ q ∈ ws, q.1 = p.1 → q = p := fun q hq h => List.inj_on_of_nodup_map hn hq hp h
  rw [Bool.eq_iff_iff, List.any_eq_true]
  constructor
  · rintro ⟨q, hq, h⟩
    obtain ⟨hk, hf⟩ := Bool.and_eq_true_iff.1 h
    rwa [huniq q hq (of_decide_eq_true hk).symm] at hf
  · exact fun h => ⟨p, hp, by simp [h]⟩

/-- Elements that are written read back, and the others keep their values. -/
theorem elemAt_mergeBits (old : VReg) (hn : (ws.map Prod.fst).Nodup) (hb : ∀ p ∈ ws, p.1 < w.lmax ∧ p.2 < 2 ^ w.bits) :
    (∀ p ∈ ws, elemAt w.bits (mergeBits old (elemWrites w.bits ws).1 (elemWrites w.bits ws).2) p.1 = p.2) ∧
    ∀ i, i < w.lmax → (∀ p ∈ ws, p.1 ≠ i) →
      elemAt w.bits (mergeBits old (elemWrites w.bits ws).1 (elemWrites w.bits ws).2) i = elemAt w.bits old i := by
  have hplace : ∀ i t, i < w.lmax → t < w.bits →
      w.bits * i + t < 4096 ∧ (w.bits * i + t) / w.bits = i ∧ (w.bits * i + t) % w.bits = t := by
    intro i t hi ht
    refine ⟨?_, ?_, ?_⟩
    · have hmul := Nat.mul_le_mul_left w.bits (Nat.succ_le_of_lt hi)
      rw [bits_mul_lmax w, Nat.mul_succ] at hmul
      omega
    · rw [Nat.mul_add_div (bits_pos w), Nat.div_eq_of_lt ht, Nat.add_zero]
    · rw [Nat.mul_add_mod, Nat.mod_eq_of_lt ht]
  refine ⟨fun p hp => ?_, fun i hi hout => ?_⟩ <;> refine Nat.eq_of_testBit_eq fun t => ?_
  · rw [testBit_elemAt, getLsbD_mergeBits]
    by_cases ht : t < w.bits
    · obtain ⟨hj, hdiv, hmod⟩ := hplace p.1 t (hb p hp).1 ht
      obtain ⟨hm, hv⟩ := getLsbD_elemWrites (ws := ws) hj
      have hin : (ws.any fun q => decide (p.1 = q.1)) = true := List.any_eq_true.2 ⟨p, hp, by simp⟩
      rw [hm, hv, hdiv, hmod, any_key_of_nodup (f := fun x => x.testBit t) hn hp, hin]
      simp [ht]
    · rw [decide_eq_false ht, Bool.false_and, Nat.testBit_lt_two_pow]
      exact (hb p hp).2.trans_le (Nat.pow_le_pow_right Nat.two_pos (Nat.le_of_not_lt ht))
  · rw [testBit_elemAt, testBit_elemAt, getLsbD_mergeBits]
    by_cases ht : t < w.bits
    · obtain ⟨hj, hdiv, -⟩ := hplace i t hi ht
      have hnone : (ws.any fun q => decide (i = q.1)) = false := List.any_eq_false.2 fun q hq => by simpa using (hout q hq).symm
      rw [(getLsbD_elemWrites hj).1, hdiv, hnone]
      rfl
    · simp [ht]

/-- Mask bits that are written read back, and the others keep their values. -/
theorem getLsbD_mergeBits_maskWrites (old : MReg) {ws : List (Nat × Bool)} (hn : (ws.map Prod.fst).Nodup) (hb : ∀ p ∈ ws, p.1 < 512) :
    (∀ p ∈ ws, (mergeBits old (maskWrites ws).1 (maskWrites ws).2).getLsbD p.1 = p.2) ∧
    ∀ i, (∀ p ∈ ws, p.1 ≠ i) → (mergeBits old (maskWrites ws).1 (maskWrites ws).2).getLsbD i = old.getLsbD i := by
  have hbit : ∀ j i, (BitVec.ofNat 512 (2 ^ i)).getLsbD j = (decide (j < 512) && decide (j = i)) := fun j i => by
    rw [BitVec.getLsbD_ofNat, Nat.testBit_two_pow]
    simp [eq_comm]
  have hval : ∀ j (p : Nat × Bool), (BitVec.ofNat 512 (if p.2 then 2 ^ p.1 else 0)).getLsbD j
      = (decide (j < 512) && (decide (j = p.1) && p.2)) := by
    rintro j ⟨i, v⟩
    cases v
    · simp
    · simpa using hbit j i
  have hw : maskWrites ws = _ := foldl_or_pair (fun p : Nat × Bool => BitVec.ofNat 512 (2 ^ p.1))
    (fun p => BitVec.ofNat 512 (if p.2 then 2 ^ p.1 else 0)) ws 0 0
  refine ⟨fun p hp => ?_, fun i hout => ?_⟩ <;>
    simp only [getLsbD_mergeBits, hw, getLsbD_foldl_or, getLsbD_none, Bool.false_or, hbit, hval]
  · have hin : (ws.any fun q => decide (p.1 = q.1)) = true := List.any_eq_true.2 ⟨p, hp, by simp⟩
    simp only [hb p hp, decide_true, Bool.true_and, hin, if_true]
    exact any_key_of_nodup (f := id) hn hp
  · have hnone : (ws.any fun q => decide (i < 512) && decide (i = q.1)) = false :=
      List.any_eq_false.2 fun q hq => by simp [(hout q hq).symm]
    simp [hnone]
end

section
variable {s : State} {k : Fin 128} {b : Nat} {l : Launch}

/-- One element, if it is active. -/
theorem filter_eq_singleton {as : List Nat} (hn : as.Nodup) (x : Nat) :
    as.filter (· == x) = if x ∈ as then [x] else [] := by
  split
  · next h => rw [List.filter_beq, List.count_eq_one_of_mem hn h, List.replicate_one]
  · next h => rw [List.filter_beq, List.count_eq_zero_of_not_mem h, List.replicate_zero]

theorem Core.active_nodup (c : Core) (e : VEn) : (c.active e).Nodup := List.nodup_range.filter _

/-- Settles O9: each instruction's one landing, and what its writes make of the register. -/
theorem vectorMoveAndMaskResults : Obligations.VectorMoveAndMaskResults := by
  unfold Obligations.VectorMoveAndMaskResults
  refine ⟨?_, ?_, fun w old ws hn hb => elemAt_mergeBits old hn hb, fun old ws hn hb => getLsbD_mergeBits_maskWrites old hn hb⟩
  · intro s k b l hq e d a x w n c W S
    refine ⟨State.does_vec hq .id rfl, State.does_vec hq .id rfl, State.does_vec hq .id rfl, State.does_vec hq .id ?_,
      State.does_scal hq .id rfl, State.does_one hq (Landing.ok_len _) .id rfl, State.does_one hq (Landing.ok_len _) .id rfl⟩
    have hws : (if x.val ∈ c.active e then [(x.val, S % 2 ^ W)] else [])
        = ((c.active e).filter (· == x.val)).map (fun i => (i, S % 2 ^ W)) := by
      rw [filter_eq_singleton (c.active_nodup e)]
      split <;> rfl
    rw [hws]
    rfl
  · intro s k b l hq e d ma mb sd a y f cd c P Q
    exact ⟨State.does_mask hq .id rfl, State.does_mask hq .id rfl, State.does_mask hq .id rfl, State.does_mask hq .id rfl,
      State.does_mask hq .id rfl, State.does_scal hq .id rfl⟩
end
end Sys2Proof.Machine

/-! Two's-complement elements (02:R41, R55; 05:R112): bounds, saturation and wrapping, shifts. -/
namespace Sys2Proof.Machine
section

theorem lowBits_cast (n : Nat) (i : Int) : (lowBits n i : Int) = i % (2 ^ n : Nat) :=
  Int.toNat_of_nonneg (Int.emod_nonneg i (by positivity))

theorem lowBits_lt (n : Nat) (i : Int) : lowBits n i < 2 ^ n := by
  have h := Int.emod_lt_of_pos i (b := (2 ^ n : Nat)) (by positivity)
  rw [← lowBits_cast] at h
  exact_mod_cast h

/-- The two's-complement reading lies in its range. -/
theorem signedOf_range {n : Nat} (hn : 0 < n) (v : Nat) :
    -((2 ^ (n - 1) : Nat) : Int) ≤ signedOf n v ∧ signedOf n v < (2 ^ (n - 1) : Nat) := by
  have hlt := Nat.mod_lt v (Nat.two_pow_pos n)
  have hpow : 2 ^ n = 2 * 2 ^ (n - 1) := by rw [← pow_succ', Nat.sub_add_cancel hn]
  simp only [signedOf]
  split <;> omega

/-- The low bits of an integer in the range read back as the integer. -/
theorem signedOf_lowBits {n : Nat} (hn : 0 < n) {i : Int} (hl : -((2 ^ (n - 1) : Nat) : Int) ≤ i) (hu : i < (2 ^ (n - 1) : Nat)) :
    signedOf n (lowBits n i) = i := by
  have hpow : 2 ^ n = 2 * 2 ^ (n - 1) := by rw [← pow_succ', Nat.sub_add_cancel hn]
  have hcast := lowBits_cast n i
  have hlt := lowBits_lt n i
  simp only [signedOf, Nat.mod_eq_of_lt hlt]
  rcases lt_or_ge i 0 with hneg | hpos
  · have hmod : i % (2 ^ n : Nat) = i + (2 ^ n : Nat) := by
      rw [← Int.add_emod_right, Int.emod_eq_of_lt] <;> omega
    rw [if_neg (by omega)]
    omega
  · rw [Int.emod_eq_of_lt hpos (by omega)] at hcast
    rw [if_pos (by omega)]
    omega

theorem intOut_lt (n : Nat) (ovf : Bool) (x : Int) : intOut n ovf x < 2 ^ n := by
  unfold intOut
  split <;> exact lowBits_lt _ _

/-- OVF = 0 saturates to the ends of the range. -/
theorem signedOf_intOut {n : Nat} (hn : 0 < n) (x : Int) : signedOf n (intOut n false x)
    = max (-((2 ^ (n - 1) : Nat) : Int)) (min (((2 ^ (n - 1) : Nat) : Int) - 1) x) := by
  have hpos := Nat.two_pow_pos (n - 1)
  exact signedOf_lowBits hn (by omega) (by omega)

/-- OVF = 1 keeps the value modulo 2^n. -/
theorem intOut_wraps (n : Nat) (x : Int) : ((intOut n true x : Int) - x) % (2 ^ n : Nat) = 0 := by
  simp only [intOut, if_true, lowBits_cast]
  exact Int.emod_eq_zero_of_dvd ⟨-(x / (2 ^ n : Nat)), by have := Int.mul_ediv_add_emod x (2 ^ n : Nat); linarith⟩

/-! A count of the width or more shifts every bit out (05:R112). -/
theorem shlN_eq (w a n : Nat) : shlN w a n = a * 2 ^ n % 2 ^ w := by
  unfold shlN
  split
  · next h => exact (Nat.mod_eq_zero_of_dvd ((pow_dvd_pow 2 h).mul_left a)).symm
  · rfl

theorem shrN_eq {w a : Nat} (ha : a < 2 ^ w) (n : Nat) : shrN w a n = a / 2 ^ n := by
  unfold shrN
  split
  · next h => exact (Nat.div_eq_of_lt (ha.trans_le (Nat.pow_le_pow_right Nat.two_pos h))).symm
  · rfl

theorem sraN_eq {w : Nat} (hw : 0 < w) (a n : Nat) : sraN w a n = lowBits w (signedOf w a / (2 ^ n : Nat)) := by
  rcases Nat.le_total n w with h | h
  · rw [sraN, Nat.min_eq_left h]
  · have hfloor : ∀ m, w ≤ m → signedOf w a / (2 ^ m : Nat) = if signedOf w a < 0 then -1 else 0 := by
      intro m hm
      have hle : 2 ^ (w - 1) ≤ 2 ^ m := Nat.pow_le_pow_right Nat.two_pos (by omega)
      obtain ⟨hl, hu⟩ := signedOf_range hw a
      split
      · next hneg => exact Int.ediv_eq_neg_one_of_neg_of_le hneg (by omega)
      · exact Int.ediv_eq_zero_of_lt (by omega) (by omega)
    rw [sraN, Nat.min_eq_right h, hfloor w le_rfl, hfloor n h]

variable (c : Core) (e : VEn)

theorem elemAt_lt (w : Nat) (r : VReg) (i : Nat) : elemAt w r i < 2 ^ w := Nat.mod_lt _ (Nat.two_pow_pos w)

/-- Settles O10: each instruction's one landing, with the arithmetic of its element. -/
theorem integerElementResults : Obligations.IntegerElementResults := by
  unfold Obligations.IntegerElementResults
  refine ⟨?_, ?_, fun w x => ⟨signedOf_intOut (bits_pos w) x, intOut_wraps _ x, intOut_lt _ _ x, intOut_lt _ _ x⟩⟩
  · intro s k b l hq e d a y c W A B
    have hshl : ∀ i, A i * 2 ^ B i % 2 ^ W = shlN W (A i) (B i) := fun i => (shlN_eq ..).symm
    have hshr : ∀ i, A i / 2 ^ B i = shrN W (A i) (B i) := fun i => (shrN_eq (elemAt_lt ..) _).symm
    have hsra : ∀ i, lowBits W (signedOf W (A i) / (2 ^ B i : Nat)) = sraN W (A i) (B i) := fun i => (sraN_eq (bits_pos _) ..).symm
    simp only [hshl, hshr, hsra]
    exact ⟨State.does_vec hq .id rfl, State.does_vec hq .id rfl, State.does_vec hq .id rfl, State.does_vec hq .id rfl,
      State.does_vec hq .id rfl, State.does_vec hq .id rfl, State.does_vec hq .id rfl⟩
  · intro s k b l hq e d a y o c W A B
    exact ⟨State.does_vec hq .id rfl, State.does_vec hq .id rfl, State.does_vec hq .id rfl, State.does_vec hq .id rfl,
      State.does_vec hq .id rfl⟩

/-- Settles O12: a NaN operand decides the first branch, and the zeros of each format are compared by their codes. -/
theorem minimumAndMaximumRule : Obligations.MinimumAndMaximumRule := by
  unfold Obligations.MinimumAndMaximumRule
  intro f a b hf _ _
  refine ⟨fun h => ?_, ?_⟩
  · rcases h with h | h
    · simp [Fmt.minCode, Fmt.maxOf, h]
    · cases ha : f.decode a <;> simp [Fmt.minCode, Fmt.maxOf, ha, h]
  · rcases hf with rfl | rfl | rfl <;> decide

end

section
/-! Lists of elements by their places. -/

theorem range_zip_map {α : Type} (xs : List α) (d : α) {β : Type} (f : α → β) :
    (List.range xs.length).zip (xs.map f) = (List.range xs.length).map fun j => (j, f (xs.getD j d)) := by
  refine List.ext_getElem (by simp) fun j h₁ h₂ => ?_
  have hj : j < xs.length := by simpa using h₂
  simp [hj]

theorem zip_map_range {α : Type} (xs : List α) (d : α) {β : Type} (f : Nat → β) :
    xs.zip ((List.range xs.length).map f) = (List.range xs.length).map fun j => (xs.getD j d, f j) := by
  refine List.ext_getElem (by simp) fun j h₁ h₂ => ?_
  have hj : j < xs.length := by simpa using h₂
  simp [hj]

/-- Settles O14: the packed and the spread elements are written as pairs of a place and a value; the count lands with them. -/
theorem vectorRoutingResults : Obligations.VectorRoutingResults := by
  unfold Obligations.VectorRoutingResults
  intro s k b l hq e d x y sc m c W as n cnt
  refine ⟨State.does_vec hq .id rfl, ?_, ?_, ?_⟩
  · rw [← range_zip_map as 0 (fun i => c.el e x i)]
    exact State.does_two hq (Landing.ok_vec ..) (Landing.ok_scal ..) le_rfl .id rfl
  · rw [← range_zip_map as 0 (fun i => i % 2 ^ W)]
    exact State.does_two hq (Landing.ok_vec ..) (Landing.ok_scal ..) le_rfl .id rfl
  · rw [← zip_map_range as 0 (fun j => c.el e x j)]
    exact State.does_vec hq .id rfl

/-- Settles O2: every table of the reset state is empty, so that each entry is its default. -/
theorem resetLeaves : Obligations.ResetLeaves := by
  unfold Obligations.ResetLeaves
  exact ⟨rfl, rfl, rfl, fun _ => ⟨rfl, rfl, rfl⟩, fun _ => rfl,
    fun _ => ⟨rfl, rfl, rfl, rfl, rfl, rfl, rfl, rfl, rfl, rfl, rfl, rfl, rfl, rfl, rfl, fun _ => rfl⟩⟩
end
end Sys2Proof.Machine

namespace Sys2Proof.Machine
/-! Stores to stage memory, record reads and record updates of vector instructions (05:R114, R116; 02:R57, R58). -/
section
variable {s : State} {k : Fin 128} {b : Nat} {l : Launch} {i : Instr} {g : Core → Core}

/-- A store in flight alone takes effect: its trace is itself. -/
theorem Core.playable_store (c : Core) {key sq bd : Nat} {runs : List (Nat × List Byte)}
    (hm : ∀ r ∈ runs, c.mayAccess r.1 r.2.length = true) : c.Playable [⟨key, sq, bd, .store runs⟩] where
  plays u p v h := by
    cases u with
    | nil =>
      obtain ⟨rfl, -⟩ := List.cons.inj h
      exact plays_store rfl hm
    | cons q u => exact absurd (List.cons.inj h).2 (by simp)
  noLoad p hp := by
    rw [List.mem_singleton.1 hp]
    rfl

/-- A slot whose store lands `lat` cycles after its issue, in bytes whose banks no stream holds: its result (05:R114, R105). -/
theorem State.does_store (hq : s.Quiet k b l) {lat : Nat} {runs : List (Nat × List Byte)} (hm : ∀ r ∈ runs, (s.core k.val).mayAccess r.1 r.2.length = true)
    (he : (s.core k.val).slotEffect i = (s.core k.val).later lat phLand (.store runs))
    (hi : PlainSlot k i := by exact ⟨fun _ => rfl, rfl, fun _ => rfl, fun _ => rfl⟩) : s.Does i k id [(lat, putStage runs)] := by
  let p : Pend := ⟨keyAt ((s.core k.val).now + lat) phLand, (s.core k.val).seq, (s.core k.val).bptr, .store runs⟩
  have hpl : (s.core k.val).Playable [p] := Core.playable_store _ hm
  have hslot : ((s.core k.val).noteAccs [i]).slotEffect i = (s.core k.val).withFlight [p] := by
    rw [hi.noteAccs hq.accs, he]
    exact Core.later_quiet hq.flight ..
  obtain ⟨hstep, hnow, hbptr, hloops, hscyc⟩ : (s.core k.val).Upto [p] 0 ((s.core k.val).stepped i) ∧
      Core.SamePlace ((s.core k.val).placed (endCount (s.core k.val).bptr (s.core k.val).loops)) ((s.core k.val).stepped i) := by
    rw [Core.stepped, hslot, hi.next]
    exact ⟨⟨Core.placed_data (c := (s.core k.val).withFlight [p]) hq.bundle _, .cons .nil⟩, rfl, rfl, rfl, rfl⟩
  obtain ⟨hend, hplace⟩ := hstep.passTo hpl ((s.box b).env l k.val) 1 phGen (Nat.zero_le _)
  have hsub := State.submit_quiet s k b l hq i hi.plain (by rw [hslot]; exact hq.seg) (by rw [hslot]; exact hq.st)
    (hend.st.trans hq.st) (hend.msgs.trans hq.msgs)
  refine ⟨_, (hi.exec s).trans (congrArg _ hsub), ⟨by rw [State.setCore_core_same], ?_, ?_⟩, fun e n => ?_⟩
  · rw [State.setCore_core_same]
    exact Prod.ext (hplace.bptr.trans hbptr) (hplace.loops.trans hloops)
  · rw [State.setCore_core_same]
    exact hplace.scyc.trans hscyc
  · have hnext : (Core.endCycle ((s.box b).env l k.val) ((s.core k.val).stepped i)).now = (s.core k.val).now + 1 :=
      hplace.now.trans (congrArg (· + 1) hnow)
    have hstart : ((s.core k.val).stepped i).now = (s.core k.val).now := hnow
    have hadv := (hend.passTo hpl e n phRead (by
      change _ ≤ keyAt ((Core.endCycle ((s.box b).env l k.val) ((s.core k.val).stepped i)).now + n) _
      rw [hnext, hstart]
      simp only [keyAt, phGen, phRead]
      omega)).1.data
    change _ = ((s.core k.val).played ([p].takeWhile fun q => decide (q.key <
      keyAt ((Core.endCycle ((s.box b).env l k.val) ((s.core k.val).stepped i)).now + n) phRead))).data at hadv
    rw [hnext] at hadv
    rw [State.setCore_core_same]
    refine hadv.trans (congrArg Core.data ?_)
    have hseen : lat ≤ n + 1 ↔ p.key < keyAt ((s.core k.val).now + 1 + n) phRead := by
      simp only [p, keyAt, phLand, phRead]
      omega
    by_cases hn : lat ≤ n + 1
    · simp [hn, hseen.1 hn, Core.played, putStage_eq_effect, p]
    · simp [hn, mt hseen.2 hn, Core.played]

/-- The read of a record: HAMAX's and VAMAX's (02:R58). -/
theorem State.does_recRead (hq : s.Quiet k b l) {r dst : Nat} {clr : Bool} (hm : (s.core k.val).mayAccess dst 32 = true)
    (he : (s.core k.val).slotEffect i = (s.core k.val).later 0 phRecRead (.recRead r clr dst))
    (hi : PlainSlot k i := by exact ⟨fun _ => rfl, rfl, fun _ => rfl, fun _ => rfl⟩) :
    s.Does i k id [(1, clearRec r clr), (2, putStage [(dst, recordBytes ((s.core k.val).record r))])] := by
  have hslot : ((s.core k.val).noteAccs [i]).slotEffect i
      = (s.core k.val).withFlight [⟨keyAt (s.core k.val).now phRecRead, (s.core k.val).seq, (s.core k.val).bptr, .recRead r clr dst⟩] := by
    rw [hi.noteAccs hq.accs, he]
    exact Core.later_quiet hq.flight ..
  refine State.does_relay hq (hi.exec s) hi.plain (hi.next _) hslot rfl rfl rfl hq.st hq.seg hq.msgs hq.bundle
    (Core.relay_recRead clr hm) fun n d => ?_
  rw [relayAt, if_neg (by simp only [keyAt, phRead, phRecRead]; omega)]
  cases n with
  | zero =>
    rw [if_pos (by simp only [keyAt, phRead, phLand]; omega)]
    rfl
  | succ m =>
    rw [if_neg (by simp only [keyAt, phRead, phLand]; omega)]
    simp

/-- A slot that puts its landings in flight, and then one that is due before them. -/
theorem State.does_lands_first (hq : s.Quiet k b l) (hg : OnlyDraws g) {w : Landing} {ws : List Landing} (hok : ∀ v ∈ w :: ws, v.Ok)
    (hs : ws.Pairwise Landing.le) (hlt : ∀ v ∈ ws, w.lat * 8 + w.ph < v.lat * 8 + v.ph)
    (he : (s.core k.val).slotEffect i = ((g (s.core k.val)).lands ws).later w.lat w.ph w.op)
    (hi : PlainSlot k i := by exact ⟨fun _ => rfl, rfl, fun _ => rfl, fun _ => rfl⟩) : s.Does i k g ((w :: ws).map Landing.seen) := by
  refine State.does_landings_in_order hq hi hg hok (List.pairwise_cons.2 ⟨fun v hv => (hlt v hv).le, hs⟩) ?_
  obtain ⟨gs, hgs⟩ := hg (s.core k.val)
  rw [he, hgs, Core.lands_eq hs (by exact hq.flight)]
  refine congrArg ((s.core k.val).withGs gs).withFlight (pendInsert_first (w.pend (s.core k.val)) fun q hq => ?_)
  obtain ⟨v, hv, rfl⟩ := List.mem_map.1 hq
  have hv := hlt v hv
  have hnow : ((s.core k.val).withGs gs).now = (s.core k.val).now := rfl
  simp only [Landing.pend, keyAt, hnow]
  omega

end

section
variable {s : State} {k : Fin 128} {b : Nat} {l : Launch}

/-- Landings of one cycle are in order. -/
theorem Landing.sorted_of_const {ws : List Landing} {lat ph : Nat} (h : ∀ w ∈ ws, w.lat = lat ∧ w.ph = ph) : ws.Pairwise Landing.le :=
  List.pairwise_of_forall_mem_list fun v hv w hw => by simp [Landing.le, h v hv, h w hw]

theorem Core.foldl_lands {α : Type} (f : α → Landing) (as : List α) (c : Core) :
    as.foldl (fun d a => d.later (f a).lat (f a).ph (f a).op) c = c.lands (as.map f) := by
  rw [Core.lands, List.foldl_map]

/-- Settles O16: a load has its landings, of registers or a mask, and a store its store, where every byte may be accessed. -/
theorem vectorMemoryResults : Obligations.VectorMemoryResults := by
  unfold Obligations.VectorMemoryResults
  intro s k b l hq e d st nr m a col c W B act stride row
  refine ⟨fun hm => ⟨?_, ?_⟩, fun hm => ?_, fun hm => ?_, fun hm => ?_⟩
  · exact State.does_vec hq .id (if_pos (List.all_eq_true.2 hm))
  · refine State.does_store hq (fun r hr => ?_) rfl
    obtain ⟨i, hi, rfl⟩ := List.mem_map.1 hr
    rw [leBytes_length]
    exact hm i hi
  · have hdo := State.does_lands hq (i := .vldt (at1 k) e d a st col nr) ⟨fun _ => rfl, rfl, fun _ => rfl, fun _ => rfl⟩ .id
      (ws := (List.range (nr.val + 1)).map fun r => .vec (nr.val + 1 + 4) W (Fin.ofNat 32 (d.val + r))
        (act.map fun i => (i, leNat (c.stageBytes (row i r) B))))
      (fun w hw => by
        obtain ⟨r, -, rfl⟩ := List.mem_map.1 hw
        exact Landing.ok_vec ..)
      (Landing.sorted_of_const (lat := nr.val + 1 + 4) (ph := phLand) fun w hw => by
        obtain ⟨r, -, rfl⟩ := List.mem_map.1 hw
        exact ⟨rfl, rfl⟩)
      (by
        rw [← Core.foldl_lands]
        exact if_pos (List.all_eq_true.2 hm))
    rw [List.map_map] at hdo
    exact hdo
  · exact State.does_mask hq .id (if_pos (List.all_eq_true.2 hm))
  · refine State.does_store hq (fun r hr => ?_) rfl
    rw [List.mem_singleton.1 hr, leBytes_length]
    exact hm

/-- Settles O13: the draw at issue and one landing each; where a record is entered too (VCVT, VADAMW), its landing is put in flight last
and comes first; VAMAX is a record's read. -/
theorem vectorFloatResults : Obligations.VectorFloatResults := by
  unfold Obligations.VectorFloatResults
  refine ⟨?_, ?_⟩
  · intro s k b l hq e d a y z v f g c W D A B Y Z out G
    have hG : OnlyDraws G := .drawn g.rnd g.gs
    exact ⟨State.does_vec hq hG rfl, State.does_vec hq hG rfl, State.does_vec hq hG rfl, State.does_vec hq hG rfl,
      State.does_vec hq .id rfl, State.does_vec hq .id rfl, State.does_vec hq .id rfl, State.does_vec hq .id rfl,
      State.does_vec hq hG rfl, State.does_vec hq hG rfl, State.does_vec hq hG rfl, State.does_vec hq hG rfl,
      State.does_vec hq hG rfl, State.does_vec hq hG rfl⟩
  · intro s k b l hq e o p rc dst clr c
    refine ⟨?_, ?_, fun hm => ?_⟩
    · intro ws wd act grid cv row
      refine State.does_lands_first hq (.drawn o.rnd o.gs) (w := .record 3 (2 + o.rc.val) row.2.2)
        (ws := [.vec 4 wd o.vd ((act.map (fun i => o.offD.val * 128 + i)).zip row.1)]) ?_ ?_ ?_ rfl
      · simp [Landing.ok_record, Landing.ok_vec]
      · exact List.pairwise_singleton ..
      · simp [Landing.record, Landing.vec, phRecAdd, phLand]
    · intro act sc g el r total
      obtain ⟨va, vb, vc, vd, sb, f, rndm, satc, gs, rc', skipnf⟩ := p
      have htotal : total = (act.map fun i => (i, r i)).foldl (fun (a : Amax) q =>
          (⟨max a.amax q.2.ra.amax, a.nan + q.2.ra.nan, a.inf + q.2.ra.inf, a.sat + q.2.ra.sat, a.sticky + q.2.ra.sticky⟩ : Amax))
          Amax.zero := by
        rw [List.foldl_map]
      have hmap : ∀ (h : AdamOut → Nat), act.map (fun i => (i, h (r i))) = (act.map fun i => (i, r i)).map fun q => (q.1, h q.2) :=
        fun h => by rw [List.map_map]; rfl
      rw [htotal, hmap AdamOut.theta, hmap AdamOut.moments]
      cases f with
      | none =>
        refine State.does_lands_first hq (.drawn rndm gs) (w := .record 23 (2 + rc'.val) _)
          (ws := [.vec 24 32 va _, .vec 24 32 vc _]) ?_ ?_ ?_ rfl
        · simp [Landing.ok_record, Landing.ok_vec]
        · simp [Landing.le, Landing.vec]
        · simp [Landing.record, Landing.vec, phRecAdd, phLand]
      | some f =>
        have hcopy := hmap fun x => x.copy.getD 0
        dsimp only
        rw [hcopy]
        refine State.does_lands_first hq (.drawn rndm gs) (w := .record 23 (2 + rc'.val) _)
          (ws := [.vec 24 32 va _, .vec 24 32 vc _, .vec 24 f.width vd _]) ?_ ?_ ?_ rfl
        · simp [Landing.ok_record, Landing.ok_vec]
        · simp [Landing.le, Landing.vec]
        · simp [Landing.record, Landing.vec, phRecAdd, phLand]
    · exact State.does_recRead hq hm rfl
end
end Sys2Proof.Machine

/-! The order of values (05:R109, R110, R113, R119): the place of a value among the rational numbers, with −Inf below and +Inf
above them. -/
namespace Sys2Proof
open Machine
section

/-- The number of a finite value. -/
def finNum (s : Bool) (n : Nat) (e : Int) : ℚ := (if s then -1 else 1) * (n : ℚ) * 2 ^ e

/-- The place of a value that is not NaN. -/
def Val.place : Val → WithBot (WithTop ℚ)
  | .nan => ⊥
  | .inf s => if s then ⊥ else ((⊤ : WithTop ℚ) : WithBot (WithTop ℚ))
  | .fin s n e => ((finNum s n e : WithTop ℚ) : WithBot (WithTop ℚ))

theorem shiftLeft_mul_zpow (n : Nat) {e g : Int} (h : g ≤ e) : ((n <<< (e - g).toNat : Nat) : ℚ) * 2 ^ g = n * 2 ^ e := by
  have he : e = (e - g).toNat + g := by omega
  rw [Nat.shiftLeft_eq, Nat.cast_mul, Nat.cast_pow, Nat.cast_ofNat, mul_assoc]
  conv_rhs => rw [he]
  rw [zpow_add₀ two_ne_zero, zpow_natCast]

theorem signedAt_mul_zpow (s : Bool) (n : Nat) {e g : Int} (h : g ≤ e) : (signedAt s n e g : ℚ) * 2 ^ g = finNum s n e := by
  have hn := shiftLeft_mul_zpow n h
  cases s
  · change (((n <<< (e - g).toNat : Nat) : Int) : ℚ) * 2 ^ g = _
    rw [Int.cast_natCast, hn]
    simp [finNum]
  · change ((-((n <<< (e - g).toNat : Nat) : Int) : Int) : ℚ) * 2 ^ g = _
    rw [Int.cast_neg, Int.cast_natCast, neg_mul, hn]
    simp [finNum]

/-- The comparison of two values that are not NaN is that of their places. -/
theorem Val.cmp_eq {x y : Val} (hx : x ≠ .nan) (hy : y ≠ .nan) :
    x.cmp y = if x.place < y.place then -1 else if x.place = y.place then 0 else 1 := by
  cases x with
  | nan => exact absurd rfl hx
  | inf s =>
    cases y with
    | nan => exact absurd rfl hy
    | inf t => cases s <;> cases t <;> simp [Val.cmp, Val.place]
    | fin t m f => cases s <;> simp [Val.cmp, Val.place]
  | fin s n e =>
    cases y with
    | nan => exact absurd rfl hy
    | inf t => cases t <;> simp [Val.cmp, Val.place]
    | fin t m f =>
      have hpos : (0 : ℚ) < 2 ^ min e f := by positivity
      have hx := signedAt_mul_zpow s n (min_le_left e f)
      have hy := signedAt_mul_zpow t m (min_le_right e f)
      have hlt : signedAt s n e (min e f) < signedAt t m f (min e f) ↔ finNum s n e < finNum t m f := by
        rw [← hx, ← hy, mul_lt_mul_iff_left₀ hpos, Int.cast_lt]
      have heq : signedAt s n e (min e f) = signedAt t m f (min e f) ↔ finNum s n e = finNum t m f := by
        rw [← hx, ← hy, mul_left_inj' hpos.ne', Int.cast_inj]
      simp only [Val.cmp, Val.place, WithBot.coe_lt_coe, WithTop.coe_lt_coe, WithBot.coe_inj, WithTop.coe_inj, hlt, heq]

variable {x y z : Val}

theorem Val.cmp_lt_iff (hx : x ≠ .nan) (hy : y ≠ .nan) : x.cmp y < 0 ↔ x.place < y.place := by
  rw [Val.cmp_eq hx hy]
  split
  · simpa
  · next h => split <;> simpa using not_lt.1 h

theorem Val.cmp_eq_iff (hx : x ≠ .nan) (hy : y ≠ .nan) : x.cmp y = 0 ↔ x.place = y.place := by
  rw [Val.cmp_eq hx hy]
  split
  · next h => simpa using h.ne
  · split <;> simpa

theorem Val.cmp_gt_iff (hx : x ≠ .nan) (hy : y ≠ .nan) : 0 < x.cmp y ↔ y.place < x.place := by
  rw [Val.cmp_eq hx hy]
  split
  · next h => simpa using h.le
  · next h =>
    split
    · next he => simp [he]
    · next he => simpa using lt_of_le_of_ne (not_lt.1 h) (Ne.symm he)

theorem Val.cmp_le_iff (hx : x ≠ .nan) (hy : y ≠ .nan) : x.cmp y ≤ 0 ↔ x.place ≤ y.place := by
  rw [← not_lt, Val.cmp_gt_iff hx hy, not_lt]

theorem Val.cmp_ge_iff (hx : x ≠ .nan) (hy : y ≠ .nan) : 0 ≤ x.cmp y ↔ y.place ≤ x.place := by
  rw [← not_lt, Val.cmp_lt_iff hx hy, not_lt]

theorem Val.isZero_iff : x.isZero = true ↔ ∃ s e, x = .fin s 0 e := by
  cases x <;> simp [Val.isZero]

theorem Val.ne_nan_of_isZero (h : x.isZero = true) : x ≠ .nan := by
  rintro rfl
  exact absurd h (by decide)

/-- A value that is not NaN is a zero exactly where its place is that of 0. -/
theorem Val.isZero_iff_place (hx : x ≠ .nan) : x.isZero = true ↔ x.place = (((0 : ℚ) : WithTop ℚ) : WithBot (WithTop ℚ)) := by
  cases x with
  | nan => exact absurd rfl hx
  | inf s =>
    cases s
    · simpa [Val.isZero, Val.place] using WithBot.coe_injective.ne (WithTop.top_ne_coe (a := (0 : ℚ)))
    · simp [Val.isZero, Val.place]
  | fin s n e =>
    have h2 : (2 : ℚ) ^ e ≠ 0 := by positivity
    cases s <;> simp [Val.isZero, Val.place, finNum, h2]
end
end Sys2Proof

/-! Ranking (03:R80; 05:R119): NaN first, then the order of the values, with −0 and +0 apart. -/
namespace Sys2Proof.Machine
section
variable (f : Fmt) (up : Bool)

/-- The value of an element as rankings take it. -/
def rankVal (c : Nat) : Val := (srcOf f 0 c).v
/-- +0 is apart from −0. -/
def zeroTie (c : Nat) : Nat := if f.isFloat && (rankVal f c).isZero && !f.signOf c then 1 else 0
/-- The place of an element that is not NaN in the numeric order, with −0 below +0. -/
def rankPlace (c : Nat) : WithBot (WithTop ℚ) ×ₗ ℕ := toLex ((rankVal f c).place, zeroTie f c)
/-- The places where the lowest rank first, and where the highest does: NaN is before all others in both. -/
def rankUp (c : Nat) : WithBot (WithBot (WithTop ℚ) ×ₗ ℕ) := if rankVal f c = .nan then ⊥ else rankPlace f c
def rankDown (c : Nat) : WithTop (WithBot (WithTop ℚ) ×ₗ ℕ) := if rankVal f c = .nan then ⊤ else rankPlace f c

theorem rankKey_eq (c : Nat) : rankKey f c = if rankVal f c = .nan then none else some (rankVal f c) := by
  unfold rankKey rankVal
  obtain ⟨v, st⟩ := srcOf f 0 c
  cases v <;> rfl

/-- Of two elements that are not NaN one ranks before the other by their places. -/
theorem rankBefore_of_ne_nan {a b : Nat} (ha : rankVal f a ≠ .nan) (hb : rankVal f b ≠ .nan) :
    rankBefore f up a b = true ↔ if up then rankPlace f a < rankPlace f b else rankPlace f b < rankPlace f a := by
  have hlt := Val.cmp_lt_iff ha hb
  have hgt := Val.cmp_gt_iff ha hb
  have heq := Val.cmp_eq_iff ha hb
  have hza := Val.isZero_iff_place ha
  have hzb := Val.isZero_iff_place hb
  unfold rankBefore
  rw [rankKey_eq, rankKey_eq, if_neg ha, if_neg hb]
  simp only [rankPlace, Prod.Lex.toLex_lt_toLex]
  by_cases h0 : (rankVal f a).cmp (rankVal f b) = 0
  · have hp := heq.1 h0
    have hz : (rankVal f a).isZero = (rankVal f b).isZero := Bool.eq_iff_iff.2 (by rw [hza, hzb, hp])
    rw [if_pos h0, hp, zeroTie, zeroTie, hz]
    cases up <;> cases f.isFloat <;> cases (rankVal f b).isZero <;> cases f.signOf a <;> cases f.signOf b <;> simp
  · have hp := mt heq.2 h0
    rw [if_neg h0]
    cases up
    · simp [hgt, Ne.symm hp]
    · simp [hlt, hp]

theorem rankBefore_up (a b : Nat) : rankBefore f true a b = true ↔ rankUp f a < rankUp f b := by
  by_cases ha : rankVal f a = .nan <;> by_cases hb : rankVal f b = .nan
  · simp [rankBefore, rankKey_eq, rankUp, ha, hb]
  · simp [rankBefore, rankKey_eq, rankUp, ha, hb]
  · simp [rankBefore, rankKey_eq, rankUp, ha, hb]
  · rw [rankBefore_of_ne_nan f true ha hb, if_pos rfl, rankUp, rankUp, if_neg ha, if_neg hb, WithBot.coe_lt_coe]

theorem rankBefore_down (a b : Nat) : rankBefore f false a b = true ↔ rankDown f b < rankDown f a := by
  by_cases ha : rankVal f a = .nan <;> by_cases hb : rankVal f b = .nan
  · simp [rankBefore, rankKey_eq, rankDown, ha, hb]
  · simp [rankBefore, rankKey_eq, rankDown, ha, hb]
  · simp [rankBefore, rankKey_eq, rankDown, ha, hb]
  · rw [rankBefore_of_ne_nan f false ha hb, if_neg Bool.false_ne_true, rankDown, rankDown, if_neg ha, if_neg hb, WithTop.coe_lt_coe]

variable {f up}

/-- What ranks before an element ranks before all that the element does not rank after. -/
theorem rankBefore_of_not_after {a b c : Nat} (hab : rankBefore f up a b = true) (hcb : rankBefore f up c b = false) :
    rankBefore f up a c = true := by
  cases up
  · rw [rankBefore_down] at hab ⊢
    rw [← Bool.not_eq_true, rankBefore_down, not_lt] at hcb
    exact hcb.trans_lt hab
  · rw [rankBefore_up] at hab ⊢
    rw [← Bool.not_eq_true, rankBefore_up, not_lt] at hcb
    exact hab.trans_le hcb

theorem rankBefore_asymm {a b : Nat} (hab : rankBefore f up a b = true) : rankBefore f up b a = false := by
  rw [← Bool.not_eq_true]
  cases up
  · rw [rankBefore_down] at hab ⊢
    exact hab.not_gt
  · rw [rankBefore_up] at hab ⊢
    exact hab.not_gt

/-- One element stands before another: it ranks before it, or does not rank after it and comes first. -/
def RankedBefore (f : Fmt) (up : Bool) (a b : Nat × Nat) : Prop :=
  rankBefore f up a.2 b.2 = true ∨ (rankBefore f up b.2 a.2 = false ∧ a.1 < b.1)

variable {x : Nat × Nat} {ys : List (Nat × Nat)}

theorem rankInsert_perm : (rankInsert f up x ys).Perm (x :: ys) := by
  induction ys with
  | nil => exact .refl _
  | cons y ys ih =>
    unfold rankInsert
    split
    · exact .refl _
    · exact (ih.cons y).trans (.swap x y ys)

/-- A later element goes behind every element that does not rank after it. -/
theorem rankInsert_sorted (hs : ys.Pairwise (RankedBefore f up)) (hx : ∀ y ∈ ys, y.1 < x.1) :
    (rankInsert f up x ys).Pairwise (RankedBefore f up) := by
  induction ys with
  | nil => exact List.pairwise_singleton ..
  | cons y ys ih =>
    obtain ⟨hy, hys⟩ := List.pairwise_cons.1 hs
    unfold rankInsert
    split
    · next hxy =>
      refine List.pairwise_cons.2 ⟨fun z hz => .inl ?_, hs⟩
      rcases List.mem_cons.1 hz with rfl | hz
      · exact hxy
      · have hzy : rankBefore f up z.2 y.2 = false := (hy z hz).elim rankBefore_asymm And.left
        exact rankBefore_of_not_after hxy hzy
    · next hxy =>
      refine List.pairwise_cons.2 ⟨fun z hz => ?_, ih hys fun z hz => hx z (List.mem_cons_of_mem _ hz)⟩
      rcases List.mem_cons.1 (rankInsert_perm.mem_iff.1 hz) with rfl | hz
      · exact .inr ⟨Bool.eq_false_iff.2 hxy, hx y List.mem_cons_self⟩
      · exact hy z hz

/-- The elements in rank order are the elements, and each stands before those that follow it. -/
theorem ranked_sorted {xs : List (Nat × Nat)} (h : xs.Pairwise (fun a b => a.1 < b.1)) :
    (ranked f up xs).Perm xs ∧ (ranked f up xs).Pairwise (RankedBefore f up) := by
  suffices hacc : ∀ acc : List (Nat × Nat), acc.Pairwise (RankedBefore f up) → (∀ y ∈ acc, ∀ x ∈ xs, y.1 < x.1) →
      (xs.foldl (fun acc x => rankInsert f up x acc) acc).Perm (acc ++ xs) ∧
      (xs.foldl (fun acc x => rankInsert f up x acc) acc).Pairwise (RankedBefore f up) from
    hacc [] .nil fun y hy => nomatch hy
  induction xs with
  | nil => exact fun acc hs _ => ⟨by rw [List.append_nil]; exact .refl _, hs⟩
  | cons x xs ih =>
    intro acc hs hlt
    obtain ⟨hx, hxs⟩ := List.pairwise_cons.1 h
    obtain ⟨hperm, hsorted⟩ := ih hxs (rankInsert f up x acc) (rankInsert_sorted hs fun y hy => hlt y hy x List.mem_cons_self)
      fun y hy z hz => (List.mem_cons.1 (rankInsert_perm.mem_iff.1 hy)).elim (fun e => e ▸ hx z hz)
        fun hy => hlt y hy z (List.mem_cons_of_mem _ hz)
    exact ⟨hperm.trans ((rankInsert_perm.append_right xs).trans List.perm_middle.symm), hsorted⟩

/-- NaN ranks first in either order. -/
theorem rankBefore_nan {a b : Nat} (hf : f = .fp32 ∨ f = .bf16 ∨ f = .fp16) (ha : f.decode a = .nan) (hb : f.decode b ≠ .nan) :
    rankBefore f up a b = true ∧ rankBefore f up b a = false := by
  have hval : ∀ c, rankVal f c = f.decode c := by
    rcases hf with rfl | rfl | rfl <;> exact fun _ => rfl
  simp [rankBefore, rankKey_eq, hval, ha, hb]
end

/-! Sums, rankings, random draws and generator state (05:R118 to R123). -/
section
variable {s : State} {k : Fin 128} {b : Nat} {l : Launch} {i : Instr}

/-- A generator set, or drawn from. -/
theorem OnlyDraws.setGen (g : Nat) (x : Gen) : OnlyDraws (fun c => c.setGen g x) := fun c => ⟨Tab.set {} c.gs g x, rfl⟩

/-- The low word of 64 result bits. -/
theorem w32_lowBits (t : Int) : w32 (lowBits 64 t) = BitVec.ofInt 32 t := by
  refine BitVec.eq_of_toNat_eq ?_
  rw [w32, BitVec.toNat_ofNat, BitVec.toNat_ofInt, lowBits]
  omega

/-- A scalar sum (05:R118): one float, the 64 bits of an integer, or 32. -/
theorem State.does_sum (hq : s.Quiet k b l) (sq : Bool) (e : VEn) (d x : Fin 32) (f : Fmt) (g : RG) (o w : Bool)
    (he : (s.core k.val).slotEffect i = (s.core k.val).sumV sq e d x f g o w)
    (hi : PlainSlot k i := by exact ⟨fun _ => rfl, rfl, fun _ => rfl, fun _ => rfl⟩) :
    let c := s.core k.val
    let codes := (c.active e).map (c.el e x)
    s.Does i k (drawn g.rnd g.gs)
      (if f.isFloat then [(10, putS d (BitVec.ofNat 32 (floatSum sq f g.rnd ((c.gen g.gs.val).half 0 0 0) codes)))]
       else if w then
         [(10, putS d (BitVec.ofInt 32 (intSum sq f codes))),
          (10, putS (d + 1 : Fin 32).val (BitVec.ofNat 32 (lowBits 64 (intSum sq f codes) / 2 ^ 32)))]
       else [(10, putS d (BitVec.ofNat 32 (intOut 32 o (intSum sq f codes))))]) := by
  have hG : OnlyDraws (drawn g.rnd g.gs) := .drawn g.rnd g.gs
  intro c codes
  unfold Core.sumV at he
  split
  · next hf => exact State.does_scal hq hG (he.trans (if_pos hf)) hi
  · next hf =>
    have he := he.trans (if_neg hf)
    split
    · next hw =>
      rw [← w32_lowBits]
      exact State.does_two hq (Landing.ok_scal ..) (Landing.ok_scal ..) le_rfl hG (he.trans (if_pos hw)) hi
    · next hw => exact State.does_scal hq hG (he.trans (if_neg hw)) hi

/-- The first-ranked element and its index (05:R119). -/
theorem State.does_rank (hq : s.Quiet k b l) (up : Bool) (e : VEn) (d x : Fin 32) (f : Fmt)
    (he : (s.core k.val).slotEffect i = (s.core k.val).rankV up e d x f)
    (hi : PlainSlot k i := by exact ⟨fun _ => rfl, rfl, fun _ => rfl, fun _ => rfl⟩) :
    let r := rankFirst f up (((s.core k.val).active e).map (fun i => (i, (s.core k.val).el e x i)))
    s.Does i k id [(8, putS d (BitVec.ofNat 32 r.1)), (8, putS (d + 1 : Fin 32).val (BitVec.ofNat 32 r.2))] :=
  State.does_two hq (Landing.ok_scal ..) (Landing.ok_scal ..) le_rfl .id he hi

/-- The generator's field that VGSET names (05:R123). -/
theorem genSetField_vgset (c : Core) (g : Fin 16) (fd : BitVec 2) (A B : Nat) :
    c.setGen g.val (genSetField (c.gen g.val) fd.toNat
      (match fd.toNat with | 0 => A + B * 2 ^ 32 | 3 => A + B % 2 ^ 16 * 2 ^ 32 | _ => A))
    = c.setGen g.val (match fd.toNat with
       | 0 => { c.gen g.val with key := A + B * 2 ^ 32 }
       | 1 => { c.gen g.val with sid := A }
       | 2 => { c.gen g.val with step := A }
       | _ => { c.gen g.val with draw := A + B % 2 ^ 16 * 2 ^ 32 }) := by
  have hfd : fd.toNat = 0 ∨ fd.toNat = 1 ∨ fd.toNat = 2 ∨ fd.toNat = 3 := by omega
  rcases hfd with h | h | h | h <;> rw [h] <;> rfl

/-- Lanes of 32-bit results in several registers, each for the elements that are active at issue. -/
theorem Core.foldl_lanesV (e : VEn) (d : Nat → Fin 32) (h : Nat → Nat → Nat) (js : List Nat) : ∀ c : Core,
    js.foldl (fun c j => c.lanesV e (d j) (h j)) c = c.lands (js.map fun j => .vec 6 e.w.bits (d j)
      (c.each e fun i => h j (i * e.w.bits / 32) / 2 ^ (i * e.w.bits % 32) % 2 ^ e.w.bits)) := by
  induction js with
  | nil => exact fun _ => rfl
  | cons j js ih => exact fun c => ih (c.lanesV e (d j) (h j))

/-- Settles O15: sums and rankings by `does_sum` and `does_rank`, the order of a ranking by `ranked_sorted`, and the random instructions by
their draw at issue and their lanes' landings. -/
theorem vectorReductionAndRandomResults : Obligations.VectorReductionAndRandomResults := by
  unfold Obligations.VectorReductionAndRandomResults
  refine ⟨?_, fun f up xs h _ => ⟨(ranked_sorted h).1, (ranked_sorted h).2, fun a b hf => rankBefore_nan hf⟩, ?_⟩
  · intro s k b l hq e d x sc f g o w up n c codes pairs r G sums rank top lane
    refine ⟨State.does_sum hq false e d x f g o w rfl, State.does_sum hq true e d x f g o w rfl, State.does_rank hq false e d x f rfl,
      State.does_rank hq true e d x f rfl, ?_⟩
    have hlane : ∀ j, lane j = if j < 16 then (match top[j]? with | some p => canonCode f p.2 | none => 0)
        else (match top[j - 16]? with | some p => p.1 | none => 0) := fun j => by
      simp only [lane]
      congr 1
      · cases top[j]? <;> rfl
      · cases top[j - 16]? <;> rfl
    simp only [hlane]
    exact State.does_two hq (Landing.ok_vec ..) (Landing.ok_scal ..) le_rfl .id rfl
  · intro s k b l hq e d a y g m arr fd c x W G lanes A B
    have hG : OnlyDraws G := .setGen g.val _
    refine ⟨State.does_vec hq hG rfl, ?_, State.does_vec hq hG rfl, State.does_mask hq hG rfl, ?_,
      State.does_two hq (Landing.ok_scal ..) (Landing.ok_scal ..) le_rfl .id rfl, State.does_one hq (Landing.ok_bind ..) .id rfl⟩
    · have hok : ∀ w ∈ (List.range 4).map (fun j => Landing.vec 6 W (Fin.ofNat 32 (d.val + j)) (lanes (fun q => x.word q j))),
          w.Ok ∧ w.lat = 6 ∧ w.ph = phLand := fun w hw => by
        obtain ⟨j, -, rfl⟩ := List.mem_map.1 hw
        exact ⟨Landing.ok_vec .., rfl, rfl⟩
      have hdo := State.does_lands hq (i := .vrand4 (at1 k) e d g) ⟨fun _ => rfl, rfl, fun _ => rfl, fun _ => rfl⟩ hG
        (fun w hw => (hok w hw).1) (Landing.sorted_of_const fun w hw => (hok w hw).2)
        (Core.foldl_lanesV e (fun j => Fin.ofNat 32 (d.val + j)) (fun j q => x.word q j) (List.range 4) (G c))
      rw [List.map_map] at hdo
      exact hdo
    · have hone := State.does_one hq (i := .vgset (at1 k) g fd a y) (Landing.ok_gen g fd.toNat
        (match fd.toNat with | 0 => A + B * 2 ^ 32 | 3 => A + B % 2 ^ 16 * 2 ^ 32 | _ => A)) .id rfl
      rw [Landing.seen, Landing.gen, funext fun c => genSetField_vgset c g fd A B] at hone
      exact hone
end
end Sys2Proof.Machine

/-! The codes of the float formats (02:R36, R37, R53): what a code's magnitude is worth, and that the values of a format's codes are
held by it. -/
namespace Sys2Proof
open Machine
section

/-- The bits of a code below its sign. -/
def Fmt.magOf (f : Fmt) (c : Nat) : Nat := c % 2 ^ (f.width - 1)
/-- The significand of the code of a magnitude, and the exponent of its last bit. -/
def Fmt.sig (f : Fmt) (m : Nat) : Nat := if m / 2 ^ f.params.2.1 = 0 then m else 2 ^ f.params.2.1 + m % 2 ^ f.params.2.1
def Fmt.lsb (f : Fmt) (m : Nat) : Int := max (m / 2 ^ f.params.2.1 : Nat) 1 - f.params.2.2 - f.params.2.1
/-- The number that the code of a magnitude is worth. -/
def Fmt.worth (f : Fmt) (m : Nat) : ℚ := f.sig m * 2 ^ f.lsb m

/-- The exponent and fraction fields of a magnitude, where all below the sign is read. -/
theorem fields_of_mod (c x y : Nat) (hx : 0 < x) :
    bitsOf c (x + y - 1) y = c % 2 ^ (x + y) / 2 ^ y ∧ c % 2 ^ y = c % 2 ^ (x + y) % 2 ^ y := by
  have hxy : x + y - 1 + 1 - y = x := by omega
  have hpow : 2 ^ (x + y) = 2 ^ y * 2 ^ x := by rw [Nat.pow_add, Nat.mul_comm]
  constructor
  · rw [bitsOf, hxy, hpow, Nat.mod_mul_right_div_self]
  · rw [hpow, Nat.mod_mul_right_mod]

/-- A finite value by the fields of its code's magnitude. -/
theorem Fmt.fin_sig_lsb (f : Fmt) (s : Bool) (m : Nat) :
    (if m / 2 ^ f.params.2.1 = 0 then Val.fin s (m % 2 ^ f.params.2.1) (1 - f.params.2.2 - f.params.2.1)
      else .fin s (2 ^ f.params.2.1 + m % 2 ^ f.params.2.1) ((m / 2 ^ f.params.2.1 : Nat) - f.params.2.2 - f.params.2.1))
    = .fin s (f.sig m) (f.lsb m) := by
  unfold Fmt.sig Fmt.lsb
  split
  · next h =>
    rw [h, Nat.mod_eq_of_lt ((Nat.div_eq_zero_iff_lt (Nat.two_pow_pos _)).1 h)]
    rfl
  · next h => rw [max_eq_left (by exact_mod_cast Nat.one_le_iff_ne_zero.2 h)]

/-- The fields of a float format fill the bits below the sign. -/
theorem Fmt.width_of_isFloat {f : Fmt} (hf : f.isFloat = true) : 0 < f.params.1 ∧ f.params.1 + f.params.2.1 = f.width - 1 := by
  cases f <;> simp [Fmt.isFloat, Fmt.params, Fmt.width] at hf ⊢

/-- In a format with infinities a magnitude above the largest value has the last exponent, and the first such is the infinity. -/
theorem Fmt.above_of_hasInf {f : Fmt} (hi : f.hasInf = true) {m : Nat} (hm : m < 2 ^ (f.width - 1)) :
    (m / 2 ^ f.params.2.1 = 2 ^ f.params.1 - 1 ↔ f.maxCode < m) ∧ (f.maxCode < m → (m % 2 ^ f.params.2.1 = 0 ↔ m = f.maxCode + 1)) := by
  cases f <;> simp only [Fmt.width, Fmt.params, Fmt.hasInf, Fmt.maxCode, Nat.reducePow, Nat.reduceSub, Bool.false_eq_true] at hi hm ⊢ <;>
    omega

/-- In a float format without them only the last magnitude of E4M3 lies above the largest value. -/
theorem Fmt.above_of_not_hasInf {f : Fmt} (hf : f.isFloat = true) (hi : f.hasInf = false) {m : Nat} (hm : m < 2 ^ (f.width - 1)) :
    (f = .e4m3 ∧ m % 128 = 127) ↔ f.maxCode < m := by
  cases f <;> simp only [Fmt.isFloat, Fmt.width, Fmt.hasInf, Fmt.maxCode, Nat.reducePow, Nat.reduceSub, Bool.true_eq_false,
    Bool.false_eq_true, reduceCtorEq, false_and, false_iff, true_and] at hf hi hm ⊢ <;> omega

/-- A code's value by its magnitude: finite up to the largest, and above it the infinity, where there is one, and NaN. -/
theorem Fmt.decode_eq {f : Fmt} (hf : f.isFloat = true) (c : Nat) : f.decode c =
    if f.magOf c ≤ f.maxCode then .fin (f.signOf c) (f.sig (f.magOf c)) (f.lsb (f.magOf c))
    else if f.hasInf = true ∧ f.magOf c = f.maxCode + 1 then .inf (f.signOf c) else .nan := by
  obtain ⟨hx, hw⟩ := Fmt.width_of_isFloat hf
  have hlt : f.magOf c < 2 ^ (f.width - 1) := Nat.mod_lt _ (Nat.two_pow_pos _)
  obtain ⟨hex, hfr⟩ := fields_of_mod c f.params.1 f.params.2.1 hx
  rw [hw] at hex hfr
  have hdec : f.decode c =
      if f.hasInf && f.magOf c / 2 ^ f.params.2.1 == 2 ^ f.params.1 - 1 then
        (if f.magOf c % 2 ^ f.params.2.1 = 0 then .inf (f.signOf c) else .nan)
      else if f == .e4m3 && c % 128 == 127 then .nan
      else .fin (f.signOf c) (f.sig (f.magOf c)) (f.lsb (f.magOf c)) := by
    rw [← Fmt.fin_sig_lsb, Fmt.magOf, ← hex, ← hfr, ← hw]
    rfl
  rw [hdec]
  cases hi : f.hasInf with
  | true =>
    obtain ⟨htop, hinf⟩ := Fmt.above_of_hasInf hi hlt
    have he : (f == .e4m3) = false := by
      cases f <;> simp only [Fmt.hasInf, Bool.false_eq_true] at hi <;> rfl
    by_cases hle : f.magOf c ≤ f.maxCode
    · simp [mt htop.1 (not_lt.2 hle), he, hle]
    · simp [htop.2 (not_le.1 hle), hinf (not_le.1 hle), hle]
  | false =>
    have hmod : (f = .e4m3 ∧ c % 128 = 127) ↔ (f = .e4m3 ∧ f.magOf c % 128 = 127) := and_congr_right fun h => by
      subst h
      simp [Fmt.magOf, Fmt.width]
    have hnan : (f == .e4m3 && c % 128 == 127) = decide (f.maxCode < f.magOf c) := by
      rw [Bool.eq_iff_iff, decide_eq_true_iff, ← Fmt.above_of_not_hasInf hf hi hlt, ← hmod, Bool.and_eq_true, beq_iff_eq, beq_iff_eq]
    by_cases hle : f.magOf c ≤ f.maxCode
    · simp [hnan, hle]
    · simp [hnan, hle, not_le.1 hle]
end
end Sys2Proof

namespace Sys2Proof
open Machine

/-! A magnitude by its exponent field `q` and its fraction `r`. -/
section
variable {f : Fmt} {x y : Nat} {b : Int} (hp : f.params = (x, y, b)) {q r : Nat} (hr : r < 2 ^ y)
include hp hr

theorem Fmt.sig_fields : f.sig (2 ^ y * q + r) = if q = 0 then r else 2 ^ y + r := by
  have hq : (2 ^ y * q + r) / 2 ^ y = q := by rw [Nat.mul_add_div (Nat.two_pow_pos y), Nat.div_eq_of_lt hr, Nat.add_zero]
  have hm : (2 ^ y * q + r) % 2 ^ y = r := by rw [Nat.mul_add_mod, Nat.mod_eq_of_lt hr]
  simp only [Fmt.sig, hp, hq, hm]
  split
  · next h => rw [h, Nat.mul_zero, Nat.zero_add]
  · rfl

theorem Fmt.lsb_fields : f.lsb (2 ^ y * q + r) = (max q 1 : Nat) - b - y := by
  have hq : (2 ^ y * q + r) / 2 ^ y = q := by rw [Nat.mul_add_div (Nat.two_pow_pos y), Nat.div_eq_of_lt hr, Nat.add_zero]
  simp only [Fmt.lsb, hp, hq]

/-- The last bit at which a code's value is rounded is the last bit of its code (02:R53). -/
theorem Fmt.lsbAt_fields : f.lsbAt ⟨f.sig (2 ^ y * q + r), f.lsb (2 ^ y * q + r), false⟩ = f.lsb (2 ^ y * q + r) := by
  simp only [Fmt.lsbAt, log2Of, hp, Fmt.sig_fields hp hr, Fmt.lsb_fields hp hr]
  by_cases hq : q = 0
  · have hlog : r ≠ 0 → Nat.log2 r < y := fun h0 => (Nat.log2_lt h0).2 hr
    rw [if_pos hq]
    split <;> omega
  · have hlog : Nat.log2 (2 ^ y + r) = y := (Nat.log2_eq_iff (by omega)).2 ⟨by omega, by rw [pow_succ]; omega⟩
    rw [if_neg hq, hlog, if_neg (by omega)]
    omega

/-- A magnitude is found from its significand and last bit. -/
theorem Fmt.encodeUnits_fields (s : Bool) : f.encodeUnits s (f.sig (2 ^ y * q + r)) (f.lsb (2 ^ y * q + r))
    = 2 ^ y * q + r + if s then 2 ^ (f.width - 1) else 0 := by
  simp only [Fmt.encodeUnits, hp, Fmt.sig_fields hp hr, Fmt.lsb_fields hp hr]
  rw [show ((max q 1 : Nat) : Int) - b - y + y + b = (max q 1 : Nat) by ring]
  congr 1
  by_cases hq : q = 0
  · subst hq
    simp
  · rw [if_neg hq, max_eq_left (by omega)]
    push_cast
    rw [show (q : Int) * 2 ^ y + (2 ^ y + r) - 2 ^ y = ((2 ^ y * q + r : Nat) : Int) by push_cast; ring, Int.toNat_natCast]

/-- The next magnitude is worth one unit of the last bit more. -/
theorem Fmt.worth_succ_fields : f.worth (2 ^ y * q + r + 1) = (f.sig (2 ^ y * q + r) + 1) * 2 ^ f.lsb (2 ^ y * q + r) := by
  have h2 : (2 : ℚ) ≠ 0 := two_ne_zero
  rcases Nat.lt_or_ge (r + 1) (2 ^ y) with hlt | hge
  · rw [Nat.add_assoc, Fmt.worth, Fmt.sig_fields hp hlt, Fmt.lsb_fields hp hlt, Fmt.sig_fields hp hr, Fmt.lsb_fields hp hr]
    split <;> push_cast <;> ring
  · have hnext : 2 ^ y * q + r + 1 = 2 ^ y * (q + 1) + 0 := by rw [Nat.mul_succ]; omega
    have hY : ((r : ℚ) + 1) = 2 ^ y := by exact_mod_cast (show r + 1 = 2 ^ y by omega)
    rw [hnext, Fmt.worth, Fmt.sig_fields hp (Nat.two_pow_pos y), Fmt.lsb_fields hp (Nat.two_pow_pos y), Fmt.sig_fields hp hr,
      Fmt.lsb_fields hp hr]
    by_cases hq : q = 0
    · subst hq
      simp [hY]
    · rw [if_neg (Nat.succ_ne_zero q), if_neg hq, max_eq_left (by omega), max_eq_left (by omega)]
      push_cast
      rw [add_assoc, hY, show (q : Int) + 1 - b - y = q - b - y + 1 by ring, zpow_add_one₀ h2]
      ring
end

section
variable (f : Fmt) (m : Nat)

/-- A magnitude has an exponent field and a fraction. -/
theorem Fmt.exists_fields : ∃ x y b q r, f.params = (x, y, b) ∧ r < 2 ^ y ∧ m = 2 ^ y * q + r :=
  ⟨_, _, _, _, _, rfl, Nat.mod_lt m (Nat.two_pow_pos _), (Nat.div_add_mod m (2 ^ f.params.2.1)).symm⟩

theorem Fmt.lsbAt_sig : f.lsbAt ⟨f.sig m, f.lsb m, false⟩ = f.lsb m := by
  obtain ⟨x, y, b, q, r, hp, hr, rfl⟩ := f.exists_fields m
  exact Fmt.lsbAt_fields hp hr

theorem Fmt.encodeUnits_sig (s : Bool) : f.encodeUnits s (f.sig m) (f.lsb m) = m + if s then 2 ^ (f.width - 1) else 0 := by
  obtain ⟨x, y, b, q, r, hp, hr, rfl⟩ := f.exists_fields m
  exact Fmt.encodeUnits_fields hp hr s

theorem Fmt.worth_succ : f.worth (m + 1) = (f.sig m + 1) * 2 ^ f.lsb m := by
  obtain ⟨x, y, b, q, r, hp, hr, rfl⟩ := f.exists_fields m
  exact Fmt.worth_succ_fields hp hr

/-- A greater magnitude is worth more. -/
theorem Fmt.worth_strictMono : StrictMono f.worth := strictMono_nat_of_lt_succ fun m => by
  have h2 : (0 : ℚ) < 2 ^ f.lsb m := by positivity
  rw [f.worth_succ, add_mul, one_mul, Fmt.worth]
  exact lt_add_of_pos_right _ h2

theorem Fmt.roundFloat_sig (rnd : Rnd) (r : Nat) : f.roundFloat ⟨f.sig m, f.lsb m, false⟩ rnd r = (f.sig m, f.lsb m) := by
  simp only [Fmt.roundFloat, f.lsbAt_sig, roundUnits, le_refl, if_true, Int.sub_self]
  rfl

variable {f}

theorem Fmt.magOf_maxCode : f.magOf f.maxCode = f.maxCode := by cases f <;> rfl

/-- A rounded magnitude is beyond the format where it exceeds the largest value (02:R53, R54). -/
theorem Fmt.beyond_eq (hf : f.isFloat = true) (k : Nat) (g : Int) : f.beyond k g = decide (f.worth f.maxCode < k * 2 ^ g) := by
  have hdec := Fmt.decode_eq hf f.maxCode
  rw [Fmt.magOf_maxCode, if_pos le_rfl] at hdec
  have hpos : (0 : ℚ) < 2 ^ min g (f.lsb f.maxCode) := by positivity
  simp only [Fmt.beyond, hdec]
  rw [decide_eq_decide, Fmt.worth, ← shiftLeft_mul_zpow _ (min_le_right g _), ← shiftLeft_mul_zpow k (min_le_left g (f.lsb f.maxCode)),
    mul_lt_mul_iff_left₀ hpos, Nat.cast_lt]

theorem Fmt.not_beyond_of_le (hf : f.isFloat = true) (h : m ≤ f.maxCode) : f.beyond (f.sig m) (f.lsb m) = false := by
  rw [Fmt.beyond_eq hf, decide_eq_false_iff_not, not_lt]
  exact f.worth_strictMono.monotone h

theorem Fmt.infCode_eq (hi : f.hasInf = true) (s : Bool) : f.infCode s = f.maxCode + 1 + if s then 2 ^ (f.width - 1) else 0 := by
  cases f <;> simp only [Fmt.hasInf, Bool.false_eq_true] at hi <;> rfl

/-- A code is its magnitude and its sign. -/
theorem Fmt.magOf_add_sign {c : Nat} (hc : c < 2 ^ f.width) : f.magOf c + (if f.signOf c then 2 ^ (f.width - 1) else 0) = c := by
  have hw : 2 ^ f.width = 2 ^ (f.width - 1) * 2 := by rw [← pow_succ, Nat.sub_add_cancel (by cases f <;> decide)]
  have hdm := Nat.div_add_mod c (2 ^ (f.width - 1))
  have hlt : c / 2 ^ (f.width - 1) < 2 := Nat.div_lt_of_lt_mul (hw ▸ hc)
  rw [Fmt.magOf, Fmt.signOf, Nat.testBit_eq_decide_div_mod_eq, Nat.mod_eq_of_lt hlt]
  rcases Nat.lt_or_ge (c / 2 ^ (f.width - 1)) 1 with h | h
  · rw [Nat.lt_one_iff.1 h] at hdm ⊢
    simpa using hdm
  · rw [Nat.le_antisymm (Nat.lt_succ_iff.1 hlt) h] at hdm ⊢
    simp
    omega

/-- A value that a float format holds rounds to its code (02:R53; 05:R109). -/
theorem Fmt.finish_decode (hf : f.isFloat = true) {c : Nat} (hc : c < 2 ^ f.width) (hn : f.decode c ≠ .nan) (rnd : Rnd) (r : Nat) :
    f.finish (f.decode c).exact rnd r = c := by
  rw [Fmt.decode_eq hf] at hn ⊢
  by_cases hle : f.magOf c ≤ f.maxCode
  · rw [if_pos hle, Val.exact, Fmt.finish]
    simp only [f.roundFloat_sig, Fmt.not_beyond_of_le _ hf hle, Bool.false_eq_true, if_false]
    rw [f.encodeUnits_sig, Fmt.magOf_add_sign hc]
  · rw [if_neg hle] at hn ⊢
    by_cases hinf : f.hasInf = true ∧ f.magOf c = f.maxCode + 1
    · rw [if_pos hinf, Val.exact, Fmt.finish, Fmt.infCode_eq hinf.1, ← hinf.2, Fmt.magOf_add_sign hc]
    · exact absurd (if_neg hinf) hn

/-- A code without its sign has the value without its sign. -/
theorem Fmt.decode_magOf (hf : f.isFloat = true) (c : Nat) : f.decode (f.magOf c) = match f.decode c with
    | .nan => .nan
    | .inf _ => .inf false
    | .fin _ n e => .fin false n e := by
  have hmm : f.magOf (f.magOf c) = f.magOf c := Nat.mod_mod _ _
  have hs : f.signOf (f.magOf c) = false := Nat.testBit_lt_two_pow (Nat.mod_lt _ (Nat.two_pow_pos _))
  rw [Fmt.decode_eq hf, Fmt.decode_eq hf c, hmm, hs]
  split
  · rfl
  · split <;> rfl
end
end Sys2Proof

/-! The order of floating values, and the absolute maximum of a record (02:R57; 05:R109, R110, R113). -/
namespace Sys2Proof
open Machine
section
variable {f : Fmt} {a b : Nat}

/-- The value of a float code as a source. -/
theorem srcOf_isFloat (hf : f.isFloat = true) (g : Int) (c : Nat) : (srcOf f g c).v = f.decode c := by
  cases f <;> simp only [Fmt.isFloat, Bool.false_eq_true] at hf <;> rfl

theorem cmpHolds_nan (hf : f.isFloat = true) (h : f.decode a = .nan ∨ f.decode b = .nan) (cd : VCond) :
    cmpHolds f cd a b = (cd == .ne || cd == .un) := by
  have hc : (decide (f.decode a = .nan) || decide (f.decode b = .nan)) = true := by simpa using h
  simp only [cmpHolds, srcOf_isFloat hf, hc, if_true]
  cases cd <;> rfl

theorem cmpHolds_number (hf : f.isFloat = true) (ha : f.decode a ≠ .nan) (hb : f.decode b ≠ .nan) (cd : VCond) :
    cmpHolds f cd a b = match cd with
      | .eq => decide ((f.decode a).cmp (f.decode b) = 0) | .ne => decide ((f.decode a).cmp (f.decode b) ≠ 0)
      | .lt => decide ((f.decode a).cmp (f.decode b) < 0) | .le => decide ((f.decode a).cmp (f.decode b) ≤ 0)
      | .gt => decide (0 < (f.decode a).cmp (f.decode b)) | .ge => decide (0 ≤ (f.decode a).cmp (f.decode b))
      | .un => false | .ord => true := by
  have hc : (decide (f.decode a = .nan) || decide (f.decode b = .nan)) = false := by simp [ha, hb]
  cases cd <;> simp only [cmpHolds, srcOf_isFloat hf, hc, Bool.false_eq_true, if_false, gt_iff_lt, ge_iff_le]

/-- Two zeros stand at one place. -/
theorem Val.cmp_zeros {x y : Val} (hx : x.isZero = true) (hy : y.isZero = true) : x.cmp y = 0 := by
  have hx' := Val.ne_nan_of_isZero hx
  have hy' := Val.ne_nan_of_isZero hy
  rw [Val.cmp_eq_iff hx' hy', (Val.isZero_iff_place hx').1 hx, (Val.isZero_iff_place hy').1 hy]

theorem Fmt.minCode_number (ha : f.decode a ≠ .nan) (hb : f.decode b ≠ .nan) : f.minCode a b =
    if (f.decode a).isZero && (f.decode b).isZero then (if f.signOf a then a else b)
    else if (f.decode a).cmp (f.decode b) ≤ 0 then a else b := by
  unfold Fmt.minCode
  split
  · contradiction
  · contradiction
  · rfl

theorem Fmt.maxOf_number (ha : f.decode a ≠ .nan) (hb : f.decode b ≠ .nan) : f.maxOf a b =
    if (f.decode a).isZero && (f.decode b).isZero then (if f.signOf a then b else a)
    else if (f.decode a).cmp (f.decode b) ≥ 0 then a else b := by
  unfold Fmt.maxOf
  split
  · contradiction
  · contradiction
  · rfl

/-- The minimum is the operand at the lower place, and either where the places are one. -/
theorem Fmt.minCode_place (ha : f.decode a ≠ .nan) (hb : f.decode b ≠ .nan) :
    (f.minCode a b = a ∧ (f.decode a).place ≤ (f.decode b).place) ∨ (f.minCode a b = b ∧ (f.decode b).place ≤ (f.decode a).place) := by
  rw [Fmt.minCode_number ha hb]
  split
  · next hz =>
    obtain ⟨hza, hzb⟩ := Bool.and_eq_true_iff.1 hz
    have heq := (Val.cmp_eq_iff ha hb).1 (Val.cmp_zeros hza hzb)
    split
    · exact .inl ⟨rfl, heq.le⟩
    · exact .inr ⟨rfl, heq.ge⟩
  · split
    · next h => exact .inl ⟨rfl, (Val.cmp_le_iff ha hb).1 h⟩
    · next h => exact .inr ⟨rfl, le_of_not_ge fun hab => h ((Val.cmp_le_iff ha hb).2 hab)⟩

/-- The maximum is the operand at the higher place, and either where the places are one. -/
theorem Fmt.maxOf_place (ha : f.decode a ≠ .nan) (hb : f.decode b ≠ .nan) :
    (f.maxOf a b = a ∧ (f.decode b).place ≤ (f.decode a).place) ∨ (f.maxOf a b = b ∧ (f.decode a).place ≤ (f.decode b).place) := by
  rw [Fmt.maxOf_number ha hb]
  split
  · next hz =>
    obtain ⟨hza, hzb⟩ := Bool.and_eq_true_iff.1 hz
    have heq := (Val.cmp_eq_iff ha hb).1 (Val.cmp_zeros hza hzb)
    split
    · exact .inr ⟨rfl, heq.le⟩
    · exact .inl ⟨rfl, heq.ge⟩
  · split
    · next h => exact .inl ⟨rfl, (Val.cmp_ge_iff ha hb).1 h⟩
    · next h => exact .inr ⟨rfl, le_of_not_ge fun hba => h ((Val.cmp_ge_iff ha hb).2 hba)⟩

theorem Fmt.minCode_bounds (ha : f.decode a ≠ .nan) (hb : f.decode b ≠ .nan) :
    (f.minCode a b = a ∨ f.minCode a b = b) ∧ (f.decode (f.minCode a b)).cmp (f.decode a) ≤ 0 ∧
      (f.decode (f.minCode a b)).cmp (f.decode b) ≤ 0 := by
  obtain ⟨hm, hle⟩ | ⟨hm, hle⟩ := Fmt.minCode_place ha hb
  · rw [hm, Val.cmp_le_iff ha ha, Val.cmp_le_iff ha hb]
    exact ⟨.inl rfl, le_rfl, hle⟩
  · rw [hm, Val.cmp_le_iff hb ha, Val.cmp_le_iff hb hb]
    exact ⟨.inr rfl, hle, le_rfl⟩

theorem Fmt.maxOf_bounds (ha : f.decode a ≠ .nan) (hb : f.decode b ≠ .nan) :
    (f.maxOf a b = a ∨ f.maxOf a b = b) ∧ 0 ≤ (f.decode (f.maxOf a b)).cmp (f.decode a) ∧
      0 ≤ (f.decode (f.maxOf a b)).cmp (f.decode b) := by
  obtain ⟨hm, hle⟩ | ⟨hm, hle⟩ := Fmt.maxOf_place ha hb
  · rw [hm, Val.cmp_ge_iff ha ha, Val.cmp_ge_iff ha hb]
    exact ⟨.inl rfl, le_rfl, hle⟩
  · rw [hm, Val.cmp_ge_iff hb ha, Val.cmp_ge_iff hb hb]
    exact ⟨.inr rfl, hle, le_rfl⟩

theorem Fmt.absCode_nan (h : f.decode a = .nan) : f.absCode a = f.nanCode := by
  rw [Fmt.absCode, h]

theorem Fmt.absCode_number (h : f.decode a ≠ .nan) : f.absCode a = f.magOf a := by
  unfold Fmt.absCode
  split
  · contradiction
  · rfl

/-- VABS keeps a finite value's magnitude and clears its sign. -/
theorem Fmt.decode_absCode_fin (hf : f.isFloat = true) {s : Bool} {n : Nat} {e : Int} (h : f.decode a = .fin s n e) :
    f.decode (f.absCode a) = .fin false n e := by
  rw [Fmt.absCode_number (by simp [h]), Fmt.decode_magOf hf, h]

theorem Fmt.decode_absCode_inf (hf : f.isFloat = true) {s : Bool} (h : f.decode a = .inf s) : f.decode (f.absCode a) = .inf false := by
  rw [Fmt.absCode_number (by simp [h]), Fmt.decode_magOf hf, h]
end

section
/-- A non-zero magnitude lies from the power of its leading bit up to the next. -/
theorem log2Of_bounds {n : Nat} (hn : n ≠ 0) (e : Int) :
    (2 : ℚ) ^ log2Of n e ≤ n * 2 ^ e ∧ (n : ℚ) * 2 ^ e < 2 ^ (log2Of n e + 1) := by
  have hpos : (0 : ℚ) < 2 ^ e := by positivity
  have hlo : ((2 ^ Nat.log2 n : Nat) : ℚ) ≤ n := Nat.cast_le.2 (Nat.log2_self_le hn)
  have hhi : (n : ℚ) < ((2 ^ (Nat.log2 n + 1) : Nat) : ℚ) := Nat.cast_lt.2 Nat.lt_log2_self
  have hsucc : log2Of n e + 1 = ((Nat.log2 n + 1 : Nat) : Int) + e := by
    rw [log2Of]
    push_cast
    ring
  rw [hsucc, log2Of, zpow_add₀ two_ne_zero, zpow_add₀ two_ne_zero, zpow_natCast, zpow_natCast]
  push_cast at hlo hhi
  exact ⟨mul_le_mul_of_nonneg_right hlo hpos.le, mul_lt_mul_of_pos_right hhi hpos⟩

/-- The magnitude n·2^e in units of 2^g, rounded up. -/
def unitsUp (n : Nat) (e g : Int) : Nat :=
  if g ≤ e then n <<< (e - g).toNat else (n + (2 ^ (g - e).toNat - 1)) >>> (g - e).toNat

/-- The units rounded up reach the magnitude by less than one unit. -/
theorem unitsUp_bounds (n : Nat) (e g : Int) :
    (n : ℚ) * 2 ^ e ≤ unitsUp n e g * 2 ^ g ∧ (unitsUp n e g : ℚ) * 2 ^ g < n * 2 ^ e + 2 ^ g := by
  have hpos : (0 : ℚ) < 2 ^ g := by positivity
  unfold unitsUp
  split
  · next h =>
    rw [shiftLeft_mul_zpow n h]
    exact ⟨le_rfl, lt_add_of_pos_right _ hpos⟩
  · next h =>
    obtain ⟨d, rfl⟩ : ∃ d : Nat, g = d + e := ⟨(g - e).toNat, by omega⟩
    have he : (0 : ℚ) < 2 ^ e := by positivity
    have hd : 0 < 2 ^ d := Nat.two_pow_pos d
    have hdm := Nat.div_add_mod (n + (2 ^ d - 1)) (2 ^ d)
    have hr := Nat.mod_lt (n + (2 ^ d - 1)) hd
    set k := (n + (2 ^ d - 1)) / 2 ^ d with hk
    have hlo : (n : ℚ) ≤ k * 2 ^ d := by exact_mod_cast (show n ≤ k * 2 ^ d by rw [Nat.mul_comm]; omega)
    have hhi : (k : ℚ) * 2 ^ d < n + 2 ^ d := by exact_mod_cast (show k * 2 ^ d < n + 2 ^ d by rw [Nat.mul_comm]; omega)
    rw [add_sub_cancel_right, Int.toNat_natCast, Nat.shiftRight_eq_div_pow, ← hk, zpow_add₀ two_ne_zero, zpow_natCast, ← mul_assoc,
      ← add_mul]
    exact ⟨mul_le_mul_of_nonneg_right hlo he.le, mul_lt_mul_of_pos_right hhi he⟩

/-- A significand of at most one bit more than the fraction, in units of the exponent `t` steps above the lowest, is the worth of the
code that both make, where it is normal or the exponent is the lowest. -/
theorem Fmt.worth_units {f : Fmt} {x y : Nat} {b : Int} (hp : f.params = (x, y, b)) {t k : Nat} (hk : k ≤ 2 * 2 ^ y)
    (h : t = 0 ∨ 2 ^ y ≤ k) : f.worth (2 ^ y * t + k) = k * 2 ^ ((t : Int) + 1 - b - y) := by
  have hy : 0 < 2 ^ y := Nat.two_pow_pos y
  rcases Nat.lt_or_ge k (2 ^ y) with hlt | hge
  · obtain rfl : t = 0 := h.resolve_right (by omega)
    rw [Fmt.worth, Fmt.sig_fields hp hlt, Fmt.lsb_fields hp hlt]
    simp
  · rcases hk.lt_or_eq with hlt | rfl
    · have hr : k - 2 ^ y < 2 ^ y := by omega
      have hc : 2 ^ y * t + k = 2 ^ y * (t + 1) + (k - 2 ^ y) := by rw [Nat.mul_succ]; omega
      rw [hc, Fmt.worth, Fmt.sig_fields hp hr, Fmt.lsb_fields hp hr, if_neg (Nat.succ_ne_zero t), max_eq_left (by omega),
        Nat.add_sub_cancel' hge]
      push_cast
      rfl
    · have hc : 2 ^ y * t + 2 * 2 ^ y = 2 ^ y * (t + 2) + 0 := by ring
      rw [hc, Fmt.worth, Fmt.sig_fields hp hy, Fmt.lsb_fields hp hy, if_neg (Nat.succ_ne_zero _), max_eq_left (by omega)]
      push_cast
      rw [show (t : Int) + 2 - b - y = t + 1 - b - y + 1 by ring, zpow_add_one₀ two_ne_zero]
      ring

/-- The FP32 code of a magnitude rounded up is the first whose worth reaches the magnitude. -/
theorem exists_first_code {n : Nat} (hn : n ≠ 0) {e g : Int} (hg : g = max (log2Of n e) (-126) - 23) :
    ∃ c, Fmt.fp32.encodeUnits false (unitsUp n e g) g = c ∧ Fmt.fp32.worth c = unitsUp n e g * 2 ^ g ∧
      ∀ d < c, Fmt.fp32.worth d < n * 2 ^ e := by
  obtain ⟨hlo, hhi⟩ := log2Of_bounds hn e
  obtain ⟨hup, hlt⟩ := unitsUp_bounds n e g
  set k := unitsUp n e g with hk
  obtain ⟨t, ht⟩ : ∃ t : Nat, g = t - 149 := ⟨(g + 149).toNat, by omega⟩
  have hpos : (0 : ℚ) < 2 ^ g := by positivity
  have hn0 : (0 : ℚ) < n * 2 ^ e := by positivity
  have hk1 : 1 ≤ k := by
    have : (0 : ℚ) < k * 2 ^ g := hn0.trans_le hup
    exact_mod_cast pos_of_mul_pos_left this hpos.le
  have htop : (n : ℚ) * 2 ^ e ≤ (2 * 2 ^ 23 : Nat) * 2 ^ g :=
    calc (n : ℚ) * 2 ^ e ≤ 2 ^ (log2Of n e + 1) := hhi.le
      _ ≤ 2 ^ (24 + g) := zpow_le_zpow_right₀ one_le_two (by omega)
      _ = (2 * 2 ^ 23 : Nat) * 2 ^ g := by rw [zpow_add₀ two_ne_zero]; norm_num
  have hk24 : k ≤ 2 * 2 ^ 23 := by
    have : (k : ℚ) * 2 ^ g < ((2 * 2 ^ 23 : Nat) + 1) * 2 ^ g := by linarith
    exact Nat.lt_succ_iff.1 (by exact_mod_cast (mul_lt_mul_iff_left₀ hpos).1 this)
  have hnormal : t = 0 ∨ ((2 ^ 23 : Nat) : ℚ) * 2 ^ g ≤ n * 2 ^ e := by
    refine or_iff_not_imp_left.2 fun ht0 => ?_
    rw [show log2Of n e = 23 + g by omega, zpow_add₀ two_ne_zero] at hlo
    exact_mod_cast hlo
  have hmin : t = 0 ∨ 2 ^ 23 ≤ k := hnormal.imp_right fun h => by
    exact_mod_cast (mul_le_mul_iff_left₀ hpos).1 (h.trans hup)
  have hworth : ∀ j, j ≤ 2 * 2 ^ 23 → (t = 0 ∨ 2 ^ 23 ≤ j) → Fmt.fp32.worth (2 ^ 23 * t + j) = j * 2 ^ g := fun j hj h => by
    rw [Fmt.worth_units (rfl : Fmt.fp32.params = (8, 23, 127)) hj h, ht]
    congr 2
    push_cast
    ring
  refine ⟨2 ^ 23 * t + k, ?_, hworth k hk24 hmin, fun d hd => ?_⟩
  · change ((g + 23 + 127) * (2 ^ 23 : Nat) + k - (2 ^ 23 : Nat)).toNat + 0 = _
    omega
  · have hd' : d ≤ 2 ^ 23 * t + (k - 1) := by omega
    by_cases hkm : t = 0 ∨ 2 ^ 23 ≤ k - 1
    · have hle := Fmt.fp32.worth_strictMono.monotone hd'
      rw [hworth (k - 1) (by omega) hkm, Nat.cast_sub hk1, Nat.cast_one, sub_mul, one_mul] at hle
      linarith
    · have hlast : k = 2 ^ 23 := by omega
      have hltc := Fmt.fp32.worth_strictMono hd
      rw [hworth k hk24 hmin, hlast] at hltc
      exact hltc.trans_le (hnormal.resolve_left fun h => hkm (.inl h))

/-- The code at which a magnitude enters a record is the first that reaches it, or the largest finite one (02:R57). -/
theorem amaxForm_eq (n : Nat) (e : Int) : ∃ c, amaxForm n e = min c Fmt.fp32.maxCode ∧ (n : ℚ) * 2 ^ e ≤ Fmt.fp32.worth c ∧
    ∀ d < c, Fmt.fp32.worth d < n * 2 ^ e := by
  by_cases hn : n = 0
  · subst hn
    exact ⟨0, rfl, by simp [Fmt.worth, Fmt.sig], fun d hd => absurd hd (Nat.not_lt_zero d)⟩
  · have hg : Fmt.fp32.lsbAt ⟨n, e, false⟩ = max (log2Of n e) (-126) - 23 := by
      change max (if n = 0 then _ else log2Of n e) (-126) - 23 = _
      rw [if_neg hn]
    obtain ⟨c, hc, hworth, hfirst⟩ := exists_first_code hn hg
    have hform : amaxForm n e =
        if Fmt.fp32.worth Fmt.fp32.maxCode < Fmt.fp32.worth c then Fmt.fp32.maxCode else c := by
      rw [amaxForm, if_neg hn]
      change (if Fmt.fp32.beyond (unitsUp n e _) _ = true then Fmt.fp32.maxCode else Fmt.fp32.encodeUnits false (unitsUp n e _) _) = _
      rw [Fmt.beyond_eq rfl, hc, hworth]
      simp only [decide_eq_true_iff]
    refine ⟨c, ?_, hworth ▸ (unitsUp_bounds n e _).1, hfirst⟩
    simp only [hform, Fmt.fp32.worth_strictMono.lt_iff_lt]
    split
    · next h => rw [min_eq_right h.le]
    · next h => rw [min_eq_left (not_lt.1 h)]

/-- A code up to the largest finite one is positive and has its worth. -/
theorem decode_fp32_le {d : Nat} (hd : d ≤ Fmt.fp32.maxCode) : Fmt.fp32.decode d = .fin false (Fmt.fp32.sig d) (Fmt.fp32.lsb d) := by
  have hlt : d < 2 ^ 31 := lt_of_le_of_lt hd (by decide)
  have hm : Fmt.fp32.magOf d = d := Nat.mod_eq_of_lt hlt
  have hs : Fmt.fp32.signOf d = false := Nat.testBit_lt_two_pow hlt
  rw [Fmt.decode_eq rfl, hm, hs, if_pos hd]
end

namespace Machine
/-- Settles O11: the comparison of values is that of their places among the rational numbers, and a code's value is its worth, which
grows with its magnitude. -/
theorem floatValueRules : Obligations.FloatValueRules := by
  unfold Obligations.FloatValueRules
  refine ⟨fun f a b hf => ⟨cmpHolds_nan hf, cmpHolds_number hf, Val.cmp_zeros⟩, fun f c rnd r hf hc hn => Fmt.finish_decode hf hc hn rnd r,
    ⟨fun s t n m e g => ?_, neg_one_lt_zero, zero_lt_one, fun s => if_pos rfl⟩, fun f a b hf _ _ => ?_, fun n e => ?_, fun a => ?_⟩
  · have hfin : ∀ {s n e}, Val.fin s n e ≠ .nan := Val.noConfusion
    have hlt : ∀ {x y : ℚ}, (((x : WithTop ℚ) : WithBot (WithTop ℚ)) < ((y : WithTop ℚ) : WithBot (WithTop ℚ)) ↔ x < y) :=
      WithBot.coe_lt_coe.trans WithTop.coe_lt_coe
    refine ⟨(Val.cmp_lt_iff hfin hfin).trans hlt, ?_, (Val.cmp_gt_iff hfin hfin).trans hlt, neg_one_lt_zero, zero_lt_one,
      zero_lt_one, neg_one_lt_zero⟩
    exact (Val.cmp_eq_iff hfin hfin).trans (WithBot.coe_inj.trans WithTop.coe_inj)
  · have hfl : f.isFloat = true := by rcases hf with rfl | rfl | rfl <;> rfl
    refine ⟨fun ha hb => ?_, fun s n e => Fmt.decode_absCode_fin hfl, fun s => Fmt.decode_absCode_inf hfl, Fmt.absCode_nan⟩
    obtain ⟨hmin, hmina, hminb⟩ := Fmt.minCode_bounds ha hb
    exact ⟨hmin, hmina, hminb, Fmt.maxOf_bounds ha hb⟩
  · obtain ⟨c, hc, hreach, hfirst⟩ := amaxForm_eq n e
    have hle : amaxForm n e ≤ Fmt.fp32.maxCode := hc ▸ min_le_right _ _
    refine ⟨hle, fun d hd => ?_, fun hmax => ?_⟩
    · rw [decode_fp32_le (hd.le.trans hle)]
      exact hfirst d (hd.trans_le (hc ▸ min_le_left _ _))
    · rw [show (0x7F7FFFFF : Nat) = Fmt.fp32.maxCode from rfl, decode_fp32_le le_rfl] at hmax
      rw [decode_fp32_le hle, hc]
      rcases min_choice c Fmt.fp32.maxCode with h | h <;> rw [h]
      · exact hreach
      · exact hmax
  · exact ⟨fun _ _ _ => rfl, fun _ => rfl, rfl⟩
end Machine
end Sys2Proof

/-! Words and their fields (06:R129; 08:R192): what is packed is split off again, and what is split off makes up the word. -/
namespace Sys2Proof
open Machine
section

/-- Every field lies within its width, and the fields fit in 56 bits. -/
def FieldsFit (fs : List (Nat × Nat)) : Prop := (∀ f ∈ fs, f.2 < 2 ^ f.1) ∧ (fs.map Prod.fst).sum ≤ 56

theorem joinFields_lt {fs : List (Nat × Nat)} : ∀ {n}, (∀ f ∈ fs, f.2 < 2 ^ f.1) → (fs.map Prod.fst).sum ≤ n → joinFields fs n < 2 ^ n := by
  induction fs with
  | nil => exact fun _ _ => Nat.two_pow_pos _
  | cons f fs ih =>
    obtain ⟨w, x⟩ := f
    intro n hf hs
    rw [List.map_cons, List.sum_cons] at hs
    have hx : x + 1 ≤ 2 ^ w := hf (w, x) (by simp)
    have ht := ih (n := n - w) (fun g hg => hf g (by simp [hg])) (by omega)
    have hm := Nat.mul_le_mul_right (2 ^ (n - w)) hx
    rw [Nat.succ_mul, ← pow_add, Nat.add_sub_cancel' (by omega)] at hm
    simp only [joinFields]
    omega

theorem splitFields_joinFields {fs : List (Nat × Nat)} : ∀ {n}, (∀ f ∈ fs, f.2 < 2 ^ f.1) → (fs.map Prod.fst).sum ≤ n →
    splitFields (fs.map Prod.fst) n (joinFields fs n) = (fs.map Prod.snd, 0) := by
  induction fs with
  | nil => exact fun _ _ => rfl
  | cons f fs ih =>
    obtain ⟨w, x⟩ := f
    intro n hf hs
    rw [List.map_cons, List.sum_cons] at hs
    have hg : ∀ g ∈ fs, g.2 < 2 ^ g.1 := fun g hg => hf g (by simp [hg])
    have hlt : joinFields fs (n - w) < 2 ^ (n - w) := joinFields_lt hg (by omega)
    simp only [splitFields, joinFields, List.map_cons]
    rw [Nat.mul_comm, Nat.mul_add_mod, Nat.mod_eq_of_lt hlt, Nat.mul_add_div (Nat.two_pow_pos _), Nat.div_eq_of_lt hlt,
      Nat.add_zero, ih hg (by omega)]

theorem joinFields_splitFields {ws : List Nat} : ∀ {n v}, v < 2 ^ n → ws.sum ≤ n →
    joinFields (ws.zip (splitFields ws n v).1) n + (splitFields ws n v).2 = v := by
  induction ws with
  | nil => intro n v _ _; simp [splitFields, joinFields]
  | cons w ws ih =>
    intro n v hv hs
    rw [List.sum_cons] at hs
    have ht := ih (n := n - w) (Nat.mod_lt v (Nat.two_pow_pos _)) (by omega)
    simp only [splitFields, List.zip_cons_cons, joinFields, Nat.add_assoc, ht]
    exact Nat.div_add_mod' v _

/-- Some field of that width satisfies `P`; some fields of those widths do. -/
def SomeField (w : Nat) (P : Nat → Prop) : Prop := ∃ x, x < 2 ^ w ∧ P x
def SomeFields : List Nat → (List Nat → Prop) → Prop
  | [], P => P []
  | w :: ws, P => SomeField w fun x => SomeFields ws fun xs => P (x :: xs)

theorem someFields_splitFields {P : List Nat → Prop} {ws : List Nat} : ∀ {n v}, v < 2 ^ n → ws.sum ≤ n →
    P (splitFields ws n v).1 → SomeFields ws P := by
  induction ws generalizing P with
  | nil => exact fun _ _ h => h
  | cons w ws ih =>
    intro n v hv hs h
    rw [List.sum_cons] at hs
    refine ⟨v / 2 ^ (n - w), ?_, ih (n := n - w) (Nat.mod_lt v (Nat.two_pow_pos _)) (by omega) h⟩
    rw [Nat.div_lt_iff_lt_mul (Nat.two_pow_pos _), ← pow_add]
    rwa [Nat.add_sub_cancel' (by omega)]

theorem SomeFields.imp {P Q : List Nat → Prop} {ws : List Nat} (h : SomeFields ws P) (hpq : ∀ xs, P xs → Q xs) : SomeFields ws Q := by
  induction ws generalizing P Q with
  | nil => exact hpq _ h
  | cons w ws ih =>
    obtain ⟨x, hx, h⟩ := h
    exact ⟨x, hx, ih h fun xs => hpq (x :: xs)⟩
theorem SomeFields.exists {P : List Nat → Prop} {ws : List Nat} (h : SomeFields ws P) : ∃ xs, P xs := by
  induction ws generalizing P with
  | nil => exact ⟨_, h⟩
  | cons w ws ih =>
    obtain ⟨x, -, h⟩ := h
    obtain ⟨xs, h⟩ := ih h
    exact ⟨x :: xs, h⟩

/-- Fields that are packed are read as they were. -/
theorem withFields_joinFields {ws : List Nat} {fs : List (Nat × Nat)} {k : List Nat → Except Nat Instr} (hf : FieldsFit fs)
    (hws : fs.map Prod.fst = ws) : withFields ws (joinFields fs 56) k = k (fs.map Prod.snd) := by
  rw [← hws, withFields, splitFields_joinFields hf.1 hf.2]
  rfl

/-- What decodes is packed from the fields that it is read as. -/
theorem withFields_eq_ok {ws : List Nat} {ops : Nat} {k : List Nat → Except Nat Instr} {i : Instr} (hops : ops < 2 ^ 56)
    (h : withFields ws ops k = .ok i) (hs : ws.sum ≤ 56 := by decide) :
    SomeFields ws fun xs => joinFields (ws.zip xs) 56 = ops ∧ k xs = .ok i := by
  have hj := joinFields_splitFields hops hs
  rw [withFields] at h
  by_cases hr : (splitFields ws 56 ops).2 = 0
  · rw [if_pos hr] at h
    exact someFields_splitFields hops hs ⟨by rwa [hr] at hj, h⟩
  · rw [if_neg hr] at h
    cases h

/-! Fields as operands. -/

@[simp] theorem someFields_nil (P : List Nat → Prop) : SomeFields [] P ↔ P [] := .rfl
@[simp] theorem someFields_cons (w : Nat) (ws : List Nat) (P : List Nat → Prop) :
    SomeFields (w :: ws) P ↔ SomeField w fun x => SomeFields ws fun xs => P (x :: xs) := .rfl

variable {P : Nat → Prop}
theorem someField_fin {w n : Nat} (h : 2 ^ w = n) : SomeField w P ↔ ∃ x : Fin n, P x.val := by
  subst h
  exact ⟨fun ⟨x, hx, h⟩ => ⟨⟨x, hx⟩, h⟩, fun ⟨x, h⟩ => ⟨x.val, x.isLt, h⟩⟩
theorem someField_bv {w : Nat} : SomeField w P ↔ ∃ x : BitVec w, P x.toNat :=
  ⟨fun ⟨x, hx, h⟩ => ⟨BitVec.ofNatLT x hx, h⟩, fun ⟨x, h⟩ => ⟨x.toNat, x.isLt, h⟩⟩

/-- A flag; registers and codes of two to seven bits; wider fields. -/
@[simp] theorem someField_1 : SomeField 1 P ↔ ∃ b : Bool, P (bitN b) := by
  constructor
  · rintro ⟨x, hx, h⟩
    obtain rfl | rfl : x = 0 ∨ x = 1 := by omega
    exacts [⟨false, h⟩, ⟨true, h⟩]
  · rintro ⟨b, h⟩
    exact ⟨bitN b, by cases b <;> decide, h⟩
@[simp] theorem someField_2 : SomeField 2 P ↔ ∃ x : Fin 4, P x.val := someField_fin rfl
@[simp] theorem someField_3 : SomeField 3 P ↔ ∃ x : Fin 8, P x.val := someField_fin rfl
@[simp] theorem someField_4 : SomeField 4 P ↔ ∃ x : Fin 16, P x.val := someField_fin rfl
@[simp] theorem someField_5 : SomeField 5 P ↔ ∃ x : Fin 32, P x.val := someField_fin rfl
@[simp] theorem someField_6 : SomeField 6 P ↔ ∃ x : Fin 64, P x.val := someField_fin rfl
@[simp] theorem someField_7 : SomeField 7 P ↔ ∃ x : Fin 128, P x.val := someField_fin rfl
@[simp] theorem someField_wide (w : Nat) : SomeField (w + 8) P ↔ ∃ x : BitVec (w + 8), P x.toNat := someField_bv

@[simp] theorem r2_bitN (b : Bool) : (r2 (bitN b)).val = bitN b := by cases b <;> rfl
@[simp] theorem r2_val (x : Fin 2) : r2 x.val = x := by simp [r2]
@[simp] theorem r3_val (x : Fin 3) : r3 x.val = x := by simp [r3]
@[simp] theorem r4_val (x : Fin 4) : r4 x.val = x := by simp [r4]
@[simp] theorem r8_val (x : Fin 8) : r8 x.val = x := by simp [r8]
@[simp] theorem r16_val (x : Fin 16) : r16 x.val = x := by simp [r16]
@[simp] theorem r32_val (x : Fin 32) : r32 x.val = x := by simp [r32]
@[simp] theorem r64_val (x : Fin 64) : r64 x.val = x := by simp [r64]
@[simp] theorem r128_val (x : Fin 128) : r128 x.val = x := by simp [r128]
@[simp] theorem bv_toNat {n : Nat} (x : BitVec n) : bv n x.toNat = x := by simp [bv]
@[simp] theorem bv2_val (x : Fin 4) : (bv 2 x.val).toNat = x.val := Nat.mod_eq_of_lt x.isLt
@[simp] theorem bv4_val (x : Fin 16) : (bv 4 x.val).toNat = x.val := Nat.mod_eq_of_lt x.isLt
@[simp] theorem bv5_val (x : Fin 32) : (bv 5 x.val).toNat = x.val := Nat.mod_eq_of_lt x.isLt
@[simp] theorem ofNat512_toNat (x : BitVec 9) : (Fin.ofNat 512 x.toNat).val = x.toNat := Nat.mod_eq_of_lt x.isLt
@[simp] theorem decide_bitN (b : Bool) : decide (bitN b = 1) = b := by cases b <;> rfl
@[simp] theorem bitN_eq_zero (b : Bool) : bitN b = 0 ↔ b = false := by cases b <;> decide
@[simp] theorem bitN_eq_one (b : Bool) : bitN b = 1 ↔ b = true := by cases b <;> decide

end
end Sys2Proof

/-! Codes of operands (02:R53; 05:R108; 06:R133): each code is read as what it stands for, and stands for one thing. -/
namespace Sys2Proof
open Machine
section

theorem VW.code_lt (w : VW) : w.code < 4 := by cases w <;> decide
theorem Rnd.code_lt (r : Rnd) : r.code < 4 := by cases r <;> decide
theorem Fmt.code_lt (f : Fmt) : f.code < 16 := by cases f <;> decide
theorem SCond.code_lt (c : SCond) : c.code < 16 := by cases c <;> decide
theorem VCond.code_lt (c : VCond) : c.code < 16 := by cases c <;> decide

/-- The code as a field. -/
def VW.field (w : VW) : Fin 4 := ⟨w.code, w.code_lt⟩
def Rnd.field (r : Rnd) : Fin 4 := ⟨r.code, r.code_lt⟩
def Fmt.field (f : Fmt) : Fin 16 := ⟨f.code, f.code_lt⟩
def SCond.field (c : SCond) : Fin 16 := ⟨c.code, c.code_lt⟩
def VCond.field (c : VCond) : Fin 16 := ⟨c.code, c.code_lt⟩

@[simp] theorem VW.ofCode_code (w : VW) : VW.ofCode w.code = some w := by cases w <;> rfl
@[simp] theorem Rnd.ofCode_code (r : Rnd) : Rnd.ofCode r.code = some r := by cases r <;> rfl
@[simp] theorem Fmt.ofCode_code (f : Fmt) : Fmt.ofCode f.code = some f := by cases f <;> rfl
@[simp] theorem SCond.ofCode_code (c : SCond) : SCond.ofCode c.code = some c := by cases c <;> rfl
@[simp] theorem VCond.ofCode_code (c : VCond) : VCond.ofCode c.code = some c := by cases c <;> rfl

theorem VW.eq_field {x : Fin 4} {w : VW} (h : VW.ofCode x.val = some w) : x = w.field := by
  revert h; revert x; cases w <;> decide
theorem Rnd.eq_field {x : Fin 4} {r : Rnd} (h : Rnd.ofCode x.val = some r) : x = r.field := by
  revert h; revert x; cases r <;> decide
theorem Fmt.eq_field {x : Fin 16} {f : Fmt} (h : Fmt.ofCode x.val = some f) : x = f.field := by
  revert h; revert x; cases f <;> decide
theorem SCond.eq_field {x : Fin 16} {c : SCond} (h : SCond.ofCode x.val = some c) : x = c.field := by
  revert h; revert x; cases c <;> decide
theorem VCond.eq_field {x : Fin 16} {c : VCond} (h : VCond.ofCode x.val = some c) : x = c.field := by
  revert h; revert x; cases c <;> decide

/-- A FMT field is a format, or 0xF for none; it is the code of what it is read as. -/
theorem Fmt.isSome_ofCode (x : Fin 16) : x.val = 15 ∨ (Fmt.ofCode x.val).isSome = true := by revert x; decide
@[simp] theorem optFm_ofCode (x : Fin 16) : optFm (Fmt.ofCode x.val) = (4, x.val) := by revert x; decide
@[simp] theorem ofCode_optFm (f : Option Fmt) : Fmt.ofCode (optFm f).2 = f := by
  cases f with
  | none => rfl
  | some f => exact Fmt.ofCode_code f
theorem VW.field_injective {v w : VW} (h : v.field = w.field) : v = w := by
  have hv := VW.ofCode_code v
  rwa [show v.code = w.code from congrArg Fin.val h, VW.ofCode_code, Option.some.injEq, eq_comm] at hv
@[simp] theorem Rnd.code_eq_two (r : Rnd) : r.code = 2 ↔ r = .stoch := by cases r <;> decide
theorem RG.ok_iff (g : RG) : g.ok = true ↔ g.rnd = .stoch ∨ g.gs = 0 := by simp [RG.ok]
theorem floatOk_iff {e : VEn} {f : Fmt} {g : RG} : floatOk e f g = true ↔ e.ok = true ∧ floatPair f e.w = true ∧ g.ok = true := by
  simp [floatOk, and_assoc]

@[simp] theorem VW.field_val (w : VW) : w.field.val = w.code := rfl
@[simp] theorem Rnd.field_val (r : Rnd) : r.field.val = r.code := rfl
@[simp] theorem Fmt.field_val (f : Fmt) : f.field.val = f.code := rfl
@[simp] theorem SCond.field_val (c : SCond) : c.field.val = c.code := rfl
@[simp] theorem VCond.field_val (c : VCond) : c.field.val = c.code := rfl

variable {c : Nat} {i : Instr}

@[simp] theorem orElse_eq_ok {b : Bool} {x : Except Nat Instr} : orElse c b x = .ok i ↔ b = true ∧ x = .ok i := by
  cases b <;> simp [orElse]
@[simp] theorem errorElse_eq_ok {p : Prop} [Decidable p] {x : Except Nat Instr} :
    (if p then .error c else x) = Except.ok i ↔ ¬p ∧ x = .ok i := by
  by_cases hp : p <;> simp [hp]

/-! What a code that decodes stands for. -/
@[simp] theorem needVE_eq_ok {w : Fin 4} {b : Bool} {m : Fin 8} {k : VEn → Except Nat Instr} :
    needVE w.val (bitN b) m.val k = .ok i ↔ ∃ v : VW, w = v.field ∧ (⟨v, b, m⟩ : VEn).ok = true ∧ k ⟨v, b, m⟩ = .ok i := by
  constructor
  · intro h
    unfold needVE at h
    cases hw : VW.ofCode w.val with
    | none => rw [hw] at h; cases h
    | some v => rw [hw] at h; exact ⟨v, VW.eq_field hw, by simpa [VEn.ok] using h⟩
  · rintro ⟨v, rfl, he, hk⟩
    simpa [needVE, VEn.ok] using And.intro he hk

@[simp] theorem needFmt_eq_ok {f : Fin 16} {k : Fmt → Except Nat Instr} :
    needFmt f.val k = .ok i ↔ ∃ F : Fmt, f = F.field ∧ k F = .ok i := by
  constructor
  · intro h
    unfold needFmt at h
    cases hf : Fmt.ofCode f.val with
    | none => rw [hf] at h; cases h
    | some F => rw [hf] at h; exact ⟨F, Fmt.eq_field hf, h⟩
  · rintro ⟨F, rfl, hk⟩
    simpa [needFmt] using hk

@[simp] theorem needRG_eq_ok {r : Fin 4} {gs : Fin 16} {k : RG → Except Nat Instr} :
    needRG r.val gs.val k = .ok i ↔ ∃ R : Rnd, r = R.field ∧ (⟨R, gs⟩ : RG).ok = true ∧ k ⟨R, gs⟩ = .ok i := by
  constructor
  · intro h
    unfold needRG at h
    cases hr : Rnd.ofCode r.val with
    | none => rw [hr] at h; cases h
    | some R => rw [hr] at h; exact ⟨R, Rnd.eq_field hr, by simpa [RG.ok] using h⟩
  · rintro ⟨R, rfl, hg, hk⟩
    simpa [needRG, RG.ok] using And.intro hg hk

theorem needFRG_eq_ok {w : VW} {f gs : Fin 16} {r : Fin 4} {k : Fmt → RG → Except Nat Instr}
    (h : needFRG w f.val r.val gs.val k = .ok i) :
    ∃ (F : Fmt) (R : Rnd), f = F.field ∧ r = R.field ∧ floatPair F w = true ∧ (⟨R, gs⟩ : RG).ok = true ∧ k F ⟨R, gs⟩ = .ok i := by
  simp only [needFRG, errorElse_eq_ok, needFmt_eq_ok, orElse_eq_ok, needRG_eq_ok] at h
  obtain ⟨-, F, hF, hp, R, hR, hg, hk⟩ := h
  exact ⟨F, R, hF, hR, hp, hg, hk⟩

/-! The codes of operands that may stand together are read. -/
@[simp] theorem vbOf_fields (b : VB) : vbOf b.reg b.sx = b := by cases b <;> simp [vbOf, VB.reg, VB.sx]
@[simp] theorem needFmt_code (f : Fmt) (k : Fmt → Except Nat Instr) : needFmt f.code k = k f := by simp [needFmt]

theorem needVE_fields {e : VEn} (he : e.ok = true) (k : VEn → Except Nat Instr) : needVE e.w.code (bitN e.masked) e.m.val k = k e := by
  have hb : (e.masked || decide (e.m.val = 0)) = true := by simpa [VEn.ok] using he
  simp only [needVE, VW.ofCode_code, decide_bitN, hb, orElse, if_true, r8_val]

/-- GS is 0 unless RND is 0b10. -/
theorem not_stray_gs {g : RG} (hg : g.ok = true) : ¬(g.rnd.code ≠ 2 ∧ g.gs.val ≠ 0) := by
  rw [RG.ok_iff] at hg
  rintro ⟨hr, hgs⟩
  exact hgs (congrArg Fin.val (hg.resolve_left (mt (Rnd.code_eq_two _).2 hr)))

theorem needRG_fields {g : RG} (hg : g.ok = true) (k : RG → Except Nat Instr) : needRG g.rnd.code g.gs.val k = k g := by
  have hb : (decide (g.rnd = .stoch) || decide (g.gs.val = 0)) = true := by simpa [RG.ok] using hg
  simp only [needRG, Rnd.ofCode_code, hb, orElse, if_true, r16_val]

theorem needFRG_fields {w : VW} {f : Fmt} {g : RG} (hf : floatPair f w = true) (hg : g.ok = true) (k : Fmt → RG → Except Nat Instr) :
    needFRG w f.code g.rnd.code g.gs.val k = k f g := by
  rw [needFRG, if_neg (not_stray_gs hg), needFmt_code, hf, needRG_fields hg]
  rfl

end
end Sys2Proof

/-! A slot word that decodes is the word of the instruction (06:R129, R137). -/
namespace Sys2Proof
open Machine
section

/-- An instruction's slot, opcode and operand fields, and when it can be spelt. -/
structure Form (k : Nat) (iss : Issue) (op : Nat) (i : Instr) (ok : Bool) (fs : List (Nat × Nat)) : Prop where
  issue : issueOf i = some iss
  wf : WellFormed i = ok
  fields : slotFields i = some (k, op, fs)

/-- The instruction can be spelt, and these are its slot, opcode and operand bits. -/
structure Spells (k : Nat) (iss : Issue) (op ops : Nat) (i : Instr) : Prop where
  issue : issueOf i = some iss
  wf : WellFormed i = true
  word : ∃ fs, slotFields i = some (k, op, fs) ∧ joinFields fs 56 = ops

variable {k : Nat} {iss : Issue} {op ops : Nat} {i : Instr}

theorem Form.spells {ok : Bool} {fs : List (Nat × Nat)} (hf : Form k iss op i ok fs) (hok : ok = true) (hj : joinFields fs 56 = ops) :
    Spells k iss op ops i := ⟨hf.issue, hf.wf.trans hok, fs, hf.fields, hj⟩

@[simp] theorem VB.fields_vbOf (r : Fin 32) (b : Bool) : (vbOf r.val (bitN b)).fields = [(5, r.val), (1, bitN b)] := by
  cases b <;> simp [vbOf, bitN, VB.fields, VB.reg, VB.sx]

/-- A deadline's fields (06:R131). -/
theorem Dl.fields_dlOf {sel : Bool} {r : Fin 32} {d : BitVec 24} (h : dlOk (bitN sel) r.val d.toNat = true) :
    (dlOf (bitN sel) r.val d.toNat).fields = [(1, bitN sel), (5, r.val), (10, 0), (24, d.toNat)] := by
  cases sel <;> simp_all [dlOk, dlOf, Dl.fields, bitN]

variable (hops : ops < 2 ^ 56)
include hops

/-- The header of a vector instruction. -/
theorem vecFields_eq_ok {ws : List Nat} {k : VEn → List Nat → Except Nat Instr} (h : vecFields ws ops k = .ok i)
    (hs : (2 :: 1 :: 3 :: ws).sum ≤ 56 := by decide) :
    ∃ e : VEn, e.ok = true ∧ SomeFields ws fun xs => joinFields (e.fields ++ ws.zip xs) 56 = ops ∧ k e xs = .ok i := by
  have hf := withFields_eq_ok hops h hs
  simp only [someFields_cons, someField_1, someField_2, someField_3] at hf
  obtain ⟨w, b, m, hf⟩ := hf
  obtain ⟨v, rfl, he⟩ : ∃ v : VW, w = v.field ∧ (⟨v, b, m⟩ : VEn).ok = true := by
    obtain ⟨xs, -, hk⟩ := hf.exists
    obtain ⟨v, hv, he, -⟩ := needVE_eq_ok.1 hk
    exact ⟨v, hv, he⟩
  refine ⟨⟨v, b, m⟩, he, hf.imp fun xs ⟨hj, hk⟩ => ⟨hj, ?_⟩⟩
  obtain ⟨v', hv, -, hk⟩ := needVE_eq_ok.1 hk
  rwa [VW.field_injective hv]

/-- The zero header of an instruction without elements. -/
theorem bareFields_eq_ok {ws : List Nat} {k : List Nat → Except Nat Instr} (h : bareFields ws ops k = .ok i)
    (hs : (6 :: ws).sum ≤ 56 := by decide) : SomeFields ws fun xs => joinFields (bare ++ ws.zip xs) 56 = ops ∧ k xs = .ok i := by
  obtain ⟨z, -, hf⟩ := withFields_eq_ok hops h hs
  obtain ⟨xs, -, hk⟩ := hf.exists
  obtain rfl : z = 0 := by simpa using (orElse_eq_ok.1 hk).1
  exact hf.imp fun xs ⟨hj, hk⟩ => ⟨hj, (orElse_eq_ok.1 hk).2⟩

/-! The operands that several instructions share. -/

theorem vec3_spells {mk : VEn → Fin 32 → Fin 32 → VB → Instr} (h : (vec3 ops fun e d a b => .ok (mk e d a b)) = .ok i)
    (hmk : ∀ e d a b, Form k iss op (mk e d a b) e.ok (e.fields ++ [vr d, vr a] ++ b.fields) := by exact fun _ _ _ _ => ⟨rfl, rfl, rfl⟩) :
    Spells k iss op ops i := by
  obtain ⟨e, he, hf⟩ := vecFields_eq_ok hops h
  simp only [someFields_cons, someField_5, someField_1] at hf
  obtain ⟨d, a, b, sx, hj, hk⟩ := hf
  cases hk
  exact (hmk ..).spells he (by simpa [vr] using hj)

theorem vec3o_spells {mk : VEn → Fin 32 → Fin 32 → VB → Bool → Instr} (h : (vec3o ops fun e d a b o => .ok (mk e d a b o)) = .ok i)
    (hmk : ∀ e d a b o, Form k iss op (mk e d a b o) e.ok (e.fields ++ [vr d, vr a] ++ b.fields ++ [fl o]) := by
      exact fun _ _ _ _ _ => ⟨rfl, rfl, rfl⟩) : Spells k iss op ops i := by
  obtain ⟨e, he, hf⟩ := vecFields_eq_ok hops h
  simp only [someFields_cons, someField_5, someField_1] at hf
  obtain ⟨d, a, b, sx, o, hj, hk⟩ := hf
  cases hk
  exact (hmk ..).spells he (by simpa [vr, fl] using hj)

theorem vec3f_spells {mk : VEn → Fin 32 → Fin 32 → VB → Fmt → RG → Instr} (h : (vec3f ops fun e d a b f g => .ok (mk e d a b f g)) = .ok i)
    (hmk : ∀ e d a b f g, Form k iss op (mk e d a b f g) (floatOk e f g) (e.fields ++ [vr d, vr a] ++ b.fields ++ [fm f] ++ g.fields) := by
      exact fun _ _ _ _ _ _ => ⟨rfl, rfl, rfl⟩) : Spells k iss op ops i := by
  obtain ⟨e, he, hf⟩ := vecFields_eq_ok hops h
  simp only [someFields_cons, someField_5, someField_4, someField_2, someField_1] at hf
  obtain ⟨d, a, b, sx, f, r, gs, hj, hk⟩ := hf
  obtain ⟨F, R, rfl, rfl, hp, hg, hk⟩ := needFRG_eq_ok hk
  cases hk
  exact (hmk ..).spells (floatOk_iff.2 ⟨he, hp, hg⟩) (by simpa [vr, fm, RG.fields] using hj)

theorem vec2f_spells {mk : VEn → Fin 32 → Fin 32 → Fmt → RG → Instr} (h : (vec2f ops fun e d a f g => .ok (mk e d a f g)) = .ok i)
    (hmk : ∀ e d a f g, Form k iss op (mk e d a f g) (floatOk e f g) (e.fields ++ [vr d, vr a, fm f] ++ g.fields) := by
      exact fun _ _ _ _ _ => ⟨rfl, rfl, rfl⟩) : Spells k iss op ops i := by
  obtain ⟨e, he, hf⟩ := vecFields_eq_ok hops h
  simp only [someFields_cons, someField_5, someField_4, someField_2] at hf
  obtain ⟨d, a, f, r, gs, hj, hk⟩ := hf
  obtain ⟨F, R, rfl, rfl, hp, hg, hk⟩ := needFRG_eq_ok hk
  cases hk
  exact (hmk ..).spells (floatOk_iff.2 ⟨he, hp, hg⟩) (by simpa [vr, fm, RG.fields] using hj)

theorem vec3m_spells {mk : VEn → Fin 8 → Fin 8 → Fin 8 → Instr} (h : (vec3m ops fun e d a b => .ok (mk e d a b)) = .ok i)
    (hmk : ∀ e d a b, Form k iss op (mk e d a b) e.ok (e.fields ++ [mr d, mr a, mr b]) := by exact fun _ _ _ _ => ⟨rfl, rfl, rfl⟩) :
    Spells k iss op ops i := by
  obtain ⟨e, he, hf⟩ := vecFields_eq_ok hops h
  simp only [someFields_cons, someField_3] at hf
  obtain ⟨d, a, b, hj, hk⟩ := hf
  cases hk
  exact (hmk ..).spells he (by simpa [mr] using hj)

theorem vecSum_spells {mk : VEn → Fin 32 → Fin 32 → Fmt → RG → Bool → Bool → Instr}
    (h : (vecSum ops fun e d a f g o w => .ok (mk e d a f g o w)) = .ok i)
    (hmk : ∀ e d a f g o w, Form k iss op (mk e d a f g o w) (e.ok && anyPair f e.w && g.ok && (!w || decide (d.val ≤ 30)))
      (e.fields ++ [vr d, vr a, fm f] ++ g.fields ++ [fl o, fl w]) := by
      exact fun _ _ _ _ _ _ _ => ⟨rfl, rfl, rfl⟩) : Spells k iss op ops i := by
  obtain ⟨e, he, hf⟩ := vecFields_eq_ok hops h
  simp only [someFields_cons, someField_5, someField_4, someField_2, someField_1] at hf
  obtain ⟨d, a, f, r, gs, o, w, hj, hk⟩ := hf
  simp only [errorElse_eq_ok, needFmt_eq_ok, orElse_eq_ok, needRG_eq_ok] at hk
  obtain ⟨-, F, rfl, hp, R, rfl, hg, hd, hk⟩ := hk
  cases hk
  exact (hmk ..).spells (by simpa [he, hp, hg] using hd) (by simpa [vr, fm, fl, RG.fields] using hj)

theorem vecRank_spells {mk : VEn → Fin 32 → Fin 32 → Fmt → Instr} (h : (vecRank ops fun e d a f => .ok (mk e d a f)) = .ok i)
    (hmk : ∀ e d a f, Form k iss op (mk e d a f) (e.ok && anyPair f e.w && decide (d.val ≤ 30)) (e.fields ++ [vr d, vr a, fm f]) := by
      exact fun _ _ _ _ => ⟨rfl, rfl, rfl⟩) : Spells k iss op ops i := by
  obtain ⟨e, he, hf⟩ := vecFields_eq_ok hops h
  simp only [someFields_cons, someField_5, someField_4] at hf
  obtain ⟨d, a, f, hj, hk⟩ := hf
  simp only [needFmt_eq_ok, orElse_eq_ok] at hk
  obtain ⟨F, rfl, hp, hd, hk⟩ := hk
  cases hk
  exact (hmk ..).spells (by simpa [he, hp] using hd) (by simpa [vr, fm] using hj)

theorem scalarB_spells {mk : Fin 32 → Fin 32 → BOp → Instr} (h : (scalarB ops fun d a b => .ok (mk d a b)) = .ok i)
    (hmk : ∀ d a b, Form k iss op (mk d a b) true ([vr d, vr a] ++ b.fields) := by exact fun _ _ _ => ⟨rfl, rfl, rfl⟩) :
    Spells k iss op ops i := by
  have hf := withFields_eq_ok hops h
  simp only [someFields_cons, someField_5, someField_1, someField_wide] at hf
  obtain ⟨d, a, b, im, z, v, hj, hk⟩ := hf
  cases im with
  | false =>
    obtain ⟨hz, hk⟩ := orElse_eq_ok.1 hk
    cases hk
    exact (hmk ..).spells rfl (by simp_all [vr, BOp.fields, bitN])
  | true =>
    obtain ⟨hz, hk⟩ := orElse_eq_ok.1 hk
    cases hk
    exact (hmk ..).spells rfl (by simp_all [vr, BOp.fields, bitN])

theorem descSlot_spells {mk : BitVec 12 → Fin 32 → Fin 32 → Instr} (h : (descSlot ops fun d a b => .ok (mk d a b)) = .ok i)
    (hmk : ∀ d a b, Form k iss op (mk d a b) true [(12, d.toNat), vr a, vr b] := by exact fun _ _ _ => ⟨rfl, rfl, rfl⟩) :
    Spells k iss op ops i := by
  have hf := withFields_eq_ok hops h
  simp only [someFields_cons, someField_5, someField_wide] at hf
  obtain ⟨d, a, b, hj, hk⟩ := hf
  cases hk
  exact (hmk ..).spells rfl (by simpa [vr] using hj)

/-! The slots. -/

theorem decodeCtl_spells (h : decodeCtl iss op ops = .ok i) : Spells 0 iss op ops i := by
  unfold decodeCtl at h
  split at h
  case h_11 => cases h
  case h_7 =>
    have hf := withFields_eq_ok hops h
    simp only [someFields_cons, someField_6, someField_1, someField_3] at hf
    obtain ⟨c, e, s, hj, hk⟩ := hf
    simp only [orElse_eq_ok, bitN_eq_one, Bool.decide_eq_true] at hk
    obtain ⟨hs, hk⟩ := hk
    cases hk
    exact Form.spells (ok := e || s == 0) ⟨rfl, by simp only [r8_val]; rfl, rfl⟩ (by simpa using hs) (by simpa [fl] using hj)
  all_goals
    have hf := withFields_eq_ok hops h
    clear h
    simp [-Bool.exists_bool] at hf
    casesm* ∃ _, _, _ ∧ _
    subst_vars
    exact Form.spells ⟨rfl, rfl, rfl⟩ rfl (by simp only [vr, *])

theorem decodeSync_spells (h : decodeSync iss op ops = .ok i) : Spells 1 iss op ops i := by
  unfold decodeSync at h
  split at h
  case h_5 => cases h
  all_goals
    have hf := withFields_eq_ok hops h
    clear h
    simp [-Bool.exists_bool] at hf
    casesm* ∃ _, _, _ ∧ _
    subst_vars
  case h_1 hd => exact Form.spells ⟨rfl, rfl, rfl⟩ rfl (by rw [Dl.fields_dlOf hd]; simp [*])
  case h_2 hd _ _ => exact Form.spells ⟨rfl, rfl, rfl⟩ rfl (by rw [Dl.fields_dlOf hd]; simp [*])
  case h_3 hr => exact Form.spells ⟨rfl, rfl, rfl⟩ (decide_eq_true hr) (by simp only [vr])
  case h_4 => exact Form.spells ⟨rfl, rfl, rfl⟩ rfl rfl

theorem decodeSc_spells (h : decodeSc iss op ops = .ok i) : Spells 2 iss op ops i := by
  unfold decodeSc at h
  split at h
  case h_22 => cases h
  case h_3 | h_4 | h_5 | h_6 | h_7 | h_8 | h_9 | h_10 | h_12 | h_13 | h_14 | h_15 | h_16 | h_17 | h_18 => exact scalarB_spells hops h
  case h_11 =>
    have hf := withFields_eq_ok hops h
    simp only [someFields_cons, someField_5, someField_4, someField_1, someField_wide] at hf
    obtain ⟨d, a, b, im, c, z, v, hj, hk⟩ := hf
    cases hc : SCond.ofCode c.val with
    | none =>
      simp only [hc] at hk
      cases hk
    | some C =>
      obtain rfl := SCond.eq_field hc
      simp only [hc] at hk
      cases im with
      | false =>
        obtain ⟨hz, hk⟩ := orElse_eq_ok.1 hk
        cases hk
        exact Form.spells ⟨rfl, rfl, rfl⟩ rfl (by simp_all [vr, bitN])
      | true =>
        obtain ⟨hz, hk⟩ := orElse_eq_ok.1 hk
        cases hk
        exact Form.spells ⟨rfl, rfl, rfl⟩ rfl (by simp_all [vr, bitN])
  all_goals
    have hf := withFields_eq_ok hops h
    clear h
    simp [-Bool.exists_bool] at hf
    casesm* ∃ _, _, _ ∧ _
    subst_vars
    exact Form.spells ⟨rfl, rfl, rfl⟩ rfl (by simp only [vr, *])

theorem decodeHa_spells (h : decodeHa iss op ops = .ok i) : Spells 3 iss op ops i := by
  unfold decodeHa at h
  split at h
  case h_6 => cases h
  case h_2 | h_3 | h_4 | h_5 => exact descSlot_spells hops h
  case h_1 =>
    have hf := withFields_eq_ok hops h
    simp only [someFields_cons, someField_6, someField_1, someField_5, someField_wide] at hf
    obtain ⟨d, a, z, e, s, hj, hk⟩ := hf
    simp only [orElse_eq_ok, bitN_eq_one, Bool.decide_eq_true] at hk
    obtain ⟨hs, hk⟩ := hk
    cases hk
    exact Form.spells (ok := e || s == 0) ⟨rfl, by simp only [r64_val]; rfl, rfl⟩ (by simpa using And.right (by simpa using hs)) (by simp_all [fl, vr])

theorem decodeHd_spells (h : decodeHd iss op ops = .ok i) : Spells 4 iss op ops i := by
  unfold decodeHd at h
  split at h
  case h_4 => cases h
  case h_1 => exact descSlot_spells hops h
  case h_2 =>
    have hf := withFields_eq_ok hops h
    simp only [someFields_cons, someField_1, someField_wide] at hf
    obtain ⟨a, c, z, d, hj, hk⟩ := hf
    simp only [orElse_eq_ok, decide_eq_true_eq] at hk
    obtain ⟨hz, hd, hk⟩ := hk
    cases hk
    exact Form.spells (ok := decide (d.toNat % 32 = 0)) ⟨rfl, by simp only [bv_toNat]; rfl, rfl⟩ (decide_eq_true hd) (by simpa [hz, fl] using hj)
  case h_3 =>
    have hf := withFields_eq_ok hops h
    simp only [someFields_cons, someField_1, someField_5] at hf
    obtain ⟨a, s, hj, hk⟩ := hf
    cases hk
    exact Form.spells ⟨rfl, rfl, rfl⟩ rfl (by simpa [vr] using hj)

theorem decodeVl_spells (h : decodeVl iss op ops = .ok i) : Spells 6 iss op ops i := by
  unfold decodeVl at h
  split at h
  case h_4 => cases h
  case h_1 =>
    obtain ⟨e, he, hf⟩ := vecFields_eq_ok hops h
    simp only [someFields_cons, someField_5, someField_wide] at hf
    obtain ⟨d, a, hj, hk⟩ := hf
    obtain ⟨ha, hk⟩ := orElse_eq_ok.1 hk
    cases hk
    exact Form.spells (ok := e.ok && vldOk a.toNat) ⟨rfl, by simp only [bv_toNat]; rfl, rfl⟩ (by rw [he, ha]; rfl)
      (by simpa [vr] using hj)
  case h_2 =>
    obtain ⟨e, he, hf⟩ := vecFields_eq_ok hops h
    simp only [someFields_cons, someField_5, someField_wide] at hf
    obtain ⟨d, a, s, c, n, hj, hk⟩ := hf
    obtain ⟨ha, hk⟩ := orElse_eq_ok.1 hk
    cases hk
    refine Form.spells (ok := e.ok && decide (a.toNat % 64 = 0) && decide (d.val + n.val + 1 ≤ 32))
      ⟨rfl, by simp only [r32_val, bv_toNat]; rfl, rfl⟩ ?_ (by simpa [vr] using hj)
    rw [he, Bool.true_and, ha]
  case h_3 =>
    obtain ⟨e, he, hf⟩ := vecFields_eq_ok hops h
    simp only [someFields_cons, someField_3, someField_wide] at hf
    obtain ⟨d, a, hj, hk⟩ := hf
    obtain ⟨ha, hk⟩ := orElse_eq_ok.1 hk
    cases hk
    exact Form.spells (ok := e.ok && vldmOk e.w a.toNat) ⟨rfl, by simp only [bv_toNat]; rfl, rfl⟩ (by rw [he, ha]; rfl)
      (by simpa [mr] using hj)

theorem decodeVs_spells (h : decodeVs iss op ops = .ok i) : Spells 7 iss op ops i := by
  unfold decodeVs at h
  split at h
  case h_3 => cases h
  case h_1 =>
    obtain ⟨e, he, hf⟩ := vecFields_eq_ok hops h
    simp only [someFields_cons, someField_5, someField_wide] at hf
    obtain ⟨s, a, hj, hk⟩ := hf
    obtain ⟨ha, hk⟩ := orElse_eq_ok.1 hk
    cases hk
    exact Form.spells (ok := e.ok && vldOk a.toNat) ⟨rfl, by simp only [bv_toNat]; rfl, rfl⟩ (by rw [he, ha]; rfl)
      (by simpa [vr] using hj)
  case h_2 =>
    obtain ⟨e, he, hf⟩ := vecFields_eq_ok hops h
    simp only [someFields_cons, someField_3, someField_wide] at hf
    obtain ⟨m, a, hj, hk⟩ := hf
    obtain ⟨ha, hk⟩ := orElse_eq_ok.1 hk
    cases hk
    exact Form.spells (ok := e.ok && vldmOk e.w a.toNat) ⟨rfl, by simp only [bv_toNat]; rfl, rfl⟩ (by rw [he, ha]; rfl)
      (by simpa [mr] using hj)

theorem decodeVcvt_spells (h : decodeVcvt iss ops = .ok i) : Spells 5 iss 0x30 ops i := by
  obtain ⟨e, he, hf⟩ := vecFields_eq_ok hops h
  simp only [someFields_cons, someField_5, someField_4, someField_2, someField_1] at hf
  obtain ⟨vd, vs, fs, fd, os, od, r, sat, ovf, sp, sq, se, rc, gs, hj, hk⟩ := hf
  simp only [errorElse_eq_ok, needFmt_eq_ok, orElse_eq_ok, needRG_eq_ok, Bool.and_eq_true] at hk
  obtain ⟨-, S, rfl, D, rfl, ⟨hS, hD⟩, R, rfl, hg, ⟨hos, hod⟩, hk⟩ := hk
  cases hk
  refine Form.spells (ok := e.ok && (R == .stoch || gs == 0) && cvtFmt S && cvtFmt D && cvtOffOk S os.val && cvtOffOk D od.val)
    ⟨rfl, ?_, rfl⟩ ?_ ?_
  · simp only [r4_val]
    rfl
  · rw [he, hS, hD, hos, hod]
    simpa [RG.ok] using hg
  · simpa [vr, fl, fm, gn] using hj

theorem decodeVadamw_spells (h : decodeVadamw iss ops = .ok i) : Spells 5 iss 0x48 ops i := by
  obtain ⟨e, he, hf⟩ := vecFields_eq_ok hops h
  simp only [someFields_cons, someField_5, someField_4, someField_2, someField_1] at hf
  obtain ⟨va, vb, vc, vd, sb, fc, rm, satc, gs, rc, sk, hj, hk⟩ := hf
  simp only [orElse_eq_ok, Bool.and_eq_true, Bool.or_eq_true, decide_eq_true_eq, bitN_eq_zero] at hk
  obtain ⟨⟨hgs, hvd⟩, ⟨⟨hcopy, hrm⟩, hsome⟩, ⟨hsb, hrm'⟩, hk⟩ := hk
  cases hk
  have hvs : ((Fmt.ofCode fc.val).isSome || (vd == 0 && !satc)) = true := by
    obtain hfc | hfc := Fmt.isSome_ofCode fc
    · simpa using Or.inr (hvd.resolve_left (absurd hfc))
    · rw [hfc]
      rfl
  refine Form.spells (ok := e.ok && true && (decide (rm.val = 2) || gs == 0) && copyFmt (Fmt.ofCode fc.val)
    && ((Fmt.ofCode fc.val).isSome || (vd == 0 && !satc)) && decide (sb.val ≤ 21))
    (fs := e.fields ++ [vr va, vr vb, vr vc, vr vd, vr sb, optFm (Fmt.ofCode fc.val), (2, rm.val), fl satc, gn gs, (2, rc.val), fl sk])
    ⟨rfl, ?_, ?_⟩ ?_ ?_
  · simp only [r32_val, r16_val, decide_bitN]
    obtain rfl | rfl : rm = 0 ∨ rm = 2 := by omega
    · rfl
    · rfl
  · simp only [r32_val, r16_val, r4_val, decide_bitN]
    obtain rfl | rfl : rm = 0 ∨ rm = 2 := by omega
    · rfl
    · rfl
  · rw [he, hcopy, hvs, decide_eq_true hsb]
    simpa using hgs
  · simpa [vr, fl, gn] using hj

theorem decodeVx_spells (h : decodeVx iss op ops = .ok i) : Spells 5 iss op ops i := by
  unfold decodeVx at h
  split at h
  case h_58 => cases h
  case h_4 | h_5 | h_6 | h_8 | h_9 | h_10 | h_16 | h_17 => exact vec3_spells hops h
  case h_14 | h_15 | h_18 => exact vec3o_spells hops h
  case h_25 | h_26 | h_27 | h_29 | h_30 | h_33 => exact vec3f_spells hops h
  case h_34 | h_35 | h_36 | h_37 | h_38 => exact vec2f_spells hops h
  case h_20 | h_21 | h_22 => exact vec3m_spells hops h
  case h_44 | h_45 => exact vecSum_spells hops h
  case h_46 | h_47 => exact vecRank_spells hops h
  case h_39 => exact decodeVcvt_spells hops h
  case h_53 => exact decodeVadamw_spells hops h
  case h_1 | h_2 | h_3 | h_7 | h_23 | h_24 | h_40 | h_41 | h_42 | h_43 | h_49 | h_51 | h_52 =>
    obtain ⟨e, he, hf⟩ := vecFields_eq_ok hops h
    clear h
    simp [-Bool.exists_bool] at hf
    casesm* ∃ _, _, _ ∧ _
    subst_vars
    exact Form.spells ⟨rfl, rfl, rfl⟩ he (by simp only [vr, mr, gn])
  case h_31 | h_32 => 
    obtain ⟨e, he, hf⟩ := vecFields_eq_ok hops h
    simp only [someFields_cons, someField_5, someField_4] at hf
    obtain ⟨d, a, f, hj, hk⟩ := hf
    simp only [needFmt_eq_ok, orElse_eq_ok] at hk
    obtain ⟨F, rfl, hp, hk⟩ := hk
    cases hk
    exact Form.spells (ok := e.ok && floatPair F e.w) ⟨rfl, rfl, rfl⟩ (by rw [he, hp]; rfl) (by simpa [vr, fm] using hj)
  case h_11 =>
    obtain ⟨e, he, hf⟩ := vecFields_eq_ok hops h
    simp only [someFields_cons, someField_5, someField_wide] at hf
    obtain ⟨d, s, x, hj, hk⟩ := hf
    cases hk
    exact Form.spells ⟨rfl, rfl, rfl⟩ he (by rw [ofNat512_toNat]; simpa [vr] using hj)
  case h_12 =>
    obtain ⟨e, he, hf⟩ := vecFields_eq_ok hops h
    simp only [someFields_cons, someField_5, someField_wide] at hf
    obtain ⟨d, s, x, hj, hk⟩ := hf
    simp only [orElse_eq_ok, decide_eq_true_eq] at hk
    obtain ⟨hm, hx, hk⟩ := hk
    cases hk
    obtain ⟨w, m, r⟩ := e
    obtain ⟨rfl, rfl⟩ : m = false ∧ r = 0 := by simpa using hm
    refine Form.spells (ok := decide (x.toNat < w.lmax)) ⟨rfl, ?_, rfl⟩ (decide_eq_true hx) ?_
    · exact congrArg (fun y => decide (y < w.lmax)) (ofNat512_toNat x)
    · rw [ofNat512_toNat]
      simpa [vr, VEn.fields, bitN] using hj
  case h_28 =>
    obtain ⟨e, he, hf⟩ := vecFields_eq_ok hops h
    simp only [someFields_cons, someField_5, someField_4, someField_2] at hf
    obtain ⟨d, a, b, c, f, r, gs, hj, hk⟩ := hf
    obtain ⟨F, R, rfl, rfl, hp, hg, hk⟩ := needFRG_eq_ok hk
    cases hk
    exact Form.spells ⟨rfl, rfl, rfl⟩ (floatOk_iff.2 ⟨he, hp, hg⟩) (by simpa [vr, fm, RG.fields] using hj)
  case h_19 =>
    obtain ⟨e, he, hf⟩ := vecFields_eq_ok hops h
    simp only [someFields_cons, someField_5, someField_4, someField_3, someField_1] at hf
    obtain ⟨d, a, b, sx, f, c, hj, hk⟩ := hf
    cases hc : VCond.ofCode c.val with
    | none =>
      simp only [hc] at hk
      cases hk
    | some C =>
      obtain rfl := VCond.eq_field hc
      simp only [hc, needFmt_eq_ok, orElse_eq_ok] at hk
      obtain ⟨F, rfl, hp, hk⟩ := hk
      cases hk
      exact Form.spells (ok := e.ok && anyPair F e.w) ⟨rfl, rfl, rfl⟩ (by rw [he, hp]; rfl) (by simpa [vr, mr, fm] using hj)
  case h_48 =>
    obtain ⟨e, he, hf⟩ := vecFields_eq_ok hops h
    simp only [someFields_cons, someField_5, someField_4, someField_1] at hf
    obtain ⟨d, s, n, o, c, f, hj, hk⟩ := hf
    simp only [needFmt_eq_ok, orElse_eq_ok, Bool.and_eq_true] at hk
    obtain ⟨F, rfl, hp, ⟨h1, h2⟩, hk⟩ := hk
    cases hk
    exact Form.spells (ok := e.ok && anyPair F e.w && decide (1 ≤ (bv 5 n.val).toNat) && decide ((bv 5 n.val).toNat ≤ 16))
      ⟨rfl, rfl, rfl⟩ (by rw [bv5_val, he, hp, h1, h2]; rfl) (by simpa [vr, fm, fl] using hj)
  case h_50 =>
    obtain ⟨e, he, hf⟩ := vecFields_eq_ok hops h
    simp only [someFields_cons, someField_5, someField_4] at hf
    obtain ⟨d, g, hj, hk⟩ := hf
    obtain ⟨hd, hk⟩ := orElse_eq_ok.1 hk
    cases hk
    exact Form.spells (ok := e.ok && decide (d.val % 4 = 0)) ⟨rfl, by simp only [r32_val]; rfl, rfl⟩ (by rw [he, hd]; rfl)
      (by simpa [vr, gn] using hj)
  case h_13 =>
    have hf := bareFields_eq_ok hops h
    simp only [someFields_cons, someField_1, someField_5, someField_wide] at hf
    obtain ⟨im, a, n, hj, hk⟩ := hf
    obtain ⟨hd, hk⟩ := orElse_eq_ok.1 hk
    cases hk
    refine Form.spells (ok := if im then a == 0 else n == 0) ⟨rfl, by simp only [r32_val, bv_toNat, decide_bitN]; rfl, rfl⟩ ?_
      (by simpa [vr, fl] using hj)
    cases im with
    | true => simpa [bitN] using hd
    | false => simpa [bitN, BitVec.toNat_eq] using hd
  case h_54 =>
    have hf := bareFields_eq_ok hops h
    simp only [someFields_cons, someField_2, someField_1, someField_wide] at hf
    obtain ⟨rc, d, c, hj, hk⟩ := hf
    obtain ⟨hd, hk⟩ := orElse_eq_ok.1 hk
    cases hk
    exact Form.spells (ok := decide (d.toNat % 32 = 0)) ⟨rfl, by simp only [bv_toNat]; rfl, rfl⟩ hd (by simpa [fl] using hj)
  case h_55 =>
    have hf := bareFields_eq_ok hops h
    simp only [someFields_cons, someField_2, someField_4, someField_5] at hf
    obtain ⟨g, f, a, b, hj, hk⟩ := hf
    obtain ⟨hd, hk⟩ := orElse_eq_ok.1 hk
    cases hk
    refine Form.spells (ok := bv 2 f.val == 0 || bv 2 f.val == 3 || b == 0) ⟨rfl, by simp only [r32_val]; rfl, rfl⟩ ?_ (by simpa [vr, gn] using hj)
    simpa [BitVec.toNat_eq] using hd
  case h_56 =>
    have hf := bareFields_eq_ok hops h
    simp only [someFields_cons, someField_4, someField_5] at hf
    obtain ⟨g, a, b, hj, hk⟩ := hf
    cases hk
    exact Form.spells ⟨rfl, rfl, rfl⟩ rfl (by simpa [vr, gn] using hj)
  case h_57 =>
    have hf := bareFields_eq_ok hops h
    simp only [someFields_cons, someField_1, someField_4] at hf
    obtain ⟨a, g, hj, hk⟩ := hf
    cases hk
    exact Form.spells ⟨rfl, rfl, rfl⟩ rfl (by simpa [gn] using hj)
end
end Sys2Proof

/-! A stream word that decodes is the word of the instruction (08:R192). -/
namespace Sys2Proof
open Machine
section

/-- A stream instruction's opcode and operand fields, and when it can be spelt. -/
structure StreamForm (x : Ctx) (op : Nat) (i : Instr) (ok : Bool) (fs : List (Nat × Nat)) : Prop where
  ctx : ctxOf i = some x
  wf : WellFormed i = ok
  fields : streamFields i = some (op, fs)

/-- The stream instruction can be spelt, and these are its opcode and operand bits. -/
structure StreamSpells (x : Ctx) (op ops : Nat) (i : Instr) : Prop where
  ctx : ctxOf i = some x
  wf : WellFormed i = true
  word : ∃ fs, streamFields i = some (op, fs) ∧ joinFields fs 56 = ops

variable {x : Ctx} {op ops : Nat} {i : Instr}

theorem StreamForm.spells {ok : Bool} {fs : List (Nat × Nat)} (hf : StreamForm x op i ok fs) (hok : ok = true) (hj : joinFields fs 56 = ops) :
    StreamSpells x op ops i := ⟨hf.ctx, hf.wf.trans hok, fs, hf.fields, hj⟩

/-- A register field A that decodes names one of the three registers. -/
@[simp] theorem needA_eq_ok {a : Fin 4} {k : Fin 3 → Except Nat Instr} :
    needA a.val k = .ok i ↔ ∃ b : Fin 3, a = b.castSucc ∧ k b = .ok i := by
  rw [needA, orElse_eq_ok, decide_eq_true_eq]
  constructor
  · rintro ⟨ha, hk⟩
    exact ⟨⟨a.val, ha⟩, rfl, by rwa [← r3_val ⟨a.val, ha⟩]⟩
  · rintro ⟨b, rfl, hk⟩
    exact ⟨b.isLt, by rwa [Fin.val_castSucc, r3_val]⟩

variable (hops : ops < 2 ^ 56)
include hops

/-- GET and GETU operands that decode are the fields of what they are read as. -/
theorem getFields_spells {mk : GetOp → Instr} (h : (getFields ops fun o => .ok (mk o)) = .ok i)
    (hmk : ∀ o, StreamForm x op (mk o) true o.fields := by exact fun _ => ⟨rfl, rfl, rfl⟩) : StreamSpells x op ops i := by
  have hf := withFields_eq_ok hops h
  simp only [someFields_cons, someField_1, someField_2, someField_4, someField_wide] at hf
  obtain ⟨doff, p, o, f, rn, sat, ovf, na, wg, scl, xs, so, t, hj, hk⟩ := hf
  cases hr : Rnd.ofCode rn.val with
  | none =>
    simp only [hr] at hk
    cases hk
  | some r =>
    obtain rfl := Rnd.eq_field hr
    simp only [hr] at hk
    cases hk
    exact (hmk _).spells rfl (by simpa [GetOp.fields, fl] using hj)

/-- PUT operands that decode are the fields of what they are read as. -/
theorem putFields_spells (h : (putFields ops fun o => .ok (.put x o)) = .ok i) : StreamSpells x 0x0B ops i := by
  have hf := withFields_eq_ok hops h
  simp only [someFields_cons, someField_1, someField_2, someField_4, someField_wide] at hf
  obtain ⟨doff, p, o, f, fs, rn, sat, ovf, wg, qa, ca, cs, z, t, hj, hk⟩ := hf
  simp only [errorElse_eq_ok] at hk
  obtain ⟨hz, hk⟩ := hk
  split at hk
  case h_2 => cases hk
  next r s hr hs =>
  obtain rfl := Rnd.eq_field hr
  obtain rfl := Fmt.eq_field hs
  obtain ⟨hfmt, hk⟩ := orElse_eq_ok.1 hk
  cases hk
  obtain ⟨rfl, hca⟩ : z = 0 ∧ ca.val < 3 := by
    cases hd : Fmt.ofCode f.val with
    | none =>
      obtain ⟨hz, hca, -⟩ : z = 0 ∧ ca = 0 ∧ cs = 0 := by simpa [hd] using hz
      exact ⟨hz, by simp [hca]⟩
    | some d =>
      obtain ⟨⟨hz, h3⟩, h0⟩ : (z = 0 ∧ (d.isBlockOnly = true → ¬ca.val = 3)) ∧ (d.isBlockOnly = false → ca = 0 ∧ cs = 0) := by
        simpa [hd] using hz
      refine ⟨hz, ?_⟩
      cases hb : d.isBlockOnly with
      | true => have := h3 hb; omega
      | false => simp [(h0 hb).1]
  refine StreamForm.spells ⟨rfl, rfl, rfl⟩ ?_ ?_
  · change PutOp.ok _ = true
    cases hd : Fmt.ofCode f.val with
    | none =>
      obtain ⟨hca, hcs⟩ : ca = 0 ∧ cs = 0 := by simpa [hd] using hz
      rw [hca, hcs]
      rfl
    | some d =>
      have h0 : d.isBlockOnly = false → ca = 0 ∧ cs = 0 := And.right (by simpa [hd] using hz)
      have hm : (putSrc s && moveDst d) = true := by simpa [hd] using hfmt
      cases hb : d.isBlockOnly with
      | true => simpa [PutOp.ok, hb] using hm
      | false =>
        rw [(h0 hb).1, (h0 hb).2]
        simpa [PutOp.ok, hb, r3, bv] using hm
  · have hr3 : (r3 ca.val).val = ca.val := congrArg Fin.val (r3_val ⟨ca.val, hca⟩)
    induction qa using Fin.lastCases with
    | last => simpa [PutOp.fields, fl, fm, hr3] using hj
    | cast a => simpa [PutOp.fields, fl, fm, hr3, a.isLt.ne] using hj

omit hops in
theorem decodeStream_spells {w : Nat} (h : decodeStream x w = .ok i) : StreamSpells x (w / 2 ^ 56 % 256) (w % 2 ^ 56) i := by
  have hops : w % 2 ^ 56 < 2 ^ 56 := Nat.mod_lt _ (Nat.two_pow_pos _)
  unfold decodeStream at h
  generalize w % 2 ^ 56 = ops at h hops ⊢
  generalize w / 2 ^ 56 % 256 = op at h ⊢
  dsimp only at h
  split at h
  case h_20 => cases h
  case h_9 | h_10 => exact getFields_spells hops h
  case h_12 => exact putFields_spells hops h
  case h_1 | h_2 | h_3 | h_14 | h_15 | h_16 | h_19 =>
    have hf := withFields_eq_ok hops h
    clear h
    simp at hf
    casesm* ∃ _, _, _ ∧ _
    subst_vars
    exact StreamForm.spells ⟨rfl, rfl, rfl⟩ rfl rfl
  all_goals
    have hf := withFields_eq_ok hops h
    clear h
    simp [-Bool.exists_bool] at hf
    casesm* ∃ _, _, _ ∧ _
    subst_vars
    exact StreamForm.spells ⟨rfl, rfl, rfl⟩ rfl (by simp only [fl, *])

end
end Sys2Proof

/-! Decoding is exact. -/
namespace Sys2Proof
open Machine
section

/-- The opcode and the operand bits make up the word. -/
theorem word_eq {w : Nat} (hw : w < 2 ^ 64) : w / 2 ^ 56 % 256 * 2 ^ 56 + w % 2 ^ 56 = w := by
  rw [Nat.mod_eq_of_lt (by omega)]
  exact Nat.div_add_mod' w (2 ^ 56)

theorem decodeSlot_spells {iss : Issue} {k w : Nat} {i : Instr} (hk : k < 8) (hop : w / 2 ^ 56 % 256 ≠ 0) (h : decodeSlot iss k w = .ok i) :
    Spells k iss (w / 2 ^ 56 % 256) (w % 2 ^ 56) i := by
  have hops : w % 2 ^ 56 < 2 ^ 56 := Nat.mod_lt _ (Nat.two_pow_pos _)
  match k, hk with
  | 0, _ => exact decodeCtl_spells hops ((if_neg hop).symm.trans h)
  | 1, _ => exact decodeSync_spells hops ((if_neg hop).symm.trans h)
  | 2, _ => exact decodeSc_spells hops ((if_neg hop).symm.trans h)
  | 3, _ => exact decodeHa_spells hops ((if_neg hop).symm.trans h)
  | 4, _ => exact decodeHd_spells hops ((if_neg hop).symm.trans h)
  | 5, _ => exact decodeVx_spells hops ((if_neg hop).symm.trans h)
  | 6, _ => exact decodeVl_spells hops ((if_neg hop).symm.trans h)
  | 7, _ => exact decodeVs_spells hops ((if_neg hop).symm.trans h)

theorem Spells.encodeSlot {k w : Nat} {iss : Issue} {i : Instr} (hw : w < 2 ^ 64)
    (h : Spells k iss (w / 2 ^ 56 % 256) (w % 2 ^ 56) i) : encodeSlot i = some (k, w) := by
  obtain ⟨fs, hfs, hj⟩ := h.word
  rw [Sys2Proof.encodeSlot, hfs]
  simp only [hj, word_eq hw]

theorem StreamSpells.encodeStream {x : Ctx} {w : Nat} {i : Instr} (hw : w < 2 ^ 64)
    (h : StreamSpells x (w / 2 ^ 56 % 256) (w % 2 ^ 56) i) : encodeStream i = some w := by
  obtain ⟨fs, hfs, hj⟩ := h.word
  rw [Sys2Proof.encodeStream, hfs]
  simp only [hj, word_eq hw]

/-- Only word 0 has opcode 0 and decodes. -/
theorem decodeSlot_opcode_zero {iss : Issue} {k w : Nat} {i : Instr} (hw : w < 2 ^ 64) (hop : w / 2 ^ 56 % 256 = 0)
    (h : decodeSlot iss k w = .ok i) : i = .nop iss ∧ w = 0 := by
  replace h := (if_pos hop).symm.trans h
  by_cases hops : w % 2 ^ 56 = 0
  · rw [if_pos hops, Except.ok.injEq] at h
    exact ⟨h.symm, by omega⟩
  · rw [if_neg hops] at h
    cases h

/-- Settles O5: what a word decodes to was packed from the fields that it is read as. -/
theorem decodingIsExact : Obligations.DecodingIsExact := by
  refine ⟨fun iss k w i hk hw h => ?_, fun x w i hw h => ?_⟩
  · by_cases hop : w / 2 ^ 56 % 256 = 0
    · obtain ⟨rfl, rfl⟩ := decodeSlot_opcode_zero hw hop h
      exact ⟨rfl, rfl, .inl ⟨rfl, rfl⟩⟩
    · have hs := decodeSlot_spells hk hop h
      exact ⟨hs.issue, hs.wf, .inr (hs.encodeSlot hw)⟩
  · have hs := decodeStream_spells h
    exact ⟨hs.ctx, hs.wf, hs.encodeStream hw⟩

end
end Sys2Proof

/-! The word of a well-formed script instruction decodes to it (06:R129 to R133; 05:R108). -/
namespace Sys2Proof
open Machine
section

/-! Operands of several instructions, read from the fields that they are packed in. -/
variable {e : VEn}

theorem vec3_fields {d a : Fin 32} {b : VB} {k : VEn → Fin 32 → Fin 32 → VB → Except Nat Instr} (he : e.ok = true)
    (hfit : FieldsFit (e.fields ++ [vr d, vr a] ++ b.fields)) :
    vec3 (joinFields (e.fields ++ [vr d, vr a] ++ b.fields) 56) k = k e d a b := by
  unfold vec3
  refine (withFields_joinFields hfit rfl).trans ((needVE_fields he _).trans ?_)
  simp [vr, VB.fields]

theorem vec3o_fields {d a : Fin 32} {b : VB} {o : Bool} {k : VEn → Fin 32 → Fin 32 → VB → Bool → Except Nat Instr} (he : e.ok = true)
    (hfit : FieldsFit (e.fields ++ [vr d, vr a] ++ b.fields ++ [fl o])) :
    vec3o (joinFields (e.fields ++ [vr d, vr a] ++ b.fields ++ [fl o]) 56) k = k e d a b o := by
  unfold vec3o
  refine (withFields_joinFields hfit rfl).trans ((needVE_fields he _).trans ?_)
  simp [vr, fl, VB.fields]

theorem vec3f_fields {d a : Fin 32} {b : VB} {f : Fmt} {g : RG} {k : VEn → Fin 32 → Fin 32 → VB → Fmt → RG → Except Nat Instr}
    (hw : floatOk e f g = true) (hfit : FieldsFit (e.fields ++ [vr d, vr a] ++ b.fields ++ [fm f] ++ g.fields)) :
    vec3f (joinFields (e.fields ++ [vr d, vr a] ++ b.fields ++ [fm f] ++ g.fields) 56) k = k e d a b f g := by
  obtain ⟨he, hf, hg⟩ := floatOk_iff.1 hw
  unfold vec3f
  refine (withFields_joinFields hfit rfl).trans ((needVE_fields he _).trans ((needFRG_fields hf hg _).trans ?_))
  simp [vr]

theorem vec2f_fields {d a : Fin 32} {f : Fmt} {g : RG} {k : VEn → Fin 32 → Fin 32 → Fmt → RG → Except Nat Instr}
    (hw : floatOk e f g = true) (hfit : FieldsFit (e.fields ++ [vr d, vr a, fm f] ++ g.fields)) :
    vec2f (joinFields (e.fields ++ [vr d, vr a, fm f] ++ g.fields) 56) k = k e d a f g := by
  obtain ⟨he, hf, hg⟩ := floatOk_iff.1 hw
  unfold vec2f
  refine (withFields_joinFields hfit rfl).trans ((needVE_fields he _).trans ((needFRG_fields hf hg _).trans ?_))
  simp [vr]

theorem vec3m_fields {d a b : Fin 8} {k : VEn → Fin 8 → Fin 8 → Fin 8 → Except Nat Instr} (he : e.ok = true)
    (hfit : FieldsFit (e.fields ++ [mr d, mr a, mr b])) : vec3m (joinFields (e.fields ++ [mr d, mr a, mr b]) 56) k = k e d a b := by
  unfold vec3m
  refine (withFields_joinFields hfit rfl).trans ((needVE_fields he _).trans ?_)
  simp [mr]



theorem vecSum_fields {d a : Fin 32} {f : Fmt} {g : RG} {o w : Bool} {k : VEn → Fin 32 → Fin 32 → Fmt → RG → Bool → Bool → Except Nat Instr}
    (hw : (e.ok && anyPair f e.w && g.ok && (!w || decide (d.val ≤ 30))) = true)
    (hfit : FieldsFit (e.fields ++ [vr d, vr a, fm f] ++ g.fields ++ [fl o, fl w])) :
    vecSum (joinFields (e.fields ++ [vr d, vr a, fm f] ++ g.fields ++ [fl o, fl w]) 56) k = k e d a f g o w := by
  simp only [Bool.and_eq_true] at hw
  obtain ⟨⟨⟨he, hp⟩, hg⟩, hd⟩ := hw
  have hd' : (decide (bitN w = 0) || decide (d.val ≤ 30)) = true := by simpa using hd
  unfold vecSum
  refine (withFields_joinFields hfit rfl).trans ((needVE_fields he _).trans ((if_neg (not_stray_gs hg)).trans
    ((needFmt_code f _).trans ((if_pos hp).trans ((needRG_fields hg _).trans ((if_pos hd').trans ?_))))))
  simp [vr, fl]

theorem vecRank_fields {d a : Fin 32} {f : Fmt} {k : VEn → Fin 32 → Fin 32 → Fmt → Except Nat Instr}
    (hw : (e.ok && anyPair f e.w && decide (d.val ≤ 30)) = true) (hfit : FieldsFit (e.fields ++ [vr d, vr a, fm f])) :
    vecRank (joinFields (e.fields ++ [vr d, vr a, fm f]) 56) k = k e d a f := by
  simp only [Bool.and_eq_true] at hw
  obtain ⟨⟨he, hp⟩, hd⟩ := hw
  unfold vecRank
  refine (withFields_joinFields hfit rfl).trans ((needVE_fields he _).trans ((needFmt_code f _).trans ((if_pos hp).trans
    ((if_pos hd).trans ?_))))
  simp [vr]

theorem scalarB_fields {d a : Fin 32} {b : BOp} {k : Fin 32 → Fin 32 → BOp → Except Nat Instr} (hfit : FieldsFit ([vr d, vr a] ++ b.fields)) :
    scalarB (joinFields ([vr d, vr a] ++ b.fields) 56) k = k d a b := by
  unfold scalarB
  cases b with
  | reg r =>
    refine (withFields_joinFields hfit rfl).trans ?_
    simp [vr, orElse, BOp.fields]
  | imm v =>
    refine (withFields_joinFields hfit rfl).trans ?_
    simp [vr, orElse, BOp.fields]

theorem descSlot_fields {d : BitVec 12} {a b : Fin 32} {k : BitVec 12 → Fin 32 → Fin 32 → Except Nat Instr}
    (hfit : FieldsFit [(12, d.toNat), vr a, vr b]) : descSlot (joinFields [(12, d.toNat), vr a, vr b] 56) k = k d a b := by
  unfold descSlot
  refine (withFields_joinFields hfit rfl).trans ?_
  simp [vr]

/-- VCVT's and VADAMW's operands. -/
theorem decodeVcvt_fields {iss : Issue} {o : VCvtOp} (hw : WellFormed (.vcvt iss e o) = true)
    (hfit : FieldsFit (e.fields ++ [vr o.vd, vr o.vs, fm o.fmtS, fm o.fmtD, (2, o.offS.val),
      (2, o.offD.val), (2, o.rnd.code), fl o.sat, fl o.ovf, vr o.sp, vr o.sq, vr o.se, (2, o.rc.val), gn o.gs])) :
    decodeVcvt iss (joinFields (e.fields ++ [vr o.vd, vr o.vs, fm o.fmtS, fm o.fmtD, (2, o.offS.val),
      (2, o.offD.val), (2, o.rnd.code), fl o.sat, fl o.ovf, vr o.sp, vr o.sq, vr o.se, (2, o.rc.val), gn o.gs]) 56) = .ok (.vcvt iss e o) := by
  simp only [WellFormed, Bool.and_eq_true] at hw
  obtain ⟨⟨⟨⟨⟨he, hg⟩, hs⟩, hd⟩, hos⟩, hod⟩ := hw
  have hg : (⟨o.rnd, o.gs⟩ : RG).ok = true := hg
  unfold decodeVcvt
  refine (withFields_joinFields hfit rfl).trans ((needVE_fields he _).trans ((if_neg (not_stray_gs hg)).trans
    ((needFmt_code _ _).trans ((needFmt_code _ _).trans ((if_pos (Bool.and_eq_true_iff.2 ⟨hs, hd⟩)).trans ((needRG_fields hg _).trans
      ((if_pos (Bool.and_eq_true_iff.2 ⟨hos, hod⟩)).trans ?_)))))))
  simp [vr, fl]

theorem decodeVadamw_fields {iss : Issue} {o : VAdamOp} (hw : WellFormed (.vadamw iss e o) = true)
    (hfit : FieldsFit (e.fields ++ [vr o.va, vr o.vb, vr o.vc, vr o.vd, vr o.sb, optFm o.fmtC, (2, o.rndm.code), fl o.satc, gn o.gs,
      (2, o.rc.val), fl o.skipnf])) :
    decodeVadamw iss (joinFields (e.fields ++ [vr o.va, vr o.vb, vr o.vc, vr o.vd, vr o.sb, optFm o.fmtC, (2, o.rndm.code), fl o.satc, gn o.gs,
      (2, o.rc.val), fl o.skipnf]) 56) = .ok (.vadamw iss e o) := by
  simp only [WellFormed, Bool.and_eq_true] at hw
  obtain ⟨⟨⟨⟨⟨he, hr⟩, hgs⟩, hcopy⟩, hvd⟩, hsb⟩ := hw
  unfold decodeVadamw
  refine (withFields_joinFields hfit rfl).trans ((needVE_fields he _).trans ?_)
  obtain ⟨h3, h1, hrnd⟩ : ¬o.rndm.code = 3 ∧ ¬o.rndm.code = 1 ∧ (if o.rndm = .stoch then Rnd.stoch else Rnd.near) = o.rndm := by
    revert hr
    cases o.rndm <;> decide
  have hgs : o.rndm = .stoch ∨ o.gs = 0 := by simpa using hgs
  have hsb : o.sb.val ≤ 21 := of_decide_eq_true hsb
  obtain ⟨hcode, hraw⟩ : (¬(optFm o.fmtC).2 = 15 ∨ o.vd = 0 ∧ o.satc = false) ∧ ((optFm o.fmtC).2 = 15 ∨ o.fmtC.isSome = true) := by
    cases hc : o.fmtC with
    | none => exact ⟨.inr (by simpa [hc] using hvd), .inl rfl⟩
    | some f => exact ⟨.inl (by cases f <;> decide), .inr rfl⟩
  simp [vr, fl, gn, orElse, h3, h1, hgs, hsb, hcopy, hrnd, hcode, hraw]

/-! The slots. -/
variable {i : Instr} {iss : Issue} {op : Nat} {fs : List (Nat × Nat)} (hi : issueOf i = some iss) (hw : WellFormed i = true)
  (hfit : FieldsFit fs)
include hi hw hfit

theorem decodeCtl_slotFields (h : slotFields i = some (0, op, fs)) : decodeCtl iss op (joinFields fs 56) = .ok i := by
  cases i
  case scmp j c d a y => cases y <;> cases h
  case halt | sbret | ppoint =>
    cases h
    cases hi
    rw [decodeCtl]
    exact withFields_joinFields hfit rfl
  case jmp | brz | brnz | loop | loopr | sbreg =>
    cases h
    cases hi
    rw [decodeCtl]
    refine (withFields_joinFields hfit rfl).trans ?_
    simp [vr, orElse]
  case cwait =>
    cases h
    cases hi
    rw [decodeCtl]
    refine (withFields_joinFields hfit rfl).trans ((if_pos ?_).trans ?_)
    · simpa [fl, WellFormed] using hw
    · simp [fl]
  all_goals cases h

theorem decodeSync_slotFields (h : slotFields i = some (1, op, fs)) : decodeSync iss op (joinFields fs 56) = .ok i := by
  cases i
  case scmp j c d a y => cases y <;> cases h
  case cret j s b c d =>
    cases h
    cases hi
    rw [decodeSync]
    cases d <;> exact (withFields_joinFields hfit rfl).trans (by simp [orElse, dlOk, dlOf, Dl.fields])
  case carm j c p d =>
    cases h
    cases hi
    rw [decodeSync]
    cases d <;> exact (withFields_joinFields hfit rfl).trans (by simp [orElse, dlOk, dlOf, Dl.fields])
  case cpost =>
    cases h
    cases hi
    rw [decodeSync]
    refine (withFields_joinFields hfit rfl).trans ((if_pos hw).trans ?_)
    simp [vr]
  case cdrop =>
    cases h
    cases hi
    rw [decodeSync]
    refine (withFields_joinFields hfit rfl).trans ?_
    simp
  all_goals cases h

theorem decodeSc_slotFields (h : slotFields i = some (2, op, fs)) : decodeSc iss op (joinFields fs 56) = .ok i := by
  cases i
  case scmp j c d a y =>
    cases y <;> cases h <;> cases hi
    all_goals
      rw [decodeSc]
      exact (withFields_joinFields hfit rfl).trans (by simp [orElse, vr])
  case sadd | ssub | sand | sor | sxor | sshl | sshr | ssra | smul | sfadd | sfsub | sfmul | sffma | sfmin | sfmax =>
    cases h
    cases hi
    rw [decodeSc, scalarB_fields hfit]
  case sli | smov | sld | sst | scyc =>
    cases h
    cases hi
    rw [decodeSc]
    refine (withFields_joinFields hfit rfl).trans ?_
    simp [vr, orElse]
  all_goals cases h

theorem decodeHa_slotFields (h : slotFields i = some (3, op, fs)) : decodeHa iss op (joinFields fs 56) = .ok i := by
  cases i
  case scmp j c d a y => cases y <;> cases h
  case hmul | preload | hsave | hrestore =>
    cases h
    cases hi
    rw [decodeHa, descSlot_fields hfit]
  case hload =>
    cases h
    cases hi
    rw [decodeHa]
    refine (withFields_joinFields hfit rfl).trans ((if_pos ?_).trans ?_)
    · simpa [fl, WellFormed] using hw
    · simp [fl, vr]
  all_goals cases h

theorem decodeHd_slotFields (h : slotFields i = some (4, op, fs)) : decodeHd iss op (joinFields fs 56) = .ok i := by
  cases i
  case scmp j c d a y => cases y <;> cases h
  case hdrain =>
    cases h
    cases hi
    rw [decodeHd, descSlot_fields hfit]
  case hamax =>
    cases h
    cases hi
    rw [decodeHd]
    refine (withFields_joinFields hfit rfl).trans ((if_pos (decide_eq_true rfl)).trans ((if_pos hw).trans ?_))
    simp [fl]
  case hdparam =>
    cases h
    cases hi
    rw [decodeHd]
    refine (withFields_joinFields hfit rfl).trans ?_
    simp [vr]
  all_goals cases h

theorem decodeVl_slotFields (h : slotFields i = some (6, op, fs)) : decodeVl iss op (joinFields fs 56) = .ok i := by
  cases i
  case scmp j c d a y => cases y <;> cases h
  case vld | vldm =>
    cases h
    cases hi
    obtain ⟨he, ha⟩ := Bool.and_eq_true_iff.1 hw
    rw [decodeVl]
    refine (withFields_joinFields hfit rfl).trans ((needVE_fields he _).trans ((if_pos ha).trans ?_))
    simp [vr, mr]
  case vldt =>
    cases h
    cases hi
    obtain ⟨hw, hn⟩ := Bool.and_eq_true_iff.1 hw
    obtain ⟨he, ha⟩ := Bool.and_eq_true_iff.1 hw
    rw [decodeVl]
    refine (withFields_joinFields hfit rfl).trans ((needVE_fields he _).trans ((if_pos (Bool.and_eq_true_iff.2 ⟨ha, hn⟩)).trans ?_))
    simp [vr]
  all_goals cases h

theorem decodeVs_slotFields (h : slotFields i = some (7, op, fs)) : decodeVs iss op (joinFields fs 56) = .ok i := by
  cases i
  case scmp j c d a y => cases y <;> cases h
  case vst | vstm =>
    cases h
    cases hi
    obtain ⟨he, ha⟩ := Bool.and_eq_true_iff.1 hw
    rw [decodeVs]
    refine (withFields_joinFields hfit rfl).trans ((needVE_fields he _).trans ((if_pos ha).trans ?_))
    simp [vr, mr]
  all_goals cases h

theorem decodeVx_slotFields (h : slotFields i = some (5, op, fs)) : decodeVx iss op (joinFields fs 56) = .ok i := by
  cases i
  case scmp j c d a y => cases y <;> cases h
  case vand | vor | vxor | vshl | vshr | vsra | vimin | vimax =>
    cases h
    cases hi
    rw [decodeVx, vec3_fields hw hfit]
  case viadd | visub | vimul =>
    cases h
    cases hi
    rw [decodeVx, vec3o_fields hw hfit]
  case vadd | vsub | vmul | vmin | vmax | vdiv =>
    cases h
    cases hi
    rw [decodeVx, vec3f_fields hw hfit]
  case vsqrt | vrsqrt | vrecip | vexp2 | vlog2 =>
    cases h
    cases hi
    rw [decodeVx, vec2f_fields hw hfit]
  case vmand | vmor | vmxor =>
    cases h
    cases hi
    rw [decodeVx, vec3m_fields hw hfit]
  case vrsum | vrssq =>
    cases h
    cases hi
    rw [decodeVx, vecSum_fields hw hfit]
  case vrmax | vrmin =>
    cases h
    cases hi
    rw [decodeVx, vecRank_fields hw hfit]
  case vmov | vbcast | viota | vnot | vpopc | vperm | vcompress | vexpand | vcidx | vrand | vrandu | vrandm | vsmv =>
    cases h
    cases hi
    rw [decodeVx]
    refine (withFields_joinFields hfit rfl).trans ((needVE_fields hw _).trans ?_)
    simp [vr, mr, gn]
  case vmnot =>
    cases h
    cases hi
    rw [decodeVx, vec2m]
    refine (withFields_joinFields hfit rfl).trans ((needVE_fields hw _).trans ?_)
    simp [mr]
  case vmvs j w d s x =>
    cases h
    cases hi
    have he : (⟨w, false, 0⟩ : VEn).ok = true := rfl
    rw [decodeVx]
    exact (withFields_joinFields hfit rfl).trans ((needVE_fields he _).trans ((if_pos rfl).trans ((if_pos hw).trans (by simp [vr]))))
  case vabs | vneg =>
    cases h
    cases hi
    obtain ⟨he, hp⟩ := Bool.and_eq_true_iff.1 hw
    rw [decodeVx]
    refine (withFields_joinFields hfit rfl).trans ((needVE_fields he _).trans ((needFmt_code _ _).trans ((if_pos hp).trans ?_)))
    simp [vr]
  case vcmp j e d a b f c =>
    cases h
    cases hi
    obtain ⟨he, hp⟩ := Bool.and_eq_true_iff.1 hw
    rw [decodeVx]
    refine (withFields_joinFields hfit rfl).trans ((needVE_fields he _).trans ?_)
    simp [VB.fields, mr, vr, fm, hp, orElse]
  case vfma =>
    cases h
    cases hi
    obtain ⟨he, hf, hg⟩ := floatOk_iff.1 hw
    rw [decodeVx]
    refine (withFields_joinFields hfit rfl).trans ((needVE_fields he _).trans ((needFRG_fields hf hg _).trans ?_))
    simp [vr]
  case vrtopk =>
    cases h
    cases hi
    obtain ⟨hw, hk2⟩ := Bool.and_eq_true_iff.1 hw
    obtain ⟨hw, hk1⟩ := Bool.and_eq_true_iff.1 hw
    obtain ⟨he, hp⟩ := Bool.and_eq_true_iff.1 hw
    rw [decodeVx]
    refine (withFields_joinFields hfit rfl).trans ((needVE_fields he _).trans ((needFmt_code _ _).trans ((if_pos hp).trans
      ((if_pos (Bool.and_eq_true_iff.2 ⟨hk1, hk2⟩)).trans ?_))))
    simp [vr, fl]
  case vrand4 =>
    cases h
    cases hi
    obtain ⟨he, hd⟩ := Bool.and_eq_true_iff.1 hw
    rw [decodeVx]
    refine (withFields_joinFields hfit rfl).trans ((needVE_fields he _).trans ((if_pos hd).trans ?_))
    simp [vr, gn]
  case vsetlen j im a n =>
    cases h
    cases hi
    rw [decodeVx]
    refine (withFields_joinFields hfit rfl).trans ((if_pos rfl).trans ((if_pos ?_).trans ?_))
    · cases im with
      | true => simpa [WellFormed, fl, bitN, vr] using hw
      | false => simpa [WellFormed, fl, bitN, BitVec.toNat_eq] using hw
    · simp [fl, vr]
  case vamax =>
    cases h
    cases hi
    rw [decodeVx]
    refine (withFields_joinFields hfit rfl).trans ((if_pos rfl).trans ((if_pos hw).trans ?_))
    simp [fl]
  case vgset j g f a b =>
    cases h
    cases hi
    rw [decodeVx]
    refine (withFields_joinFields hfit rfl).trans ((if_pos rfl).trans ((if_pos ?_).trans ?_))
    · simpa [WellFormed, vr, BitVec.toNat_eq] using hw
    · simp [vr, gn]
  case vgget | vgbind =>
    cases h
    cases hi
    rw [decodeVx]
    refine (withFields_joinFields hfit rfl).trans ((if_pos rfl).trans ?_)
    simp [vr, gn]
  case vcvt =>
    cases h
    cases hi
    rw [decodeVx, decodeVcvt_fields hw hfit]
  case vadamw =>
    cases h
    cases hi
    rw [decodeVx]
    exact decodeVadamw_fields hw hfit
  all_goals cases h

end
end Sys2Proof

/-! The operands of every script instruction fit in a word (06:R130 to R133; 05:R108). -/
namespace Sys2Proof
open Machine
section

/-- Every command that issues on a core, but NOP, has a slot and a word. -/
theorem slotFields_isSome {i : Instr} (hn : ∀ j, i ≠ .nop j) : (slotFields i).isSome = (issueOf i).isSome := by
  cases i
  case nop j => exact absurd rfl (hn j)
  case scmp j c d a y => cases y <;> rfl
  all_goals rfl

/-- A field lies within its width. -/
def fieldFits (f : Nat × Nat) : Bool := decide (f.2 < 2 ^ f.1)

@[simp] theorem fieldFits_zero (w : Nat) : fieldFits (w, 0) = true := decide_eq_true (Nat.two_pow_pos w)
@[simp] theorem fieldFits_one : fieldFits (1, 1) = true := rfl
@[simp] theorem fieldFits_bv {w : Nat} (x : BitVec w) : fieldFits (w, x.toNat) = true := decide_eq_true x.isLt
@[simp] theorem fieldFits_r2 (x : Fin 2) : fieldFits (1, x.val) = true := decide_eq_true x.isLt
@[simp] theorem fieldFits_r4 (x : Fin 4) : fieldFits (2, x.val) = true := decide_eq_true x.isLt
@[simp] theorem fieldFits_r8 (x : Fin 8) : fieldFits (3, x.val) = true := decide_eq_true x.isLt
@[simp] theorem fieldFits_r16 (x : Fin 16) : fieldFits (4, x.val) = true := decide_eq_true x.isLt
@[simp] theorem fieldFits_r32 (x : Fin 32) : fieldFits (5, x.val) = true := decide_eq_true x.isLt
@[simp] theorem fieldFits_r64 (x : Fin 64) : fieldFits (6, x.val) = true := decide_eq_true x.isLt
@[simp] theorem fieldFits_r128 (x : Fin 128) : fieldFits (7, x.val) = true := decide_eq_true x.isLt
@[simp] theorem fieldFits_r512 (x : Fin 512) : fieldFits (9, x.val) = true := decide_eq_true x.isLt
@[simp] theorem fieldFits_bitN (b : Bool) : fieldFits (1, bitN b) = true := by cases b <;> rfl
@[simp] theorem fieldFits_vwCode (w : VW) : fieldFits (2, w.code) = true := decide_eq_true w.code_lt
@[simp] theorem fieldFits_rndCode (r : Rnd) : fieldFits (2, r.code) = true := decide_eq_true r.code_lt
@[simp] theorem fieldFits_fmtCode (f : Fmt) : fieldFits (4, f.code) = true := decide_eq_true f.code_lt
@[simp] theorem fieldFits_scondCode (c : SCond) : fieldFits (4, c.code) = true := decide_eq_true c.code_lt
@[simp] theorem fieldFits_vcondCode (c : VCond) : fieldFits (4, c.code) = true := decide_eq_true c.code_lt
@[simp] theorem fieldFits_optFm (f : Option Fmt) : fieldFits (optFm f) = true := by
  cases f with
  | none => rfl
  | some f => exact fieldFits_fmtCode f
@[simp] theorem fieldFits_fields (e : VEn) : e.fields.all fieldFits = true := by simp [VEn.fields]
@[simp] theorem fieldFits_vbFields (b : VB) : b.fields.all fieldFits = true := by cases b <;> simp [VB.fields, VB.reg, VB.sx]
@[simp] theorem fieldFits_rgFields (g : RG) : g.fields.all fieldFits = true := by simp [RG.fields]
@[simp] theorem fieldFits_bopFields (b : BOp) : b.fields.all fieldFits = true := by cases b <;> simp [BOp.fields]
@[simp] theorem fieldFits_dlFields (d : Dl) : d.fields.all fieldFits = true := by cases d <;> simp [Dl.fields]
@[simp] theorem VEn.fields_sum (e : VEn) : (e.fields.map Prod.fst).sum = 6 := rfl
@[simp] theorem VB.fields_sum (b : VB) : (b.fields.map Prod.fst).sum = 6 := rfl
@[simp] theorem RG.fields_sum (g : RG) : (g.fields.map Prod.fst).sum = 6 := rfl
@[simp] theorem BOp.fields_sum (b : BOp) : (b.fields.map Prod.fst).sum = 46 := by cases b <;> rfl
@[simp] theorem Dl.fields_sum (d : Dl) : (d.fields.map Prod.fst).sum = 40 := by cases d <;> rfl

/-- A slot, an opcode and operands that a word can hold. -/
def WordFits (o : Option (Nat × Nat × List (Nat × Nat))) : Prop :=
  ∀ k op fs, o = some (k, op, fs) → (k < 8 ∧ op ≠ 0 ∧ op < 256) ∧ fs.all fieldFits = true ∧ (fs.map Prod.fst).sum ≤ 56

theorem wordFits_some {k op : Nat} {fs : List (Nat × Nat)} (hk : k < 8 ∧ op ≠ 0 ∧ op < 256) (hf : fs.all fieldFits = true)
    (hs : (fs.map Prod.fst).sum ≤ 56) : WordFits (some (k, op, fs)) := by
  rintro _ _ _ ⟨⟩
  exact ⟨hk, hf, hs⟩

theorem wordFits_slotFields (i : Instr) : WordFits (slotFields i) := by
  unfold slotFields
  split
  case h_107 => exact fun _ _ _ h => nomatch h
  case h_97 j e o =>
    exact wordFits_some (fs := e.fields ++ [vr o.va, vr o.vb, vr o.vc, vr o.vd, vr o.sb, optFm o.fmtC, (2, o.rndm.code), fl o.satc, gn o.gs,
      (2, o.rc.val), fl o.skipnf]) (by decide) (by simp [vr, fl, gn]) (Nat.le_of_ble_eq_true rfl)
  all_goals exact wordFits_some (by decide) (by simp [vr, mr, fl, fm, gn, bare]) (by simp [vr, mr, fl, fm, gn, bare])

/-- The operands of a script instruction are in range, and so is its word. -/
theorem slotFields_fit {i : Instr} {k op : Nat} {fs : List (Nat × Nat)} (h : slotFields i = some (k, op, fs)) :
    (k < 8 ∧ op ≠ 0 ∧ op < 256) ∧ FieldsFit fs := by
  obtain ⟨hk, hf, hs⟩ := wordFits_slotFields i k op fs h
  exact ⟨hk, fun f hm => of_decide_eq_true (List.all_eq_true.1 hf f hm), hs⟩

end
end Sys2Proof

/-! Every well-formed script instruction has a slot and a word. -/
namespace Sys2Proof
open Machine
section

/-- The opcode and the operand bits of a word packed from them. -/
theorem word_div {op ops : Nat} (hop : op < 256) (hops : ops < 2 ^ 56) : (op * 2 ^ 56 + ops) / 2 ^ 56 % 256 = op := by omega
theorem word_mod {op ops : Nat} (hops : ops < 2 ^ 56) : (op * 2 ^ 56 + ops) % 2 ^ 56 = ops := by omega

theorem decodeSlot_slotFields {i : Instr} {iss : Issue} {k op : Nat} {fs : List (Nat × Nat)} (hi : issueOf i = some iss)
    (hw : WellFormed i = true) (h : slotFields i = some (k, op, fs)) : decodeSlot iss k (op * 2 ^ 56 + joinFields fs 56) = .ok i := by
  obtain ⟨⟨hk, hop, hlt⟩, hfit⟩ := slotFields_fit h
  have hops : joinFields fs 56 < 2 ^ 56 := joinFields_lt hfit.1 hfit.2
  unfold decodeSlot
  rw [word_div hlt hops, word_mod hops]
  refine (if_neg hop).trans ?_
  match k, hk with
  | 0, _ => exact decodeCtl_slotFields hi hw hfit h
  | 1, _ => exact decodeSync_slotFields hi hw hfit h
  | 2, _ => exact decodeSc_slotFields hi hw hfit h
  | 3, _ => exact decodeHa_slotFields hi hw hfit h
  | 4, _ => exact decodeHd_slotFields hi hw hfit h
  | 5, _ => exact decodeVx_slotFields hi hw hfit h
  | 6, _ => exact decodeVl_slotFields hi hw hfit h
  | 7, _ => exact decodeVs_slotFields hi hw hfit h

/-- Settles O3: the operands of an instruction are packed in fields of their widths, and read from them. -/
theorem slotEncodingRoundTrip : Obligations.SlotEncodingRoundTrip := by
  refine ⟨fun _ _ => rfl, fun i iss hi hw hn => ?_⟩
  have hs : (slotFields i).isSome = true := by rw [slotFields_isSome hn, hi]; rfl
  obtain ⟨⟨k, op, fs⟩, h⟩ := Option.isSome_iff_exists.1 hs
  obtain ⟨⟨hk, -, hlt⟩, hfit⟩ := slotFields_fit h
  have hops : joinFields fs 56 < 2 ^ 56 := joinFields_lt hfit.1 hfit.2
  refine ⟨k, op * 2 ^ 56 + joinFields fs 56, ?_, hk, by omega, decodeSlot_slotFields hi hw h⟩
  rw [encodeSlot, h]

end
end Sys2Proof

/-! What the scalar slot's instructions do (06:R133, R134, R395). -/
namespace Sys2Proof.Machine
section

theorem w32_shlN (a : W32) (n : Nat) : w32 (shlN 32 a.toNat n) = a <<< n := by
  apply BitVec.eq_of_toNat_eq
  simp [w32, shlN_eq, Nat.shiftLeft_eq]
theorem w32_shrN (a : W32) (n : Nat) : w32 (shrN 32 a.toNat n) = a >>> n := by
  have hlt : a.toNat / 2 ^ n < 2 ^ 32 := (Nat.div_le_self ..).trans_lt a.isLt
  apply BitVec.eq_of_toNat_eq
  rw [w32, shrN_eq a.isLt, BitVec.toNat_ofNat, Nat.mod_eq_of_lt hlt, BitVec.toNat_ushiftRight, Nat.shiftRight_eq_div_pow]
theorem signedOf_toNat {w : Nat} (hw : 0 < w) (a : BitVec w) : signedOf w a.toNat = a.toInt := by
  obtain ⟨w, rfl⟩ : ∃ v, w = v + 1 := ⟨w - 1, by omega⟩
  have h2 : 2 ^ (w + 1) = 2 * 2 ^ w := by rw [pow_succ, Nat.mul_comm]
  have ha : a.toNat % (2 * 2 ^ w) = a.toNat := by rw [← h2]; exact Nat.mod_eq_of_lt a.isLt
  simp only [signedOf, ha, BitVec.toInt_eq_toNat_cond, Nat.add_sub_cancel, h2, Nat.mul_lt_mul_left (show 0 < 2 by decide)]
theorem w32_sraN (a : W32) (n : Nat) : w32 (sraN 32 a.toNat n) = a.sshiftRight n := by
  rw [w32, sraN_eq (by decide), signedOf_toNat (by decide), BitVec.sshiftRight, Int.shiftRight_eq_div_pow, lowBits]
  apply BitVec.eq_of_toNat_eq
  simp [BitVec.toNat_ofInt]
  omega

/-- FP32 comparisons of the scalar slot: false when an operand is NaN (06:R133, 05:R113). -/
theorem scmpHolds_flt (a v : W32) : scmpHolds .flt a v = decide (Fmt.fp32.decode a.toNat ≠ .nan ∧ Fmt.fp32.decode v.toNat ≠ .nan ∧
    (Fmt.fp32.decode a.toNat).cmp (Fmt.fp32.decode v.toNat) < 0) := by
  by_cases hn : Fmt.fp32.decode a.toNat = .nan ∨ Fmt.fp32.decode v.toNat = .nan
  · rw [scmpHolds, cmpHolds_nan rfl hn]
    obtain hn | hn := hn <;> simp [hn]
  · obtain ⟨ha, hv⟩ := not_or.1 hn
    rw [scmpHolds, cmpHolds_number rfl ha hv]
    simp [ha, hv]
theorem scmpHolds_fle (a v : W32) : scmpHolds .fle a v = decide (Fmt.fp32.decode a.toNat ≠ .nan ∧ Fmt.fp32.decode v.toNat ≠ .nan ∧
    (Fmt.fp32.decode a.toNat).cmp (Fmt.fp32.decode v.toNat) ≤ 0) := by
  by_cases hn : Fmt.fp32.decode a.toNat = .nan ∨ Fmt.fp32.decode v.toNat = .nan
  · rw [scmpHolds, cmpHolds_nan rfl hn]
    obtain hn | hn := hn <;> simp [hn]
  · obtain ⟨ha, hv⟩ := not_or.1 hn
    rw [scmpHolds, cmpHolds_number rfl ha hv]
    simp [ha, hv]

/-- An aligned word lies in one bank, so that the access needs what its first byte needs (06:R142). -/
theorem Core.mayAccess_word {c : Core} {a : Nat} (ha : a % 4 = 0) (hlt : a < stageSize) : c.mayAccess a 4 = !c.streamHolds a := by
  have hlast : a + 4 - 1 < stageSize := by unfold stageSize at hlt ⊢; omega
  have hbank : (a + 4 - 1) / 0x20000 = a / 0x20000 := by omega
  rw [Core.mayAccess, Nat.mod_eq_of_lt hlt, Nat.mod_eq_of_lt hlast, Core.streamHolds, Core.streamHolds, hbank]
  simp

theorem sldAddr_aligned (sa imm : W32) : sldAddr sa imm % 4 = 0 := by
  simp only [sldAddr, stageSize]
  omega
theorem sldAddr_lt (sa imm : W32) : sldAddr sa imm < stageSize := Nat.mod_lt _ (by decide)

/-- SCMP writes 1 or 0. -/
theorem does_scmp {s : State} {k : Fin 128} {b : Nat} {l : Launch} (hq : s.Quiet k b l) {cond : SCond} {sd sa : Fin 32} {y : BOp} {v : W32}
    (hv : (if scmpHolds cond ((s.core k.val).sget sa.val) ((s.core k.val).bop y) = true then 1 else 0) = v) :
    s.Does (.scmp (at1 k) cond sd sa y) k id [(1, putS sd v)] :=
  State.does_scal hq .id (congrArg (Core.landS _ 1 sd) hv)

/-- Settles O7: each instruction's value, as its one landing. -/
theorem scalarResults : Obligations.ScalarResults := by
  refine ⟨fun s k b l hq sd sa y imm => ?_, fun s k b l hq sd sa y => ?_, fun s k b l hq sd sa imm => ?_⟩
  · refine ⟨State.does_scal hq .id rfl, State.does_scal hq .id rfl, State.does_scal hq .id rfl, State.does_scal hq .id rfl,
      State.does_scal hq .id rfl, State.does_scal hq .id rfl, State.does_scal hq .id rfl, ?_, ?_, ?_,
      State.does_scal hq .id rfl, State.does_scal hq .id rfl, ?_, ?_, ?_, ?_, ?_, ?_⟩
    · exact State.does_scal hq .id (congrArg (Core.landS _ 1 sd) (w32_shlN ..))
    · exact State.does_scal hq .id (congrArg (Core.landS _ 1 sd) (w32_shrN ..))
    · exact State.does_scal hq .id (congrArg (Core.landS _ 1 sd) (w32_sraN ..))
    · exact does_scmp hq (by simp [scmpHolds])
    · exact does_scmp hq (by simp [scmpHolds])
    · exact does_scmp hq (by simp [scmpHolds])
    · exact does_scmp hq (by simp [scmpHolds])
    · exact does_scmp hq (by simp [scmpHolds])
    · exact does_scmp hq (by simp [scmpHolds])
  · intro d a v z out
    refine ⟨State.does_scal hq .id rfl, State.does_scal hq .id rfl, State.does_scal hq .id rfl, State.does_scal hq .id rfl,
      State.does_scal hq .id rfl, State.does_scal hq .id rfl, ?_, ?_⟩
    · exact does_scmp hq (by simp only [scmpHolds_flt, decide_eq_true_eq]; rfl)
    · exact does_scmp hq (by simp only [scmpHolds_fle, decide_eq_true_eq]; rfl)
  · intro c n a hfree
    have hm : c.mayAccess a 4 = true := (Core.mayAccess_word (sldAddr_aligned ..) (sldAddr_lt ..)).trans (congrArg not hfree)
    refine ⟨State.does_scal hq .id (if_pos hm), State.does_store hq (fun r hr => ?_) rfl⟩
    obtain rfl := List.mem_singleton.1 hr
    rwa [leBytes_length]
end
end Sys2Proof.Machine

/-! A step (log 1). -/
namespace Sys2Proof.Machine
section

variable {s : State} {k : Fin 128}

theorem State.nextBundle_idle (h : s.running k.val = none) : s.nextBundle k = [] := by
  rw [State.nextBundle, h]
  rfl

theorem State.nextStream_idle (h : s.streaming k.val = none) : s.nextStream k = [] := by
  rw [State.nextStream, h]

/-- Without a launch no sequencer and no stream engine has work (06:R128; 08:R187, R193). -/
theorem State.ownWork_idle (h : ∀ k, k < 128 → s.running k = none ∧ s.streaming k = none) : s.ownWork = [] := by
  refine List.flatMap_eq_nil_iff.2 fun k _ => ?_
  rw [State.nextStream_idle (h k.val k.isLt).2, State.nextBundle_idle (h k.val k.isLt).1]
  rfl

theorem step_empty (h : s.pending = []) : step s = .next { s with pending := s.ownWork } := by
  rw [step, h]

/-- Settles O1: by the two cases of the queue. -/
theorem stepRunsTheFrontCommand : Obligations.StepRunsTheFrontCommand := by
  refine ⟨fun c rest s => rfl, fun s hp => ⟨step_empty hp, fun hidle => ?_⟩⟩
  rw [step_empty hp, State.ownWork_idle hidle, ← hp]

end
end Sys2Proof.Machine

/-! Tokens of the synchroniser (06:R139, R140): how they are ordered, and what each changes. -/
namespace Sys2Proof.Machine
section

variable {α : Type} (key : α → Nat)

theorem insertBy_perm (x : α) (ys : List α) : (insertBy key x ys).Perm (x :: ys) := by
  induction ys with
  | nil => exact .rfl
  | cons y ys ih =>
    unfold insertBy
    split
    · exact .rfl
    · exact (ih.cons y).trans (.swap x y ys)

theorem insertBy_sorted (x : α) {ys : List α} (h : ys.Pairwise fun a b => key a ≤ key b) :
    (insertBy key x ys).Pairwise fun a b => key a ≤ key b := by
  induction ys with
  | nil => exact List.pairwise_singleton ..
  | cons y ys ih =>
    obtain ⟨hy, hys⟩ := List.pairwise_cons.1 h
    unfold insertBy
    split
    next hlt =>
      refine List.pairwise_cons.2 ⟨fun z hz => ?_, h⟩
      obtain rfl | hz := List.mem_cons.1 hz
      · exact hlt.le
      · exact hlt.le.trans (hy z hz)
    next hle =>
      refine List.pairwise_cons.2 ⟨fun z hz => ?_, ih hys⟩
      obtain rfl | hz := List.mem_cons.1 ((insertBy_perm key x ys).subset hz)
      · exact Nat.le_of_not_lt hle
      · exact hy z hz

theorem sortBy_perm_sorted (xs : List α) : (sortBy key xs).Perm xs ∧ (sortBy key xs).Pairwise fun a b => key a ≤ key b := by
  suffices h : ∀ acc : List α, acc.Pairwise (fun a b => key a ≤ key b) →
      (xs.foldl (fun acc x => insertBy key x acc) acc).Perm (acc ++ xs) ∧
        (xs.foldl (fun acc x => insertBy key x acc) acc).Pairwise fun a b => key a ≤ key b from h [] .nil
  induction xs with
  | nil => exact fun acc hacc => ⟨by simp, hacc⟩
  | cons x xs ih =>
    intro acc hacc
    obtain ⟨hperm, hsorted⟩ := ih (insertBy key x acc) (insertBy_sorted key x hacc)
    exact ⟨hperm.trans (((insertBy_perm key x acc).append_right xs).trans List.perm_middle.symm), hsorted⟩

/-- All positions of a list, and none of them. -/
theorem takeAt_range (xs : List α) : takeAt xs (List.range xs.length) = (xs, []) := by
  have hin : ∀ p ∈ (List.range xs.length).zip xs, (List.range xs.length).contains p.1 = true := fun p hp => by
    simpa using List.mem_range.1 (List.of_mem_zip hp).1
  have hall : ((List.range xs.length).zip xs).filter (fun p => (List.range xs.length).contains p.1) = (List.range xs.length).zip xs :=
    List.filter_eq_self.2 hin
  have hnone : ((List.range xs.length).zip xs).filter (fun p => !(List.range xs.length).contains p.1) = [] :=
    List.filter_eq_nil_iff.2 fun p hp => by rw [hin p hp]; decide
  unfold takeAt
  simp only [hall, hnone]
  rw [List.map_snd_zip (by simp), List.map_nil]

theorem TokKind.rank_lt (k : TokKind) : k.rank < 4 := by cases k <;> decide

/-- Tokens of one cycle are taken by cue, and for one cue by kind (06:R140). -/
theorem tokenOrder_sorted (ts : List Token) :
    (tokenOrder ts).Pairwise fun x y => x.cue < y.cue ∨ (x.cue = y.cue ∧ x.kind.rank ≤ y.kind.rank) := by
  refine (sortBy_perm_sorted _ ts).2.imp fun {x y} h => ?_
  have hx := x.kind.rank_lt
  have hy := y.kind.rank_lt
  omega

theorem tokenOrder_swap {x y : Token} (h : y.cue < x.cue ∨ (y.cue = x.cue ∧ y.kind.rank < x.kind.rank)) : tokenOrder [x, y] = [y, x] := by
  have hx := x.kind.rank_lt
  have hy := y.kind.rank_lt
  simp only [tokenOrder, sortBy, List.foldl_cons, List.foldl_nil, insertBy]
  rw [if_pos (by omega)]

theorem satAdd_one (n : Nat) : satAdd 32 n 1 = min (n + 1) (2 ^ 32 - 1) := rfl

/-- The core with another synchroniser content. -/
def Core.withToks (c : Core) (ts : List Token) : Core := { c with toks := ts }

variable {c : Core} {t : Token}

/-- What a token leaves unchanged. -/
theorem Core.applyToken_keep (c : Core) (t : Token) : (c.applyToken t).st = c.st ∧ (c.applyToken t).msgs = c.msgs := by
  unfold Core.applyToken
  dsimp only
  split
  · split <;> exact ⟨rfl, rfl⟩
  · exact ⟨rfl, rfl⟩

theorem Core.applyTokens_keep (c : Core) (ts : List Token) : (c.applyTokens ts).st = c.st ∧ (c.applyTokens ts).msgs = c.msgs := by
  unfold Core.applyTokens
  induction tokenOrder ts generalizing c with
  | nil => exact ⟨rfl, rfl⟩
  | cons t ts ih =>
    obtain ⟨hst, hmsgs⟩ := c.applyToken_keep t
    obtain ⟨ihst, ihmsgs⟩ := ih (c.applyToken t)
    exact ⟨ihst.trans hst, ihmsgs.trans hmsgs⟩

theorem Core.applyToken_match (ha : (c.cue t.cue).armed = true) (hv : (c.cue t.cue).vis = false) (hd : (c.cue t.cue).ddl = t.ddl)
    (hs : t.stale = false) : c.applyToken t = (if t.kind = .fill then
      (c.setCue t.cue { c.cue t.cue with vis := true }).updCtx t.ctx (fun x => { x with held := setBitN x.held t.buf false })
      else c.setCue t.cue { c.cue t.cue with vis := true }) := by
  unfold Core.applyToken
  simp [ha, hv, hd, hs]

theorem Core.applyToken_stale (h : (c.cue t.cue).armed = false ∨ (c.cue t.cue).vis = true ∨ (c.cue t.cue).ddl ≠ t.ddl ∨ t.stale = true) :
    c.applyToken t = { c with stale := satAdd 32 c.stale 1 } := by
  unfold Core.applyToken
  dsimp only
  refine if_neg ?_
  rintro hm
  simp only [Bool.and_eq_true, Bool.not_eq_true', beq_iff_eq] at hm
  obtain ⟨⟨⟨ha, hv⟩, hd⟩, hs⟩ := hm
  simp_all

/-- Tokens reach a core that runs (06:R139). -/
theorem Core.visible_running (hst : c.st = .running) (hh : c.heldAt = none) (e : CEnv) (n : Nat) (ks : List Nat) (die : List (Nat × Nat)) :
    c.visible e n ks die = (c.withToks (takeAt c.toks ks).2).applyTokens
      ((takeAt c.toks ks).1 ++ die.map fun p => ⟨.other, p.1, p.2, 0, 0, false, 1⟩) := by
  have hw : c.waitCycles e n = c := by rw [Core.waitCycles, hh]
  unfold Core.visible
  rw [hw]
  refine if_neg ?_
  rw [(Core.applyTokens_keep _ _).1]
  exact fun h => absurd (hst.symm.trans h) (by decide)

variable {s : State} {k : Fin 128} {b : Nat} {l : Launch}

theorem State.coreEvent_runs (h : s.Runs k b l) (f : CEnv → Core → Core) :
    s.coreEvent k.val f = s.putCore b l.num k.val (f ((s.box b).env l k.val) (s.core k.val)) := by
  rw [State.coreEvent, h.runs]

/-- An event of a core that tells the device nothing changes the core alone. -/
theorem State.coreEvent_silent (h : s.Runs k b l) {f : CEnv → Core → Core} {c : Core} (hf : f ((s.box b).env l k.val) (s.core k.val) = c)
    (hm : c.msgs = []) : s.coreEvent k.val f = s.setCore k.val c := by
  rw [State.coreEvent_runs h, hf, State.putCore_silent s b l k.val c h.sole h.going hm]

theorem exec_tokenVisible_eq (h : s.Runs k b l) (n : Nat) (ks : List Nat) (die : List (Fin 64 × BitVec 40)) :
    exec (.tokenVisible k n ks die) s
      = .next (s.coreEvent k.val fun e c => c.visible e n ks (die.map fun p => (p.1.val, p.2.toNat))) := by
  change execTokenVisible k n ks die s = _
  rw [execTokenVisible, h.runs]

/-- TOKEN_VISIBLE on a core that runs (06:R139). -/
theorem exec_tokenVisible_running (h : s.Runs k b l) (hst : (s.core k.val).st = .running) (hh : (s.core k.val).heldAt = none)
    (n : Nat) (ks : List Nat) (die : List (Fin 64 × BitVec 40)) :
    exec (.tokenVisible k n ks die) s = .next (s.setCore k.val (((s.core k.val).withToks (takeAt (s.core k.val).toks ks).2).applyTokens
      ((takeAt (s.core k.val).toks ks).1 ++ die.map fun p => ⟨.other, p.1.val, p.2.toNat, 0, 0, false, 1⟩))) := by
  have hv := Core.visible_running hst hh ((s.box b).env l k.val) n ks (die.map fun p => (p.1.val, p.2.toNat))
  rw [exec_tokenVisible_eq h, State.coreEvent_silent h hv (by rw [(Core.applyTokens_keep ..).2]; exact h.msgs), List.map_map]
  rfl

/-- Settles O23: one token by the two cases of its match, several by the order in which they are taken. -/
theorem tokenMatching : Obligations.TokenMatching := by
  refine ⟨?_, ?_⟩
  · intro s k b l t h c q hst hh ht
    have hone : exec (.tokenVisible k 0 [0] []) s = .next (s.setCore k.val ((c.withToks []).applyToken t)) := by
      rw [exec_tokenVisible_running h hst hh, show (s.core k.val).toks = [t] from ht]
      rfl
    refine ⟨fun ha hv hd hs => ?_, fun hstale => ?_⟩
    · rw [hone, Core.applyToken_match (c := c.withToks []) ha hv hd hs]
      rfl
    · rw [hone, Core.applyToken_stale (c := c.withToks []) hstale]
      rfl
  · intro s k b l h c hst hh
    refine ⟨⟨tokenOrder c.toks, (sortBy_perm_sorted _ c.toks).1, tokenOrder_sorted c.toks, ?_⟩, fun x y n ht hxy => ?_⟩
    · rw [exec_tokenVisible_running h hst hh, takeAt_range, List.map_nil, List.append_nil]
      rfl
    · rw [exec_tokenVisible_running h hst hh, show (s.core k.val).toks = [x, y] from ht]
      change Host.Outcome.next (s.setCore k.val ((tokenOrder [x, y]).foldl Core.applyToken (c.withToks []))) = _
      rw [tokenOrder_swap hxy]
      rfl

end
end Sys2Proof.Machine

/-! Cycles that pass on a core with nothing in flight (log 7), and its faults (06:R156). -/
namespace Sys2Proof.Machine
section

variable {c : Core} {e : CEnv}

/-- The clock of a core. -/
theorem Core.passTo_empty (h : c.flight = []) (n ph : Nat) : c.passTo e n ph = c.withNow (c.now + n) := by
  unfold Core.passTo
  rw [Core.runTo_empty e _ c h]
  exact Core.runTo_empty e _ (c.withNow (c.now + n)) h

theorem Core.advance_empty (h : c.flight = []) (n : Nat) : c.advance e n = c.withNow (c.now + n) := Core.passTo_empty h n phRead
theorem Core.endCycle_empty (h : c.flight = []) : c.endCycle e = c.withNow (c.now + 1) := Core.passTo_empty h 1 phGen

theorem Core.settle_running (h : c.st ≠ .faulted) : c.settle e = c := if_neg h

/-- The core whose clock stands at `n` and whose array accesses are over. -/
def Core.rested (c : Core) (n : Nat) : Core := { c with now := n, accs := [] }

theorem Core.drainAll_empty (h : c.flight = []) : ∃ n, c.drainAll e = c.rested n := by
  unfold Core.drainAll
  dsimp only
  rw [Core.runTo_empty e _ c h]
  exact ⟨_, rfl⟩

theorem Core.settle_empty (h : c.flight = []) (hst : c.st = .faulted) : ∃ n, c.settle e = c.rested n := by
  obtain ⟨n, hn⟩ := Core.drainAll_empty (e := e) h
  exact ⟨n, (if_pos hst).trans hn⟩

/-- The core that has faulted, once. -/
theorem Core.fault_eq (h : c.st ≠ .faulted) (kind bundle : Nat) : c.fault kind bundle
    = { c with st := .faulted, faultKind := kind, faultBundle := bundle, heldAt := none, seg := none, bundle := [], msgs := c.msgs ++ [.fault] } :=
  if_neg h

/-- What a core is after a fault with nothing in flight: its registers and memories stay, and the device is told. -/
structure Core.FaultedAs (c c' : Core) (kind bundle : Nat) : Prop where
  st : c'.st = .faulted
  kind : c'.faultKind = kind
  bundle : c'.faultBundle = bundle
  msgs : c'.msgs = [.fault]
  s : c'.s = c.s
  cues : c'.cues = c.cues
  stage : c'.stage = c.stage
  ctxs : c'.ctxs = c.ctxs

theorem Core.FaultedAs.settle {c' : Core} {kind bundle : Nat} (h : c.FaultedAs c' kind bundle) (hf : c'.flight = []) :
    c.FaultedAs (c'.settle e) kind bundle := by
  obtain ⟨n, hn⟩ := Core.settle_empty (e := e) hf h.st
  rw [hn]
  exact ⟨h.st, h.kind, h.bundle, h.msgs, h.s, h.cues, h.stage, h.ctxs⟩

theorem Core.fault_settle (hst : c.st ≠ .faulted) (hf : c.flight = []) (hm : c.msgs = []) (kind bundle : Nat) :
    c.FaultedAs ((c.fault kind bundle).settle e) kind bundle := by
  rw [Core.fault_eq hst]
  exact .settle ⟨rfl, rfl, rfl, congrArg (· ++ [CMsg.fault]) hm, rfl, rfl, rfl, rfl⟩ hf

end
end Sys2Proof.Machine

/-! Events of a core (06:R139, R144, R145, R154, R156). -/
namespace Sys2Proof.Machine
section

variable {c : Core} {e : CEnv}

theorem Core.switchElapsed_eq {sb : Nat} (hst : c.st = .standby) (hseg : c.seg = some (sb, true)) (hf : c.flight = []) :
    c.switchElapsed e = { c with seg := some (sb, false), now := c.now + 24 } := by
  unfold Core.switchElapsed
  split
  next sb' _ hseg' =>
    obtain rfl : sb = sb' := by simpa [hseg] using hseg'
    have hadv := Core.advance_empty (c := { c with seg := some (sb, false) }) (e := e) hf 24
    rw [hadv]
    exact Core.settle_running (by change c.st ≠ _; rw [hst]; decide)
  next hne => exact absurd hseg (hne sb hst)

/-- A bundle held under STALL does not wait for its understudy. -/
theorem Core.waitsUnder_of_kind {slots : List Instr} {kind : Nat} (h : kind ≠ 0x82) : c.waitsUnder e slots kind = false := by
  simp [Core.waitsUnder, h]

theorem Core.stallOut_eq {h : Held} (hst : c.st = .held) (hh : c.heldAt = some h) (hk : h.kind ≠ 0x82) (hf : c.flight = [])
    (hle : c.stalled ≤ e.stall) : c.stallOut e = ((c.withNow (c.now + (e.stall - c.stalled))).fault 4 h.ptr).settle e := by
  rw [Core.stallOut, hh]
  dsimp only
  rw [if_pos (by simp [hst, Core.waitsUnder_of_kind hk]), Core.waitCycles, hh]
  dsimp only
  rw [if_neg (by simp [hst]), if_neg (by simp [Core.waitsUnder_of_kind hk]), if_pos (by omega), Core.advance_empty hf]

theorem Core.cycleLimit_eq (hst : c.st = .running) (hseg : c.seg = none) (hlim : 2 ^ 40 ≤ c.scyc) :
    c.cycleLimit e = (c.fault 5 c.bptr).settle e := by
  rw [Core.cycleLimit, if_pos (by simpa [Core.issuing, hst, hseg] using hlim)]

variable {s : State} {k : Fin 128} {b : Nat} {l : Launch}

/-- CORE_RESTORE from an image whose line reads good (06:R154; 12:R304). -/
theorem exec_coreRestore_good {tile : Nat} {m : Mem} (hbox : s.boxOfCore k.val = some b) (hst : (s.box b).st = 3)
    (hfr : (s.box b).frozen = false) (hl : (s.box b).preemptedOn k.val = some l)
    (hm : s.rangeMem b (l.preempt + ((s.box b).localCore k.val - l.core0) * imageSize) imageSize = some m)
    (hw : ∀ t ∈ partTiles [(l.preempt + ((s.box b).localCore k.val - l.core0) * imageSize, imageSize)], s.lineWell b t) :
    exec (.coreRestore k tile .good) s =
      let t := s.updLaunch b l.num (fun l => { l with saved := Tab.erase l.saved k })
      let e := (t.box b).env l k.val
      let c := (Tab.get {} l.saved k.val).ofImage m
      .next (t.putCore b l.num k.val ((c.visible e 0 (List.range c.toks.length) []).resume e)) := by
  have hmeet : s.meetLine b [(l.preempt + ((s.box b).localCore k.val - l.core0) * imageSize, imageSize)] tile .good = (s, false) := by
    rw [State.meetLine, if_pos rfl, State.meetTiles_of_well hw]
    simp
  change execCoreRestore k tile .good s = _
  unfold execCoreRestore
  dsimp only
  rw [hbox]
  dsimp only
  rw [if_neg (by simp [hfr, hst]), hl]
  dsimp only
  rw [hmeet]
  dsimp only
  rw [hm]
  exact if_neg (by decide)

/-- Settles O22: each event by the branch that it takes. -/
theorem coreEventResults : Obligations.CoreEventResults := by
  refine ⟨?_, ?_, ?_, ?_, ?_⟩
  · intro s k b l sb h c hst hseg hf
    exact congrArg Host.Outcome.next (State.coreEvent_silent h (Core.switchElapsed_eq hst hseg hf) h.msgs)
  · intro s k b l n ks die h c hst hh
    exact exec_tokenVisible_running h hst hh n ks die
  · intro s k b l h hh hk c limit hle
    have hfault := Core.fault_settle (c := c.withNow (c.now + (limit - c.stalled))) (e := (s.box b).env l k.val)
      (by change c.st ≠ _; rw [hh.st]; decide) hh.flight hh.msgs 4 h.ptr
    refine ⟨_, ?_, hfault.st, hfault.kind, hfault.bundle, hfault.msgs, hfault.s⟩
    change Host.Outcome.next (s.coreEvent k.val Core.stallOut) = _
    rw [State.coreEvent_runs hh.toRuns, Core.stallOut_eq hh.st hh.held hk hh.flight hle]
    rfl
  · intro s k b l h c hst hseg hf hlim
    have hfault := Core.fault_settle (c := c) (e := (s.box b).env l k.val) (by rw [hst]; decide) hf h.msgs 5 c.bptr
    refine ⟨_, ?_, hfault.st, hfault.kind, hfault.bundle, hfault.msgs, hfault.s⟩
    change Host.Outcome.next (s.coreEvent k.val Core.cycleLimit) = _
    rw [State.coreEvent_runs h, Core.cycleLimit_eq hst hseg hlim]
  · intro s k b l tile m hbox hst hfr hl hm hw
    exact exec_coreRestore_good hbox hst hfr hl hm hw

end
end Sys2Proof.Machine

/-! Bundles of one slot on a quiet core, and the faults of scripts and streams (06:R128, R138, R141, R142, R156; 08:R208). -/
namespace Sys2Proof.Machine
section

variable {s : State} {k : Fin 128} {b : Nat} {l : Launch} {i : Instr} {e : CEnv}

/-- A slot reaches the sequencer of a core that runs (06:R128). -/
theorem State.submit_runs (h : s.Runs k b l) (i : Instr) :
    s.submit i (at1 k) = s.putCore b l.num k.val ((s.core k.val).slotIn ((s.box b).env l k.val) i true) := by
  change s.submit i ⟨k, true⟩ = _
  rw [State.submit, h.runs]

/-- The same where the core then has told the device nothing. -/
theorem State.submit_silent (h : s.Runs k b l) {c : Core} (hc : (s.core k.val).slotIn ((s.box b).env l k.val) i true = c)
    (hm : c.msgs = []) : s.submit i (at1 k) = s.setCore k.val c := by
  rw [State.submit_runs h, hc, State.putCore_silent s b l k.val c h.sole h.going hm]

theorem State.Quiet.slotIn_plain (hq : s.Quiet k b l) (hp : plainSlot i = true) :
    (s.core k.val).slotIn e i true = (s.core k.val).commitPlain e [i] :=
  Core.slotIn_one e _ i hp hq.st hq.flight hq.accs hq.bundle hq.seg hq.limit

/-- A CWAIT comes to its issue cycle (06:R141). -/
theorem State.Quiet.slotIn_wait (hq : s.Quiet k b l) (x : Issue) (cue : Fin 64) (en : Bool) (sb : Fin 8) :
    (s.core k.val).slotIn e (.cwait x cue en sb) true = (s.core k.val).waitStep e [.cwait x cue en sb] cue.val en sb.val none := by
  have hlim : decide (2 ^ 40 ≤ (s.core k.val).scyc) = false := by simpa using hq.limit
  have hi : (s.core k.val).issuing = true := by rw [Core.issuing, hq.st]
  have hw : waitOf [.cwait x cue en sb] = some (cue.val, en, sb.val) := rfl
  have hh : hasHalt [.cwait x cue en sb] = false := rfl
  unfold Core.slotIn Core.issueBundle
  simp only [hi, hq.bundle, List.nil_append, Core.startCycle_empty _ _ hq.flight, hq.st, hq.seg, hlim, hq.accs, holdOf_none, hw, hh,
    Bool.not_true, Bool.and_false, Bool.false_eq_true, if_false, if_true, reduceCtorEq]

/-- A slot that faults ends its bundle (06:R156). -/
theorem Core.commitPlain_fault {c : Core} {kind : Nat} (hst : c.st = .running) (hf : c.flight = []) (hm : c.msgs = [])
    (hi : (c.noteAccs [i]).slotEffect i = c.fault kind c.bptr) : c.FaultedAs (c.commitPlain e [i]) kind c.bptr := by
  have hne : c.st ≠ .faulted := by rw [hst]; decide
  rw [Core.fault_eq hne] at hi
  unfold Core.commitPlain
  simp only [List.foldl_cons, List.foldl_nil, Core.issueSlot, hi, if_true]
  exact .settle ⟨rfl, rfl, rfl, congrArg (· ++ [CMsg.fault]) hm, rfl, rfl, rfl, rfl⟩ hf

/-- What a one-slot bundle that faults leaves of its state: the core alone has changed, and its launch hears of the fault. -/
theorem State.Quiet.faults (hq : s.Quiet k b l) {kind : Nat} (hi : PlainSlot k i)
    (hf : (s.core k.val).slotEffect i = (s.core k.val).fault kind (s.core k.val).bptr) :
    ∃ c', exec i s = .next (s.putCore b l.num k.val c') ∧ (s.core k.val).FaultedAs c' kind (s.core k.val).bptr := by
  refine ⟨_, ?_, Core.commitPlain_fault (e := (s.box b).env l k.val) (i := i) hq.st hq.flight hq.msgs ?_⟩
  · rw [hi.exec, State.submit_runs hq.toRuns, hq.slotIn_plain hi.plain]
  · rw [hi.noteAccs hq.accs, hf]

theorem Core.doCarm_armed {c : Core} {cue : Fin 64} (h : (c.cue cue.val).armed = true) (pol : BitVec 2) (dl : Dl) :
    c.doCarm cue pol dl = c.fault 3 c.bptr := if_pos h

theorem Core.doCret_armed {c : Core} {cue : Fin 64} (h : (c.cue cue.val).armed = true) (st : Fin 128) (buf : Fin 8) (dl : Dl) :
    c.doCret st buf cue dl = c.fault 3 c.bptr := by
  unfold Core.doCret
  refine if_pos ?_
  by_cases hp : (c.ctx st.val).pol = 2 <;> simp [hp, h]

theorem Core.doSld_held {c : Core} {sa : Fin 32} {imm : W32} (h : c.streamHolds (sldAddr (c.sget sa.val) imm) = true) (sd : Fin 32) :
    c.doSld sd sa imm = c.fault 2 c.bptr := by
  have hm : c.mayAccess (sldAddr (c.sget sa.val) imm) 4 = false := by rw [Core.mayAccess_word (sldAddr_aligned ..) (sldAddr_lt ..), h]; rfl
  exact if_neg (by rw [hm]; decide)

theorem Core.waitStep_unmatched {c : Core} {q : Nat} (h : (c.cue q).armed = false ∨ (c.cue q).ddl ≠ c.scyc) (slots : List Instr)
    (en : Bool) (sb : Nat) (again : Option (Nat × Nat × Bool)) : c.waitStep e slots q en sb again = (c.fault 1 c.bptr).settle e := by
  unfold Core.waitStep
  exact if_pos (by simpa using h)

theorem State.Quiet.cwait_faults (hq : s.Quiet k b l) {cue : Fin 64}
    (h : ((s.core k.val).cue cue.val).armed = false ∨ ((s.core k.val).cue cue.val).ddl ≠ (s.core k.val).scyc) (en : Bool) (sb : Fin 8) :
    ∃ c', exec (.cwait (at1 k) cue en sb) s = .next (s.putCore b l.num k.val c') ∧ (s.core k.val).FaultedAs c' 1 (s.core k.val).bptr := by
  refine ⟨_, ?_, Core.fault_settle (e := (s.box b).env l k.val) (by rw [hq.st]; decide) hq.flight hq.msgs 1 (s.core k.val).bptr⟩
  change Host.Outcome.next (s.submit _ (at1 k)) = _
  rw [State.submit_runs hq.toRuns, hq.slotIn_wait, Core.waitStep_unmatched h]

/-! Stream instructions. -/

/-- A stream instruction of a context that may issue (08:R193). -/
theorem State.stream_ready {x : Ctx} (hs : s.Streams x b l) (credit : Bool) (f : Nat → Launch → Core → SCtx → State) :
    s.stream x credit f = f b l { s.core x.core.val with served := x.ctx.val }
      { (s.core x.core.val).ctx x.ctx.val with st := .run } := by
  rw [State.stream, hs.runs]
  exact if_neg (by simp [hs.ready, hs.going])

/-- Settles O8: each access, cue or operand by the guard that it fails. -/
theorem scriptAndStreamFaults : Obligations.ScriptAndStreamFaults := by
  refine ⟨?_, ?_, ?_⟩
  · intro s k b l hq sd sa imm c hh
    obtain ⟨c', he, hc⟩ := hq.faults (i := .sld (at1 k) sd sa imm) ⟨fun _ => rfl, rfl, fun _ => rfl, fun _ => rfl⟩ (Core.doSld_held hh sd)
    exact ⟨c', he, hc.st, hc.kind, hc.bundle, hc.s, hc.stage, hc.msgs⟩
  · intro s k b l hq buf sb cue pol dl st en c faults
    have faults_of : ∀ {i kind}, (∃ c', exec i s = .next (s.putCore b l.num k.val c') ∧ c.FaultedAs c' kind c.bptr) → faults i kind :=
      fun ⟨c', he, hc⟩ => ⟨c', he, hc.st, hc.kind, hc.bundle, hc.msgs, hc.s, hc.cues, hc.ctxs⟩
    refine ⟨fun ha => ⟨?_, ?_⟩, fun hn => faults_of (hq.cwait_faults hn en sb)⟩
    · exact faults_of (hq.faults ⟨fun _ => rfl, rfl, fun _ => rfl, fun _ => rfl⟩ (Core.doCarm_armed ha pol dl))
    · exact faults_of (hq.faults ⟨fun _ => rfl, rfl, fun _ => rfl, fun _ => rfl⟩ (Core.doCret_armed ha st buf dl))
  · intro s x b l hs o a off tag cue doff toff tile c y faults
    refine ⟨fun hp => ⟨?_, ?_⟩, fun ho => ?_, fun hl => ?_, fun hh hlen ht hfit hplan => ?_⟩
    · refine congrArg Host.Outcome.next ((State.stream_ready hs _ _).trans (if_pos ?_))
      simpa using hp
    · refine congrArg Host.Outcome.next ((State.stream_ready hs _ _).trans (if_pos ?_))
      simpa using hp
    · refine congrArg Host.Outcome.next ((State.stream_ready hs _ _).trans (if_pos ?_))
      simp [ho]
    · exact congrArg Host.Outcome.next ((State.stream_ready hs _ _).trans (if_pos hl))
    · refine congrArg Host.Outcome.next ((State.stream_ready hs _ _).trans ?_)
      have htile : ({ y with st := .run } : SCtx).tileAt toff.toNat = some tile := by
        simp only [SCtx.tileAt, ht, Nat.mul_mod_left, if_true, Nat.mul_div_cancel tile (show 0 < 16384 by decide)]
      have hnone : l.plan.find? (fun e => e.tag == tag.toNat) = none := by simpa using hplan
      have hfull : ({ y with st := .run } : SCtx).full = false := by simpa [SCtx.full] using hlen
      refine (if_neg (by simpa using hh)).trans ((if_neg (by rw [hfull]; decide)).trans ?_)
      dsimp only
      simp only [c, y] at htile
      rw [htile]
      dsimp only
      refine (if_neg fun h => absurd ((congrArg not hfit).symm.trans h) (by decide)).trans ?_
      rw [hnone]
      rfl

end
end Sys2Proof.Machine

/-! Bundles of one slot on a core with nothing in flight: control flow, HALT and SBRET (06:R128, R131, R136, R145, R155, R397). -/
namespace Sys2Proof.Machine
section

variable {s : State} {k : Fin 128} {b : Nat} {l : Launch} {i : Instr} {e : CEnv} {c : Core}

/-- A core that issues with nothing in flight. -/
structure Core.Still (c : Core) : Prop where
  st : c.st = .running
  flight : c.flight = []
  accs : c.accs = []
  bundle : c.bundle = []
  seg : c.seg = none

theorem State.Quiet.still (hq : s.Quiet k b l) : (s.core k.val).Still := ⟨hq.st, hq.flight, hq.accs, hq.bundle, hq.seg⟩

theorem Core.noteAccs_none (hc : c.accs = []) (ha : c.accsOf i = []) : c.noteAccs [i] = c := by
  rw [Core.noteAccs_one hc, ha, List.map_nil]
  unfold Core.withAccs
  rw [← hc]

/-- A slot whose effect leaves nothing in flight: its bundle takes one cycle, unless a HALT or a preemption ends it (06:R128). -/
theorem Core.Still.commitPlain (hc : c.Still) (ha : c.accsOf i = []) (hd : (c.slotEffect i).Still) (hh : hasHalt [i] = false)
    (hp : (hasPpoint [i] && (e.preempt || e.stop)) = false) :
    c.commitPlain e [i] = (c.slotEffect i).stepTo ((c.nextOf [i]).1 % 2 ^ 14) (c.nextOf [i]).2 := by
  have hne : ¬(c.slotEffect i).st = .faulted := by rw [hd.st]; decide
  unfold Core.commitPlain
  simp only [List.foldl_cons, List.foldl_nil, Core.issueSlot, Core.noteAccs_none hc.accs ha, hh, hd.seg, hne, hp, Option.isNone_none, Bool.true_and,
    Bool.false_eq_true, if_true, if_false]
  rw [Core.endCycle_empty (by exact hd.flight), Core.settle_running (by exact hne)]
  simp only [Core.withNow, Core.stepTo, Core.busyAfter, hd.flight, hd.bundle, hd.seg, List.filter_nil, List.map_nil, List.foldl_nil]

/-- A slot that neither waits nor halts issues in the cycle in which it reaches its core (06:R128). -/
theorem State.Quiet.slotIn_free (hq : s.Quiet k b l) (hw : waitOf [i] = none) (hh : hasHalt [i] = false) :
    (s.core k.val).slotIn e i true = (s.core k.val).commitPlain e [i] := by
  have hlim : decide (2 ^ 40 ≤ (s.core k.val).scyc) = false := by simpa using hq.limit
  have hi : (s.core k.val).issuing = true := by rw [Core.issuing, hq.st]
  unfold Core.slotIn Core.issueBundle
  simp only [hi, hq.bundle, List.nil_append, Core.startCycle_empty _ _ hq.flight, hq.st, hq.seg, hlim, hq.accs, holdOf_none, hw, hh,
    Bool.not_true, Bool.and_false, Bool.false_and, Option.isSome_none, Bool.false_eq_true, if_false, if_true, reduceCtorEq]

/-- A slot that puts nothing in flight, on a quiet core: its effect, and the next place. -/
theorem State.Quiet.runs_still (hq : s.Quiet k b l) (he : exec i s = .next (s.submit i (at1 k))) (hw : waitOf [i] = none)
    (hh : hasHalt [i] = false) (hp : (hasPpoint [i] && (s.box b).preemptPending l k.val) = false) (ha : (s.core k.val).accsOf i = [])
    (hd : ((s.core k.val).slotEffect i).Still) (hm : ((s.core k.val).slotEffect i).msgs = []) :
    exec i s = .next (s.setCore k.val (((s.core k.val).slotEffect i).stepTo (((s.core k.val).nextOf [i]).1 % 2 ^ 14)
      ((s.core k.val).nextOf [i]).2)) := by
  have hstop : ((s.box b).env l k.val).stop = false := congrArg Option.isSome hq.going
  rw [he, State.submit_silent hq.toRuns ((hq.slotIn_free hw hh).trans (hq.still.commitPlain ha hd hh ?_)) hm]
  rw [hstop, Bool.or_false]
  exact hp

/-- A slot of control flow changes the core's place alone. -/
theorem State.Quiet.runs_ctl (hq : s.Quiet k b l) (he : exec i s = .next (s.submit i (at1 k))) (hp : plainSlot i = true)
    (ha : (s.core k.val).accsOf i = []) (hd : (s.core k.val).slotEffect i = s.core k.val) {nx : Nat × List LoopEntry}
    (hn : (s.core k.val).nextOf [i] = nx) :
    exec i s = .next (s.setCore k.val ((s.core k.val).stepTo (nx.1 % 2 ^ 14) nx.2)) := by
  have h := hq.runs_still he (waitOf_one i hp) (hasHalt_one i hp) (by rw [hasPpoint_one i hp, Bool.false_and]) ha
    (by rw [hd]; exact hq.still) (by rw [hd]; exact hq.msgs)
  rwa [hd, hn] at h

/-- The place at which a loop's body starts, or which follows an empty loop (06:R397). -/
theorem Core.stepTo_enterLoop (c : Core) (n q : Nat) :
    c.stepTo ((c.enterLoop n q).1 % 2 ^ 14) (c.enterLoop n q).2 = if n = 0 then c.stepTo ((endCount q c.loops).1 % 2 ^ 14) (endCount q c.loops).2
      else c.stepTo ((c.bptr + 1) % 2 ^ 14) (⟨c.bptr + 1, q, n⟩ :: c.loops) := by
  unfold Core.enterLoop
  split <;> rfl

/-- Branches (06:R131). -/
theorem Core.nextOf_brz (c : Core) (x : Issue) (sa : Fin 32) (t : BitVec 14) :
    c.nextOf [.brz x sa t] = if c.sget sa.val = 0 then (t.toNat, c.loops) else endCount c.bptr c.loops := by
  change (match c.nextBrz sa t with | some t => (t, c.loops) | none => endCount c.bptr c.loops) = _
  by_cases h : c.sget sa.val = 0 <;> simp only [Core.nextBrz, h, if_true, if_false]

theorem Core.nextOf_brnz (c : Core) (x : Issue) (sa : Fin 32) (t : BitVec 14) :
    c.nextOf [.brnz x sa t] = if c.sget sa.val = 0 then endCount c.bptr c.loops else (t.toNat, c.loops) := by
  change (match c.nextBrnz sa t with | some t => (t, c.loops) | none => endCount c.bptr c.loops) = _
  by_cases h : c.sget sa.val = 0 <;> simp only [Core.nextBrnz, h, if_true, if_false]

theorem Core.stepTo_target (c : Core) (t : BitVec 14) : c.stepTo (t.toNat % 2 ^ 14) c.loops = c.stepTo t.toNat c.loops := by
  rw [Nat.mod_eq_of_lt t.isLt]

theorem State.Quiet.runs_brz (hq : s.Quiet k b l) (sa : Fin 32) (t : BitVec 14) : exec (.brz (at1 k) sa t) s
    = .next (s.setCore k.val (if (s.core k.val).sget sa.val = 0 then (s.core k.val).stepTo t.toNat (s.core k.val).loops
        else (s.core k.val).along)) := by
  rw [hq.runs_ctl rfl rfl rfl rfl (Core.nextOf_brz ..), ← Core.stepTo_target, Core.along]
  split <;> rfl

theorem State.Quiet.runs_brnz (hq : s.Quiet k b l) (sa : Fin 32) (t : BitVec 14) : exec (.brnz (at1 k) sa t) s
    = .next (s.setCore k.val (if (s.core k.val).sget sa.val = 0 then (s.core k.val).along
        else (s.core k.val).stepTo t.toNat (s.core k.val).loops)) := by
  rw [hq.runs_ctl rfl rfl rfl rfl (Core.nextOf_brnz ..), ← Core.stepTo_target, Core.along]
  split <;> rfl

/-- A PPOINT with no preemption pending (06:R152). -/
theorem State.Quiet.runs_ppoint (hq : s.Quiet k b l) (hp : (s.box b).preemptPending l k.val = false) :
    exec (.ppoint (at1 k)) s = .next (s.setCore k.val (s.core k.val).along) :=
  hq.runs_still (i := .ppoint (at1 k)) rfl rfl rfl (by rw [hp, Bool.and_false]) rfl hq.still hq.msgs

theorem State.Quiet.control (hq : s.Quiet k b l) (t q : BitVec 14) (sa : Fin 32) (n : BitVec 24) :
    let c := s.core k.val
    let run (i : Instr) (c' : Core) : Prop := exec i s = .next (s.setCore k.val c')
    let S := c.sget sa.val
    let enter (n : Nat) : Core :=
      if n = 0 then c.stepTo ((endCount q.toNat c.loops).1 % 2 ^ 14) (endCount q.toNat c.loops).2
      else c.stepTo ((c.bptr + 1) % 2 ^ 14) (⟨c.bptr + 1, q.toNat, n⟩ :: c.loops)
    run (.nop (at1 k)) c.along ∧
    run (.jmp (at1 k) t) (c.stepTo t.toNat c.loops) ∧
    run (.brz (at1 k) sa t) (if S = 0 then c.stepTo t.toNat c.loops else c.along) ∧
    run (.brnz (at1 k) sa t) (if S = 0 then c.along else c.stepTo t.toNat c.loops) ∧
    run (.loop (at1 k) n q) (enter n.toNat) ∧
    run (.loopr (at1 k) sa q) (enter (S.toNat % 2 ^ 24)) ∧
    ((s.box b).preemptPending l k.val = false → run (.ppoint (at1 k)) c.along) := by
  intro c run S enter
  refine ⟨hq.runs_ctl rfl rfl rfl rfl rfl, ?_, hq.runs_brz sa t, hq.runs_brnz sa t, ?_, ?_, hq.runs_ppoint⟩
  · have h := hq.runs_ctl (i := .jmp (at1 k) t) rfl rfl rfl rfl (nx := (t.toNat, c.loops)) rfl
    rwa [Core.stepTo_target] at h
  · have h := hq.runs_ctl (i := .loop (at1 k) n q) rfl rfl rfl rfl (nx := c.enterLoop n.toNat q.toNat) rfl
    rwa [Core.stepTo_enterLoop] at h
  · have h := hq.runs_ctl (i := .loopr (at1 k) sa q) rfl rfl rfl rfl (nx := c.enterLoop (S.toNat % 2 ^ 24) q.toNat) rfl
    rwa [Core.stepTo_enterLoop] at h

/-- The loop stack at an END (06:R397). -/
theorem endCount_rules (q f r : Nat) (ls : List LoopEntry) :
    endCount q (⟨f, q, r + 2⟩ :: ls) = (f, ⟨f, q, r + 1⟩ :: ls) ∧
    endCount q (⟨f, q, 1⟩ :: ls) = endCount q ls ∧
    (∀ x : LoopEntry, x.last ≠ q → endCount q (x :: ls) = (q + 1, x :: ls)) ∧
    endCount q [] = (q + 1, []) := by
  refine ⟨?_, ?_, fun x hx => ?_, rfl⟩
  · simp [endCount]
  · simp [endCount]
  · exact if_neg hx

/-! HALT (06:R155). -/

theorem Core.Still.commitPlain_halt (hc : c.Still) (x : Issue) :
    ∃ nx n, c.commitPlain e [.halt x] = ((c.placed nx).rested n).halted := by
  obtain ⟨n, hn⟩ := Core.drainAll_empty (e := e) (c := c.placed (c.nextOf [.halt x])) hc.flight
  have hne : ¬((c.placed (c.nextOf [.halt x])).drainAll e).st = .faulted := by
    rw [hn]
    exact fun h => absurd (hc.st.symm.trans h) (by decide)
  have hst : ¬c.st = .faulted := by rw [hc.st]; decide
  have hh : hasHalt [.halt x] = true := rfl
  refine ⟨c.nextOf [.halt x], n, ?_⟩
  rw [← hn]
  unfold Core.commitPlain
  simp only [List.foldl_cons, List.foldl_nil, Core.issueSlot, Core.noteAccs_none (i := .halt x) hc.accs rfl, Core.slotEffect, hc.seg, hst, hh,
    Option.isNone_none, if_true, if_false]
  simp only [Core.placed, Core.busyAfter, hc.flight, hc.seg, List.filter_nil, List.map_nil, List.foldl_nil] at hne ⊢
  exact if_neg hne

/-- A core with nothing in flight halts. -/
theorem State.Quiet.slotIn_halt (hq : s.Quiet k b l) (x : Issue) :
    ∃ m nx n, (s.core k.val).slotIn e (.halt x) true = ((((s.core k.val).rested m).placed nx).rested n).halted := by
  have hlim : decide (2 ^ 40 ≤ (s.core k.val).scyc) = false := by simpa using hq.limit
  have hi : (s.core k.val).issuing = true := by rw [Core.issuing, hq.st]
  obtain ⟨m, hm⟩ := Core.drainAll_empty (e := e) hq.flight
  have hr : ((s.core k.val).rested m).Still := ⟨hq.st, hq.flight, rfl, hq.bundle, hq.seg⟩
  obtain ⟨nx, n, hc⟩ := hr.commitPlain_halt (e := e) x
  refine ⟨m, nx, n, ?_⟩
  have hw : waitOf [.halt x] = none := rfl
  have hh : hasHalt [.halt x] = true := rfl
  unfold Core.slotIn Core.issueBundle
  simp only [hi, hq.bundle, List.nil_append, Core.startCycle_empty _ _ hq.flight, hq.st, hq.seg, hlim, hw, hh, hm, hr.accs, hr.st, hr.seg,
    holdOf_none, hc, Bool.not_true, Bool.and_false, Bool.false_and, Option.isSome_none, Bool.false_eq_true, if_false, if_true, reduceCtorEq]

/-- A core that has no understudy record to write: its messages are heard (06:R149). -/
theorem State.putCore_unlogged {c : Core} (h : s.logTiles b l.num c.msgs = []) :
    s.putCore b l.num k.val c = ((s.setCore k.val c).hearAll b l.num k.val).stopPoints b l.num := by
  unfold State.putCore
  simp only [h, List.any_nil, State.meetTiles_nil, Bool.false_eq_true, if_false]

/-- A core that has told one thing. -/
theorem State.hearAll_one {c : Core} {m : CMsg} (h : c.msgs = [m]) :
    (s.setCore k.val c).hearAll b l.num k.val = (s.setCore k.val { c with msgs := [] }).hear b l.num k.val m := by
  unfold State.hearAll
  simp only [State.setCore_core_same, h, List.foldl_cons, List.foldl_nil, State.setCore_setCore]

theorem State.logTiles_halted (s : State) (b num : Nat) : s.logTiles b num [.halted] = [] := by
  unfold State.logTiles
  split <;> rfl

theorem State.hear_halted (s : State) (b num core : Nat) : s.hear b num core .halted = s.coreStopped b num core := by
  unfold State.hear
  split
  next h => rw [State.coreStopped, h]
  · rfl

/-- A core that has halted is told to its launch. -/
theorem State.putCore_halted {c : Core} (h : c.msgs = [.halted]) :
    s.putCore b l.num k.val c = ((s.setCore k.val { c with msgs := [] }).coreStopped b l.num k.val).stopPoints b l.num := by
  rw [State.putCore_unlogged (by rw [h]; exact State.logTiles_halted ..), State.hearAll_one h, State.hear_halted]

theorem State.Quiet.runs_halt (hq : s.Quiet k b l) :
    ∃ c', exec (.halt (at1 k)) s = .next (((s.setCore k.val c').coreStopped b l.num k.val).stopPoints b l.num) ∧
       c'.st = .halted ∧ c'.cues = [] ∧ c'.flight = [] ∧ c'.msgs = [] ∧ c'.offset = (s.core k.val).offset ∧
       c'.slipEvents = (s.core k.val).slipEvents ∧ c'.slipCycles = (s.core k.val).slipCycles ∧ c'.s = (s.core k.val).s ∧
       c'.toks = (s.core k.val).toks := by
  obtain ⟨m, nx, n, hc⟩ := hq.slotIn_halt (e := (s.box b).env l k.val) (at1 k)
  refine ⟨{ ((((s.core k.val).rested m).placed nx).rested n).halted with msgs := [] }, ?_, rfl, rfl, hq.flight, rfl, rfl, rfl, rfl, rfl, rfl⟩
  change Host.Outcome.next (s.submit _ (at1 k)) = _
  rw [State.submit_runs hq.toRuns, hc, State.putCore_halted]
  exact congrArg (· ++ [CMsg.halted]) hq.msgs

/-! The CWAIT of a bundle whose cue is late (06:R143), and SBRET (06:R145, R146). -/

/-- A core at its CWAIT with no preemption pending and no stop of its launch is held there. -/
theorem Core.hold_stays (hstop : e.stop = false) (hpre : e.preempt = false) (slots : List Instr) (kind miss : Nat) (clear : Bool) :
    c.hold e slots kind miss clear = { c with st := .held, bundle := [], heldAt := some ⟨slots, c.bptr, miss, kind, clear⟩ } := by
  simp only [Core.hold, Core.yield, hstop, hpre, Bool.false_eq_true, if_false, ite_self]

section
variable {q sb : Nat} {sben : Bool} (ha : (c.cue q).armed = true) (hd : (c.cue q).ddl = c.scyc) (hv : (c.cue q).vis = false)
  (hp : c.policy e q ≠ 2) (hs : ¬(c.policy e q = 1 ∧ sben = true ∧ (c.slot sb).armed = true))
include ha hd hv hp hs

/-- A miss without an understudy or a stand-by segment to take: the bundle is held under STALL (06:R143). -/
theorem Core.waitStep_miss (slots : List Instr) : c.waitStep e slots q sben sb none
    = ({ c with misses := satAdd 32 c.misses 1 } : Core).hold e slots 0x80 c.now (decide (c.busy ≤ c.scyc)) := by
  have hs' : (decide (c.policy e q = 1) && sben && (c.slot sb).armed) = false := by simpa [and_assoc] using hs
  unfold Core.waitStep
  simp only [ha, hd, hv, hp, hs', Bool.not_true, Bool.not_false, ne_eq, not_true_eq_false, decide_false, Bool.or_false, Bool.false_and, Bool.false_eq_true,
    Option.isNone_none, Bool.and_true, if_false, if_true]

/-- The same for a bundle that is tried again. -/
theorem Core.waitStep_again (slots : List Instr) (miss kind : Nat) (clear : Bool) :
    c.waitStep e slots q sben sb (some (miss, kind, clear)) = c.hold e slots kind miss clear := by
  have hs' : (decide (c.policy e q = 1) && sben && (c.slot sb).armed) = false := by simpa [and_assoc] using hs
  unfold Core.waitStep
  simp only [ha, hd, hv, hp, hs', Bool.not_true, Bool.not_false, ne_eq, not_true_eq_false, decide_false, Bool.or_false, Bool.false_and, Bool.false_eq_true,
    Option.isNone_some, Bool.and_true, if_false]
end

theorem Core.policy_stall {q : Nat} (h : (c.cue q).pol = 1) : c.policy e q = 1 := by
  rw [Core.policy, h]
  rfl

/-- A stand-by segment's bundle of one slot that puts nothing in flight takes a cycle, and no script cycle (06:R127, R146). -/
def Core.segStep (c : Core) : Core :=
  { c with bptr := (endCount c.bptr c.loops).1 % 2 ^ 14, loops := (endCount c.bptr c.loops).2, now := c.now + 1, seq := c.seq + 1 }

theorem Core.retry_held {h : Held} (hh : c.heldAt = some h) {q sb : Nat} {sben : Bool} (hw : waitOf h.slots = some (q, sben, sb)) :
    c.retry e = c.waitStep e h.slots q sben sb (some (h.miss, h.kind, h.clear)) := by
  unfold Core.retry
  simp only [hh, hw]

/-- A segment has ended: its run is counted and its bit of S31 set (06:R145, R146). -/
def Core.segBack (c : Core) (sl : Nat) (h : Held) : Core :=
  { c.sset 31 (c.sget 31 ||| w32 (2 ^ sl)) with
    standbyRuns := satAdd 32 c.standbyRuns 1, seg := none, bptr := h.ptr, st := .held }

section
variable (c : Core) (q sl : Nat) (h : Held)
theorem Core.segBack_cue : (c.segStep.segBack sl h).cue q = c.cue q := rfl
theorem Core.segBack_slot : (c.segStep.segBack sl h).slot q = c.slot q := rfl
theorem Core.segBack_scyc : (c.segStep.segBack sl h).scyc = c.scyc := rfl
theorem Core.segBack_msgs : (c.segStep.segBack sl h).msgs = c.msgs := rfl
end

/-- The CWAIT is held again as it was before the segment. -/
theorem Core.hold_segBack {h : Held} (hstop : e.stop = false) (hpre : e.preempt = false) (hh : c.heldAt = some h) (sl : Nat) :
    (c.segStep.segBack sl h).hold e h.slots h.kind h.miss h.clear
      = { c.sset 31 (c.sget 31 ||| BitVec.ofNat 32 (2 ^ sl)) with
          st := .held, seg := none, bundle := [], bptr := h.ptr, loops := (endCount c.bptr c.loops).2, now := c.now + 1,
          seq := c.seq + 1, standbyRuns := min (c.standbyRuns + 1) (2 ^ 32 - 1) } := by
  have hd : some (⟨h.slots, (c.segStep.segBack sl h).bptr, h.miss, h.kind, h.clear⟩ : Held) = c.heldAt := hh.symm
  rw [Core.hold_stays hstop hpre, hd]
  rfl

section
variable {sl : Nat} (hst : c.st = .standby) (hseg : c.seg = some (sl, false)) (hf : c.flight = []) (hacc : c.accs = []) (hb : c.bundle = [])
include hst hseg hf hacc hb

theorem Core.commitPlain_sbret (x : Issue) : c.commitPlain e [.sbret x] = c.segStep := by
  have hne : ¬c.st = .faulted := by rw [hst]; decide
  have hna : c.noteAccs [.sbret x] = c := Core.noteAccs_none hacc rfl
  have hn : c.nextOf [.sbret x] = endCount c.bptr c.loops := rfl
  have hh : hasHalt [.sbret x] = false := rfl
  unfold Core.commitPlain
  simp only [List.foldl_cons, List.foldl_nil, Core.issueSlot, hna, Core.slotEffect, hh, hne, hseg, hn, Option.isNone_some, Bool.false_and,
    Bool.false_eq_true, if_false]
  rw [Core.endCycle_empty (by exact hf), Core.settle_running (by exact hne)]
  simp only [Core.withNow, Core.segStep, hb, hseg]

/-- SBRET goes back to the CWAIT that the segment stood in for (06:R145). -/
theorem Core.slotIn_sbret {h : Held} (hh : c.heldAt = some h) (x : Issue) {q sb : Nat} {sben : Bool} (hw : waitOf h.slots = some (q, sben, sb)) :
    c.slotIn e (.sbret x) true = (c.segStep.segBack sl h).waitStep e h.slots q sben sb (some (h.miss, h.kind, h.clear)) := by
  have hi : c.issuing = true := by rw [Core.issuing, hst, hseg]; rfl
  have hwn : waitOf [.sbret x] = none := rfl
  have hhn : hasHalt [.sbret x] = false := rfl
  have hsb : hasSbret [.sbret x] = true := rfl
  have hg : c.segStep.st = .standby := hst
  have hret : c.segStep.endSegment e = (c.segStep.segBack sl h).retry e := by
    have hs : c.segStep.seg = some (sl, false) := hseg
    have hd : c.segStep.heldAt = some h := hh
    unfold Core.endSegment
    simp only [hs, hd]
    rfl
  have hd : (c.segStep.segBack sl h).heldAt = some h := hh
  unfold Core.slotIn Core.issueBundle
  simp only [hi, hb, List.nil_append, Core.startCycle_empty _ _ hf, hst, hseg, hacc, holdOf_none, hwn, hhn, hsb,
    Core.commitPlain_sbret hst hseg hf hacc hb, hg, hret, Core.retry_held hd hw, Option.isNone_some, Option.isSome_some, Bool.not_true, Bool.false_and, Bool.and_true,
    Bool.false_eq_true, if_false, if_true, reduceCtorEq, ne_eq, not_false_eq_true, decide_true]
end

/-- Settles O19: control flow by the slot's next place, HALT by its drained core, SBRET by the CWAIT tried again. -/
theorem controlFlowResults : Obligations.ControlFlowResults := by
  refine ⟨fun s k b l hq t q sa n => hq.control t q sa n, endCount_rules, fun s k b l hq => hq.runs_halt, ?_⟩
  intro s k b l sb h q sl en hr c hst hseg hh hf hacc hb hw harm hddl hvis hpol hslot hpre
  have hw : c.slotIn ((s.box b).env l k.val) (.sbret (at1 k)) true
      = (c.segStep.segBack sb h).hold ((s.box b).env l k.val) h.slots h.kind h.miss h.clear := by
    refine (Core.slotIn_sbret hst hseg hf hacc hb hh (at1 k) hw).trans (Core.waitStep_again ?_ ?_ ?_ ?_ ?_ ..)
    · rw [Core.segBack_cue, harm]
    · rw [Core.segBack_cue, Core.segBack_scyc, hddl]
    · rw [Core.segBack_cue, hvis]
    · rw [Core.policy_stall (by rw [Core.segBack_cue, hpol])]
      decide
    · rw [Core.segBack_slot, hslot]
      simp
  rw [Core.hold_segBack (congrArg Option.isSome hr.going) hpre hh] at hw
  exact congrArg Host.Outcome.next (State.submit_silent hr hw hr.msgs)

end
end Sys2Proof.Machine

/-! SBREG, CARM, CRET, CDROP and CPOST (06:R131, R138, R139, R145; 08:R191, R201). -/
namespace Sys2Proof.Machine
section

variable {s : State} {k : Fin 128} {b : Nat} {l : Launch} {i : Instr} {e : CEnv} {c d : Core} {g : Core → Core}

/-- What a slot that acts on tables of the core leaves as it is: the sequencer's own. -/
structure Core.SameRun (c d : Core) : Prop where
  flight : d.flight = c.flight
  seg : d.seg = c.seg
  st : d.st = c.st
  msgs : d.msgs = c.msgs
  now : d.now = c.now
  bundle : d.bundle = c.bundle
  scyc : d.scyc = c.scyc

theorem Core.SameRun.refl (c : Core) : c.SameRun c := ⟨rfl, rfl, rfl, rfl, rfl, rfl, rfl⟩
theorem Core.SameRun.trans {x : Core} (h : c.SameRun d) (h' : d.SameRun x) : c.SameRun x :=
  ⟨h'.flight.trans h.flight, h'.seg.trans h.seg, h'.st.trans h.st, h'.msgs.trans h.msgs, h'.now.trans h.now, h'.bundle.trans h.bundle,
    h'.scyc.trans h.scyc⟩
theorem Core.sameRun_setSlot (c : Core) (j : Nat) (x : SbSlot) : c.SameRun (c.setSlot j x) := ⟨rfl, rfl, rfl, rfl, rfl, rfl, rfl⟩
theorem Core.sameRun_setCue (c : Core) (j : Nat) (x : Cue) : c.SameRun (c.setCue j x) := ⟨rfl, rfl, rfl, rfl, rfl, rfl, rfl⟩
theorem Core.sameRun_updCtx (c : Core) (j : Nat) (f : SCtx → SCtx) : c.SameRun (c.updCtx j f) := ⟨rfl, rfl, rfl, rfl, rfl, rfl, rfl⟩

theorem Core.sameRun_foldl {f : Core → Nat → Core} (hf : ∀ (c : Core) i, c.SameRun (f c i)) (is : List Nat) : ∀ c : Core, c.SameRun (is.foldl f c) := by
  induction is with
  | nil => exact Core.SameRun.refl
  | cons i is ih => exact fun c => (hf c i).trans (ih _)

/-- CDROP: the cue is disarmed, and cleared for every buffer that records it (06:R138; 08:R191). -/
def Core.dropped (q : Fin 64) (c : Core) : Core :=
  (List.range 128).foldl (fun c i =>
    if Tab.has c.ctxs i then c.updCtx i (fun y => (List.range 8).foldl (fun y j =>
      if y.armed.testBit j && y.cueOf j == q.val then { y with armed := setBitN y.armed j false } else y) y)
    else c) (c.setCue q.val {})

theorem Core.slotEffect_cdrop (c : Core) (x : Issue) (q : Fin 64) : c.slotEffect (.cdrop x q) = c.dropped q := by
  rw [Core.slotEffect, Core.doCdrop, Core.dropped]
  rfl

theorem Core.sameRun_dropped (c : Core) (q : Fin 64) : c.SameRun (c.dropped q) := by
  unfold Core.dropped
  refine (Core.sameRun_setCue c q.val {}).trans (Core.sameRun_foldl (fun d i => ?_) _ _)
  split
  · exact Core.sameRun_updCtx ..
  · exact .refl d

/-- A slot that acts on tables of the core, and hands over banks at the end of the cycle (08:R201). -/
theorem State.does_passes (hq : s.Quiet k b l) (hg : (s.core k.val).SameRun (g (s.core k.val))) (ops : List (Micro × (Core → Core)))
    (hl : ∀ o ∈ ops, o.1.leaf = true ∧ ∀ e p c, p.op = o.1 → Core.micro e p c = o.2 c)
    (he : (s.core k.val).slotEffect i = (g (s.core k.val)).withFlight (ops.map (fun o =>
      ⟨keyAt ((s.core k.val).now + 1) phPass, (s.core k.val).seq, (s.core k.val).bptr, o.1⟩)))
    (hi : PlainSlot k i := by exact ⟨fun _ => rfl, rfl, fun _ => rfl, fun _ => rfl⟩) : s.Does i k g (ops.map (fun o => (1, o.2))) :=
  State.does_leaves s k b l hq i (hi.exec s) hi.plain (hi.accs _) (hi.next _) 1 phPass (by decide) g ops hl
    ⟨hg.flight.trans hq.flight, hg.seg, hg.st, hg.msgs, hg.now, hg.bundle, hg.scyc⟩ he

/-- A slot that acts on tables of the core at once. -/
theorem State.does_now (hq : s.Quiet k b l) (hg : (s.core k.val).SameRun (g (s.core k.val))) (he : (s.core k.val).slotEffect i = g (s.core k.val))
    (hi : PlainSlot k i := by exact ⟨fun _ => rfl, rfl, fun _ => rfl, fun _ => rfl⟩) : s.Does i k g [] := by
  refine State.does_passes hq hg [] (by simp) ?_ hi
  rw [he]
  exact (Core.withFlight_self (hg.flight.trans hq.flight)).symm

theorem State.Quiet.does_cdrop (hq : s.Quiet k b l) (q : Fin 64) : s.Does (.cdrop (at1 k) q) k (Core.dropped q) [] :=
  State.does_now hq (Core.sameRun_dropped _ q) (Core.slotEffect_cdrop ..)

theorem State.Quiet.does_sbreg (hq : s.Quiet k b l) (sb : Fin 8) (entry : BitVec 14) :
    s.Does (.sbreg (at1 k) sb entry) k (fun c => c.setSlot sb.val ⟨true, entry.toNat⟩) [] :=
  State.does_now hq (Core.sameRun_setSlot ..) rfl

/-- CARM of a cue that is not armed (06:R138). -/
theorem State.Quiet.does_carm (hq : s.Quiet k b l) {q : Fin 64} (ha : ((s.core k.val).cue q.val).armed = false) (pol : BitVec 2) (dl : Dl) :
    s.Does (.carm (at1 k) q pol dl) k (fun c => c.setCue q.val ⟨true, ((s.core k.val).scyc + (s.core k.val).dlVal dl) % 2 ^ 40,
      if pol = 1 then 1 else 0, false, false, none⟩) [] := by
  have hpol : pol.toNat = 1 ↔ pol = 1 := by revert pol; decide
  have hrun := Core.sameRun_setCue (s.core k.val) q.val
    ⟨true, ((s.core k.val).scyc + (s.core k.val).dlVal dl) % 2 ^ 40, if pol = 1 then 1 else 0, false, false, none⟩
  refine State.does_now hq hrun ?_
  rw [Core.slotEffect, Core.doCarm, ha]
  simp only [hpol, Bool.false_eq_true, if_false]
  rfl

/-- CRET arms a cue for a buffer and records it there (08:R201). -/
def Core.armBuf (c : Core) (ddl pol st buf cue : Nat) : Core :=
  (c.arm cue ddl pol (some (st, buf))).updCtx st (fun y => { y with cues := Tab.set 0 y.cues buf cue, armed := setBitN y.armed buf true })

/-- The banks of a buffer that the script holds, which pass to the stream at the end of the cycle (08:R201). -/
def handOvers (x : SCtx) (st buf : Nat) : List (Micro × (Core → Core)) :=
  if x.held.testBit buf then []
  else [(.passBank st buf, fun c => c.updCtx st (fun y => { y with held := setBitN y.held buf true }))]

theorem handOvers_seen (x : SCtx) (st buf : Nat) : (handOvers x st buf).map (fun o => (1, o.2))
    = if x.held.testBit buf then [] else [(1, fun c => c.updCtx st (fun y => { y with held := setBitN y.held buf true }))] := by
  unfold handOvers
  split <;> rfl

theorem handOvers_leaf (x : SCtx) (st buf : Nat) :
    ∀ o ∈ handOvers x st buf, o.1.leaf = true ∧ ∀ e p c, p.op = o.1 → Core.micro e p c = o.2 c := by
  unfold handOvers
  split
  · simp
  · rintro o ho
    obtain rfl := List.mem_singleton.1 ho
    refine ⟨rfl, ?_⟩
    rintro e ⟨key, sq, bd, _⟩ c rfl
    rfl

def Core.handOver (c : Core) (x : SCtx) (st buf : Nat) : Core :=
  if !x.held.testBit buf then c.later 1 phPass (.passBank st buf) else c

/-- A buffer's banks go in flight behind those of the same instruction. -/
theorem Core.handOver_eq (h : ∀ p ∈ c.flight, p.key = keyAt (c.now + 1) phPass ∧ p.seq = c.seq) (x : SCtx) (st buf : Nat) :
    c.handOver x st buf
      = c.withFlight (c.flight ++ (handOvers x st buf).map (fun o => ⟨keyAt (c.now + 1) phPass, c.seq, c.bptr, o.1⟩)) := by
  unfold Core.handOver handOvers
  cases x.held.testBit buf with
  | true => simp [Core.withFlight]
  | false =>
    have hi : pendInsert ⟨keyAt (c.now + 1) phPass, c.seq, c.bptr, .passBank st buf⟩ c.flight
        = c.flight ++ [⟨keyAt (c.now + 1) phPass, c.seq, c.bptr, .passBank st buf⟩] :=
      pendInsert_last _ fun q hq => Or.inr ⟨(h q hq).1, (h q hq).2.le⟩
    exact congrArg c.withFlight hi

theorem handOvers_pend {p : Pend} {x : SCtx} {st buf key seq bd : Nat}
    (h : p ∈ (handOvers x st buf).map (fun o => (⟨key, seq, bd, o.1⟩ : Pend))) : p.key = key ∧ p.seq = seq := by
  obtain ⟨o, -, rfl⟩ := List.mem_map.1 h
  exact ⟨rfl, rfl⟩

section
variable (c) (ddl pol st buf q : Nat) (fl : List Pend)
theorem Core.armBuf_withFlight : (c.withFlight fl).armBuf ddl pol st buf q = (c.armBuf ddl pol st buf q).withFlight fl := rfl
theorem Core.armBuf_flight : (c.armBuf ddl pol st buf q).flight = c.flight := rfl
theorem Core.armBuf_now : (c.armBuf ddl pol st buf q).now = c.now := rfl
theorem Core.armBuf_seq : (c.armBuf ddl pol st buf q).seq = c.seq := rfl
theorem Core.armBuf_bptr : (c.armBuf ddl pol st buf q).bptr = c.bptr := rfl
theorem Core.sameRun_armBuf : c.SameRun (c.armBuf ddl pol st buf q) := ⟨rfl, rfl, rfl, rfl, rfl, rfl, rfl⟩

/-- A buffer armed on a core with nothing in flight. -/
theorem Core.armBuf_handOver (hf : c.flight = []) (x : SCtx) : (c.armBuf ddl pol st buf q).handOver x st buf
    = (c.armBuf ddl pol st buf q).withFlight
      ((handOvers x st buf).map (fun o => ⟨keyAt (c.now + 1) phPass, c.seq, c.bptr, o.1⟩)) := by
  rw [Core.handOver_eq, Core.armBuf_flight, hf]
  · rfl
  · rw [Core.armBuf_flight, hf]
    simp

/-- The second buffer of a pair. -/
theorem Core.armBuf_handOver_next {fl : List Pend} (h : ∀ p ∈ fl, p.key = keyAt (c.now + 1) phPass ∧ p.seq = c.seq) (x : SCtx) :
    ((c.withFlight fl).armBuf ddl pol st buf q).handOver x st buf = (c.armBuf ddl pol st buf q).withFlight
      (fl ++ (handOvers x st buf).map (fun o => ⟨keyAt (c.now + 1) phPass, c.seq, c.bptr, o.1⟩)) := by
  rw [Core.armBuf_withFlight, Core.handOver_eq h]
  rfl
end

section
variable {st : Fin 128} {buf : Fin 8} {q : Fin 64} {dl : Dl}

theorem Core.doCret_one (hp : (c.ctx st.val).pol ≠ 2) (hb : buf.val ≤ (c.ctx st.val).nbuf)
    (hx : (c.ctx st.val).armed.testBit buf.val = false) (ha : (c.cue q.val).armed = false) :
    c.doCret st buf q dl
      = (c.armBuf (c.scyc + c.dlVal dl) (c.ctx st.val).pol st.val buf.val q.val).handOver (c.ctx st.val) st.val buf.val := by
  unfold Core.doCret
  simp only [hp, hx, ha, Nat.not_lt.2 hb, decide_false, Bool.false_and, if_false, List.any_cons, List.any_nil, Bool.or_false, Bool.false_eq_true,
    List.foldl_cons, List.foldl_nil]
  rfl

/-- The two buffers of a pair under UNDERSTUDY (06:R148; 08:R191). -/
theorem Core.doCret_pair (hp : (c.ctx st.val).pol = 2) (hbe : buf.val % 2 = 0) (hqe : q.val % 2 = 0) (hb : buf.val + 1 ≤ (c.ctx st.val).nbuf)
    (h0 : (c.ctx st.val).armed.testBit buf.val = false) (ha0 : (c.cue q.val).armed = false)
    (h1 : (c.ctx st.val).armed.testBit (buf.val + 1) = false) (ha1 : (c.cue (q.val + 1)).armed = false) :
    c.doCret st buf q dl = (((c.armBuf (c.scyc + c.dlVal dl) 2 st.val buf.val q.val).handOver (c.ctx st.val) st.val buf.val).armBuf
      (c.scyc + c.dlVal dl) 2 st.val (buf.val + 1) (q.val + 1)).handOver (c.ctx st.val) st.val (buf.val + 1) := by
  have hbad : (decide ((c.ctx st.val).nbuf < buf.val)) = false := decide_eq_false (by omega)
  unfold Core.doCret
  simp only [hp, hbe, hqe, h0, ha0, h1, ha1, hbad, Nat.not_lt.2 hb, decide_true, decide_false, if_true, if_false, List.any_cons, List.any_nil,
    Bool.or_false, Bool.and_false, Bool.false_eq_true, Nat.zero_ne_one, List.foldl_cons, List.foldl_nil]
  rfl

theorem State.Quiet.does_cret (hq : s.Quiet k b l) (hp : ((s.core k.val).ctx st.val).pol ≠ 2)
    (hb : buf.val ≤ ((s.core k.val).ctx st.val).nbuf) (hx : ((s.core k.val).ctx st.val).armed.testBit buf.val = false)
    (ha : ((s.core k.val).cue q.val).armed = false) : s.Does (.cret (at1 k) st buf q dl) k
      (fun c => c.armBuf ((s.core k.val).scyc + (s.core k.val).dlVal dl) ((s.core k.val).ctx st.val).pol st.val buf.val q.val)
      ((handOvers ((s.core k.val).ctx st.val) st.val buf.val).map (fun o => (1, o.2))) := by
  refine State.does_passes hq (Core.sameRun_armBuf ..) _ (handOvers_leaf _ _ _) ?_
  rw [Core.slotEffect, Core.doCret_one hp hb hx ha]
  exact Core.armBuf_handOver _ _ _ _ _ _ hq.flight _

theorem State.Quiet.does_cret_pair (hq : s.Quiet k b l) (hp : ((s.core k.val).ctx st.val).pol = 2) (hbe : buf.val % 2 = 0)
    (hqe : q.val % 2 = 0) (hb : buf.val + 1 ≤ ((s.core k.val).ctx st.val).nbuf)
    (hfree : ∀ j < 2, ((s.core k.val).ctx st.val).armed.testBit (buf.val + j) = false ∧ ((s.core k.val).cue (q.val + j)).armed = false) :
    s.Does (.cret (at1 k) st buf q dl) k
      (fun c => (c.armBuf ((s.core k.val).scyc + (s.core k.val).dlVal dl) 2 st.val buf.val q.val).armBuf
        ((s.core k.val).scyc + (s.core k.val).dlVal dl) 2 st.val (buf.val + 1) (q.val + 1))
      ((handOvers ((s.core k.val).ctx st.val) st.val buf.val ++ handOvers ((s.core k.val).ctx st.val) st.val (buf.val + 1)).map
        (fun o => (1, o.2))) := by
  obtain ⟨h0, ha0⟩ := hfree 0 (by decide)
  obtain ⟨h1, ha1⟩ := hfree 1 (by decide)
  refine State.does_passes hq ((Core.sameRun_armBuf ..).trans (Core.sameRun_armBuf ..)) _
    (fun o ho => (List.mem_append.1 ho).elim (handOvers_leaf _ _ _ o) (handOvers_leaf _ _ _ o)) ?_
  rw [Core.slotEffect, Core.doCret_pair hp hbe hqe hb h0 ha0 h1 ha1, Core.armBuf_handOver _ _ _ _ _ _ hq.flight,
    List.map_append]
  exact Core.armBuf_handOver_next _ _ _ _ _ _ (fun p hp => handOvers_pend hp) _
end

theorem State.Quiet.cues (hq : s.Quiet k b l) (sb buf : Fin 8) (entry : BitVec 14) (cue : Fin 64) (pol : BitVec 2) (dl : Dl) (st : Fin 128) :
    let c := s.core k.val
    let D := (c.scyc + c.dlVal dl) % 2 ^ 40
    let arm (c : Core) (q p : Nat) (f : Option (Nat × Nat)) : Core := c.setCue q ⟨true, D, p, false, false, f⟩
    let x := c.ctx st.val
    s.Does (.sbreg (at1 k) sb entry) k (fun c => c.setSlot sb.val ⟨true, entry.toNat⟩) [] ∧
    ((c.cue cue.val).armed = false →
      s.Does (.carm (at1 k) cue pol dl) k (fun c => arm c cue.val (if pol = 1 then 1 else 0) none) []) ∧
    (s.Does (.cdrop (at1 k) cue) k (fun c => (List.range 128).foldl (fun c i =>
        if Tab.has c.ctxs i then c.updCtx i (fun y => (List.range 8).foldl (fun y j =>
          if y.armed.testBit j && y.cueOf j == cue.val then { y with armed := setBitN y.armed j false } else y) y)
        else c) (c.setCue cue.val {})) []) ∧
    (x.pol ≠ 2 → buf.val ≤ x.nbuf → x.armed.testBit buf.val = false → (c.cue cue.val).armed = false →
      s.Does (.cret (at1 k) st buf cue dl) k
        (fun c => (arm c cue.val x.pol (some (st.val, buf.val))).updCtx st.val (fun y =>
          { y with cues := Tab.set 0 y.cues buf.val cue.val, armed := setBitN y.armed buf.val true }))
        (if x.held.testBit buf.val then []
         else [(1, fun c => c.updCtx st.val (fun y => { y with held := setBitN y.held buf.val true }))])) ∧
    (x.pol = 2 → buf.val % 2 = 0 → cue.val % 2 = 0 → buf.val + 1 ≤ x.nbuf →
      (∀ j < 2, x.armed.testBit (buf.val + j) = false ∧ (c.cue (cue.val + j)).armed = false) →
      let one (j : Nat) (c : Core) : Core := (arm c (cue.val + j) 2 (some (st.val, buf.val + j))).updCtx st.val (fun y =>
        { y with cues := Tab.set 0 y.cues (buf.val + j) (cue.val + j), armed := setBitN y.armed (buf.val + j) true })
      let give (j : Nat) : List (Nat × (Core → Core)) :=
        if x.held.testBit (buf.val + j) then []
        else [(1, fun c => c.updCtx st.val (fun y => { y with held := setBitN y.held (buf.val + j) true }))]
      s.Does (.cret (at1 k) st buf cue dl) k (fun c => one 1 (one 0 c)) (give 0 ++ give 1)) := by
  intro c D arm x
  refine ⟨hq.does_sbreg sb entry, fun ha => hq.does_carm ha pol dl, hq.does_cdrop cue, ?_, ?_⟩
  · intro hp hb hx ha
    rw [← handOvers_seen]
    exact hq.does_cret hp hb hx ha
  · intro hp hbe hqe hb hfree one give
    rw [show give 0 = _ from (handOvers_seen ..).symm, show give 1 = _ from (handOvers_seen ..).symm, ← List.map_append]
    exact hq.does_cret_pair hp hbe hqe hb hfree

/-! CPOST (06:R131, R139). -/

theorem State.stopPoints_going (hl : (s.box b).launch l.num = some l) (hg : l.stop = none) : s.stopPoints b l.num = s := by
  unfold State.stopPoints
  simp only [hl, hg, Option.isNone_none, Bool.true_or, if_true]

theorem State.logTiles_post (s : State) (b num dest cue ddl : Nat) : s.logTiles b num [.post dest cue ddl] = [] := by
  unfold State.logTiles
  split <;> rfl

/-- The deadline that a CPOST names (06:R131). -/
def Core.postDeadline (c : Core) (r : Fin 32) : Nat := (c.sget (r.val + 1)).toNat % 2 ^ 8 * 2 ^ 32 + (c.sget r.val).toNat

/-- What a core has to tell the device. -/
def Core.withMsgs (c : Core) (ms : List CMsg) : Core := { c with msgs := ms }

theorem Core.withMsgs_self (h : c.msgs = []) : c.withMsgs [] = c := by
  unfold Core.withMsgs
  rw [← h]

theorem State.Quiet.slotIn_cpost (hq : s.Quiet k b l) (x : Issue) (dest : Fin 128) (cue : Fin 64) (r : Fin 32) : (s.core k.val).slotIn e (.cpost x dest cue r) true
      = (s.core k.val).along.withMsgs [.post dest.val cue.val ((s.core k.val).postDeadline r)] := by
  rw [hq.slotIn_free rfl rfl, hq.still.commitPlain (i := .cpost x dest cue r) rfl ⟨hq.st, hq.flight, hq.accs, hq.bundle, hq.seg⟩ rfl rfl]
  exact congrArg (s.core k.val).along.withMsgs (congrArg (· ++ [_]) hq.msgs)

/-- A CPOST issues, and its token goes out. -/
theorem State.Quiet.runs_cpost (hq : s.Quiet k b l) (dest : Fin 128) (cue : Fin 64) (r : Fin 32) :
    exec (.cpost (at1 k) dest cue r) s = .next (((s.setCore k.val (s.core k.val).along).hear b l.num k.val
      (.post dest.val cue.val ((s.core k.val).postDeadline r))).stopPoints b l.num) := by
  have hm : (s.core k.val).along.msgs = [] := hq.msgs
  have htold : ((s.core k.val).along.withMsgs [.post dest.val cue.val ((s.core k.val).postDeadline r)]).msgs
    = [.post dest.val cue.val ((s.core k.val).postDeadline r)] := rfl
  change Host.Outcome.next (s.submit _ (at1 k)) = _
  rw [State.submit_runs hq.toRuns, hq.slotIn_cpost, State.putCore_unlogged, State.hearAll_one htold]
  · exact congrArg (fun c => Host.Outcome.next (((s.setCore k.val c).hear b l.num k.val _).stopPoints b l.num)) (Core.withMsgs_self hm)
  · exact State.logTiles_post ..

/-- A token for a core of the box (06:R139). -/
theorem State.hear_post_inside (hl : (s.box b).launch l.num = some l) {dest : Nat} (hd : s.boxOfCore dest = some b)
    (hs : ∀ m ∈ (s.box b).launches, Tab.has m.saved dest = false) (core cue ddl : Nat) :
    s.hear b l.num core (.post dest cue ddl) = s.setCore dest ((s.core dest).receive ⟨.post, cue, ddl, 0, 0, false, 1⟩) := by
  have hnone : (s.box b).launches.find? (fun m => m.num == l.num && Tab.has m.saved dest) = none :=
    List.find?_eq_none.2 fun m hm => by simp [hs m hm]
  unfold State.hear State.sendToken
  simp only [hl, hd, hnone, if_true]
  rfl

/-- A token for a core outside the box is dropped and counted (06:R139). -/
theorem State.hear_post_outside (hl : (s.box b).launch l.num = some l) {dest : Nat} (hd : s.boxOfCore dest ≠ some b) (core cue ddl : Nat) :
    s.hear b l.num core (.post dest cue ddl) = s.setCore core { s.core core with stale := satAdd 32 (s.core core).stale 1 } := by
  unfold State.hear
  simp only [hl, hd, if_false]

theorem State.Quiet.posts (hq : s.Quiet k b l) (dest : Fin 128) (cue : Fin 64) (r : Fin 32) :
    let c := s.core k.val
    let d := (c.sget (r.val + 1)).toNat % 2 ^ 8 * 2 ^ 32 + (c.sget r.val).toNat
    (s.boxOfCore dest.val = some b → (∀ m ∈ (s.box b).launches, Tab.has m.saved dest.val = false) →
      let t := s.setCore k.val c.along
      exec (.cpost (at1 k) dest cue r) s
        = .next (t.setCore dest.val ((t.core dest.val).receive ⟨.post, cue.val, d, 0, 0, false, 1⟩))) ∧
    (s.boxOfCore dest.val ≠ some b →
      exec (.cpost (at1 k) dest cue r) s
        = .next (s.setCore k.val { c.along with stale := min (c.stale + 1) (2 ^ 32 - 1) })) := by
  intro c d
  refine ⟨fun hd hs => ?_, fun hd => ?_⟩
  · intro t
    rw [hq.runs_cpost, State.hear_post_inside (s := s.setCore k.val (s.core k.val).along) hq.sole hd hs, State.stopPoints_going (by exact hq.sole) hq.going]
    rfl
  · rw [hq.runs_cpost, State.hear_post_outside (s := s.setCore k.val (s.core k.val).along) hq.sole hd, State.stopPoints_going (by exact hq.sole) hq.going, State.setCore_core_same,
      State.setCore_setCore]
    rfl

end
end Sys2Proof.Machine

/-! CWAIT at its deadline (06:R141, R143 to R145, R148). -/
namespace Sys2Proof.Machine
section

variable {s : State} {k : Fin 128} {b : Nat} {l : Launch} {e : CEnv} {c : Core} {q sb : Nat} {sben : Bool}

/-- Only the even cue of a pair acts as UNDERSTUDY (06:R148). -/
theorem Core.policy_understudy (h : c.policy e q = 2) : (c.cue q).pol = 2 ∧ q % 2 ≠ 1 := by
  unfold Core.policy at h
  dsimp only at h
  split at h
  next hp =>
    refine ⟨hp, fun ho => ?_⟩
    rw [if_pos ho] at h
    exact absurd h (by decide)
  next hp => exact absurd h hp

/-- STALL, and UNDERSTUDY where no understudy can be taken (06:R143, R148, R149). -/
theorem Core.policy_zero (h : (c.cue q).pol = 0 ∨ ((c.cue q).pol = 2 ∧ (q % 2 = 1 ∨ (e.replay = false ∧ (e.und = false ∨ e.full = true))))) :
    c.policy e q = 0 := by
  unfold Core.policy
  rcases h with h | ⟨h, ho | ⟨hr, hu | hu⟩⟩
  · simp [h]
  · simp [h, ho]
  · simp [h, hr, hu]
  · simp [h, hr, hu]

section
variable (ha : (c.cue q).armed = true) (hd : (c.cue q).ddl = c.scyc) (hv : (c.cue q).vis = true) (hr : c.policy e q = 2 → e.replay = false)
include ha hd hv hr

/-- A visible cue is consumed (06:R141). -/
theorem Core.waitStep_visible (slots : List Instr) : c.waitStep e slots q sben sb none = (c.consume q).release e slots c.now 0x80 := by
  unfold Core.waitStep
  by_cases hp : c.policy e q = 2
  · simp only [ha, hd, hv, hp, hr hp, Bool.not_true, Bool.not_false, ne_eq, not_true_eq_false, decide_false, decide_true, Bool.or_false,
      Bool.and_false, Bool.false_eq_true, Bool.and_true, if_false, if_true]
  · simp only [ha, hd, hv, hp, Bool.not_true, Bool.not_false, ne_eq, not_true_eq_false, decide_false, Bool.or_false, Bool.false_and,
      Bool.false_eq_true, Bool.and_true, if_false, if_true, Nat.reduceEqDiff]

/-- The same for a bundle that is tried again. -/
theorem Core.waitStep_visible_again (slots : List Instr) (miss kind : Nat) (clear : Bool) :
    c.waitStep e slots q sben sb (some (miss, kind, clear)) = (c.consume q).release e slots miss (if kind = 0x82 then 0x80 else kind) := by
  unfold Core.waitStep
  by_cases hp : c.policy e q = 2
  · simp only [ha, hd, hv, hp, hr hp, Bool.not_true, Bool.not_false, ne_eq, not_true_eq_false, decide_false, decide_true, Bool.or_false,
      Bool.and_false, Bool.false_eq_true, Bool.and_true, if_false, if_true]
  · simp only [ha, hd, hv, hp, Bool.not_true, Bool.not_false, ne_eq, not_true_eq_false, decide_false, Bool.or_false, Bool.false_and,
      Bool.false_eq_true, Bool.and_true, if_false, if_true]
end

theorem Core.slot_setSlot_same (c : Core) (j : Nat) (x : SbSlot) : (c.setSlot j x).slot j = x := Tab.get_set_same ..

/-- A late cue under STANDBY: the core switches to the slot's segment (06:R145). -/
theorem Core.waitStep_standby (ha : (c.cue q).armed = true) (hd : (c.cue q).ddl = c.scyc) (hv : (c.cue q).vis = false)
    (hp : c.policy e q = 1) (hs : (c.slot sb).armed = true) (slots : List Instr) : c.waitStep e slots q true sb none
      = { ({ c with misses := satAdd 32 c.misses 1 } : Core).setSlot sb { c.slot sb with armed := false } with
          st := .standby, bundle := [], heldAt := some ⟨slots, c.bptr, c.now, 0x81, decide (c.busy ≤ c.scyc)⟩, seg := some (sb, true),
          bptr := (c.slot sb).entry } := by
  unfold Core.waitStep
  simp only [ha, hd, hv, hp, hs, Bool.not_true, Bool.not_false, ne_eq, not_true_eq_false, decide_false, decide_true, Bool.or_false,
    Bool.false_and, Bool.false_eq_true, Option.isNone_none, Bool.and_true, if_false, if_true, Nat.reduceEqDiff, Core.slot_setSlot_same]
  rfl

/-- A consumed cue: disarmed, with USE bit 0; the primary of a pair disarms the other (06:R141, R148). -/
theorem Core.consume_eq (c : Core) (q : Nat) : c.consume q =
    let d := { (c.setCue q {}) with use := c.use &&& ~~~(BitVec.ofNat 64 (2 ^ q)) }
    if (c.cue q).pol = 2 ∧ q % 2 = 0 then d.setCue (q + 1) {} else d := by
  unfold Core.consume
  simp only [Bool.and_eq_true, decide_eq_true_eq]
  rfl

theorem Core.sameRun_consume (c : Core) (q : Nat) : c.SameRun (c.consume q) := by
  rw [Core.consume_eq]
  dsimp only
  split <;> exact ⟨rfl, rfl, rfl, rfl, rfl, rfl, rfl⟩

theorem Core.Still.of_sameRun {d : Core} (hc : c.Still) (h : c.SameRun d) (ha : d.accs = c.accs) : d.Still :=
  ⟨h.st.trans hc.st, h.flight.trans hc.flight, ha.trans hc.accs, h.bundle.trans hc.bundle, h.seg.trans hc.seg⟩

theorem Core.consume_accs (c : Core) (q : Nat) : (c.consume q).accs = c.accs := by
  rw [Core.consume_eq]
  dsimp only
  split <;> rfl

theorem Core.consume_heldAt (c : Core) (q : Nat) : (c.consume q).heldAt = c.heldAt := by
  rw [Core.consume_eq]
  dsimp only
  split <;> rfl

/-- A CWAIT's bundle that issues in the cycle it came to (06:R141). -/
theorem Core.Still.release_now (hc : c.Still) (hh : c.heldAt = none) (x : Issue) (cue : Fin 64) (en : Bool) (sb : Fin 8) (kind : Nat) :
    c.release e [.cwait x cue en sb] c.now kind = c.along := by
  have hne : ¬c.st = .faulted := by rw [hc.st]; decide
  have hre : c.reHold e [.cwait x cue en sb] = c := by
    unfold Core.reHold
    simp only [hc.accs, holdOf_none]
    exact Core.startCycle_empty e c hc.flight
  have hrun : ({ c with st := .running, heldAt := none } : Core) = c := by rw [← hc.st, ← hh]
  unfold Core.release
  simp only [hre, hne, Nat.sub_self, if_true, if_false, hrun]
  exact hc.commitPlain rfl hc rfl rfl

section
variable (hq : s.Quiet k b l) {cue : Fin 64} (ha : ((s.core k.val).cue cue.val).armed = true)
  (hd : ((s.core k.val).cue cue.val).ddl = (s.core k.val).scyc)
include hq ha hd

theorem State.Quiet.runs_visible (hv : ((s.core k.val).cue cue.val).vis = true)
    (hr : l.replay = false ∨ ((s.core k.val).cue cue.val).pol ≠ 2 ∨ cue.val % 2 = 1) (en : Bool) (sb : Fin 8) :
    exec (.cwait (at1 k) cue en sb) s = .next (s.setCore k.val ((s.core k.val).consume cue.val).along) := by
  have hrun := (s.core k.val).sameRun_consume cue.val
  have hpol : (s.core k.val).policy ((s.box b).env l k.val) cue.val = 2 → ((s.box b).env l k.val).replay = false := by
    intro h
    obtain ⟨htwo, heven⟩ := Core.policy_understudy h
    exact hr.resolve_right fun h => h.elim (absurd htwo) (absurd · heven)
  have hstep : (s.core k.val).slotIn ((s.box b).env l k.val) (.cwait (at1 k) cue en sb) true = ((s.core k.val).consume cue.val).along := by
    rw [hq.slotIn_wait, Core.waitStep_visible ha hd hv hpol, ← hrun.now]
    exact (hq.still.of_sameRun hrun (Core.consume_accs ..)).release_now ((Core.consume_heldAt ..).trans hq.held) ..
  exact congrArg Host.Outcome.next (State.submit_silent hq.toRuns hstep (hrun.msgs.trans hq.msgs))

theorem State.Quiet.runs_late (hv : ((s.core k.val).cue cue.val).vis = false) (hpre : (s.box b).preemptPending l k.val = false)
    (en : Bool) (sb : Fin 8) (hp : (s.core k.val).policy ((s.box b).env l k.val) cue.val ≠ 2)
    (hs : ¬((s.core k.val).policy ((s.box b).env l k.val) cue.val = 1 ∧ en = true ∧ ((s.core k.val).slot sb.val).armed = true)) :
    exec (.cwait (at1 k) cue en sb) s = .next (s.setCore k.val { s.core k.val with
      st := .held, bundle := [], misses := min ((s.core k.val).misses + 1) (2 ^ 32 - 1),
      heldAt := some ⟨[.cwait (at1 k) cue en sb], (s.core k.val).bptr, (s.core k.val).now, 0x80,
        decide ((s.core k.val).busy ≤ (s.core k.val).scyc)⟩ }) := by
  have hstep := (hq.slotIn_wait (e := (s.box b).env l k.val) (at1 k) cue en sb).trans ((Core.waitStep_miss ha hd hv hp hs _).trans
    (Core.hold_stays (congrArg Option.isSome hq.going) hpre ..))
  exact congrArg Host.Outcome.next (State.submit_silent hq.toRuns hstep hq.msgs)

theorem State.Quiet.runs_standby (hv : ((s.core k.val).cue cue.val).vis = false) (sb : Fin 8)
    (hp : ((s.core k.val).cue cue.val).pol = 1) (hs : ((s.core k.val).slot sb.val).armed = true) :
    exec (.cwait (at1 k) cue true sb) s = .next (s.setCore k.val { (s.core k.val).setSlot sb.val { (s.core k.val).slot sb.val with armed := false } with
      st := .standby, bundle := [], misses := min ((s.core k.val).misses + 1) (2 ^ 32 - 1),
      heldAt := some ⟨[.cwait (at1 k) cue true sb], (s.core k.val).bptr, (s.core k.val).now, 0x81,
        decide ((s.core k.val).busy ≤ (s.core k.val).scyc)⟩,
      seg := some (sb.val, true), bptr := ((s.core k.val).slot sb.val).entry }) := by
  have hstep := (hq.slotIn_wait (e := (s.box b).env l k.val) (at1 k) cue true sb).trans
    (Core.waitStep_standby ha hd hv (Core.policy_stall hp) hs _)
  exact congrArg Host.Outcome.next (State.submit_silent hq.toRuns hstep hq.msgs)
end

/-- Settles O20: the tables that each cue instruction writes, and the branches of a CWAIT at its deadline. -/
theorem cueResults : Obligations.CueResults := by
  refine ⟨fun s k b l hq sb buf entry cue pol dl st dest r => ?_, ?_⟩
  · obtain ⟨hsbreg, hcarm, hcdrop, hcret, hpair⟩ := hq.cues sb buf entry cue pol dl st
    exact ⟨hsbreg, hcarm, hcdrop, hcret, hpair, hq.posts dest cue r⟩
  · intro s k b l hq cue en sb c q i ha hd
    refine ⟨fun hv hr => ?_, fun hv hpre => ⟨fun hp => ?_, fun hp hen hs => ?_⟩⟩
    · rw [hq.runs_visible ha hd hv hr, Core.consume_eq]
    · rcases hp with hp | ⟨hp, hs⟩ | ⟨hp, hs⟩
      · have h0 := Core.policy_zero (e := (s.box b).env l k.val) (.inl hp)
        exact hq.runs_late ha hd hv hpre en sb (by rw [h0]; decide) (by rw [h0]; simp)
      · have h1 := Core.policy_stall (e := (s.box b).env l k.val) hp
        refine hq.runs_late ha hd hv hpre en sb (by rw [h1]; decide) fun h => ?_
        rcases hs with hs | hs
        · exact Bool.false_ne_true (hs.symm.trans h.2.1)
        · exact Bool.false_ne_true (hs.symm.trans h.2.2)
      · have h0 := Core.policy_zero (e := (s.box b).env l k.val)
          (.inr ⟨hp, hs.imp_right fun h => ⟨h.1, h.2.imp_right decide_eq_true⟩⟩)
        exact hq.runs_late ha hd hv hpre en sb (by rw [h0]; decide) (by rw [h0]; simp)
    · subst hen
      exact hq.runs_standby ha hd hv sb hp hs

end
end Sys2Proof.Machine

/-! Writes of the device itself leave cores and launches alone (13:R331). -/
namespace Sys2Proof.Machine
section

variable {s t : State} {b : Nat}

/-- Cores and launches are as they were. -/
structure State.SameWork (s t : State) : Prop where
  cores : t.cores = s.cores
  launches : ∀ b, (t.box b).launches = (s.box b).launches

theorem State.SameWork.refl (s : State) : s.SameWork s := ⟨rfl, fun _ => rfl⟩
theorem State.SameWork.trans {u : State} (h : s.SameWork t) (h' : t.SameWork u) : s.SameWork u :=
  ⟨h'.cores.trans h.cores, fun b => (h'.launches b).trans (h.launches b)⟩

theorem State.sameWork_foldl {α : Type} {f : State → α → State} (hf : ∀ s a, State.SameWork s (f s a)) (as : List α) :
    ∀ s, State.SameWork s (as.foldl f s) := by
  induction as with
  | nil => exact State.SameWork.refl
  | cons a as ih => exact fun s => (hf s a).trans (ih _)

theorem State.sameWork_updTile (s : State) (b tile : Nat) (f : Tile → Tile) : s.SameWork (s.updTile b tile f) := by
  refine ⟨rfl, fun j => ?_⟩
  rw [State.updTile, State.updBox, State.setBox_box]
  split
  next h => rw [h]; rfl
  · rfl

theorem State.sameWork_updSeat (s : State) (k : Nat) (f : Seat → Seat) : s.SameWork (s.updSeat k f) := ⟨rfl, fun _ => rfl⟩

theorem State.sameWork_dropDest (s : State) (m : Moving) : s.SameWork (s.dropDest m) := by
  unfold State.dropDest State.release
  dsimp only
  split
  · exact .refl s
  · split
    · exact ⟨rfl, fun _ => rfl⟩
    · exact .refl s

theorem State.sameWork_abandonMove (s : State) (b tile : Nat) : s.SameWork (s.abandonMove b tile) := by
  refine State.sameWork_foldl (fun s k => ?_) _ s
  split
  next m hm =>
    have hdrop := (s.sameWork_dropDest m).trans (State.sameWork_updTile _ b tile fun t => { t with st := tsResident })
    split
    · dsimp only
      split
      · exact hdrop.trans ((State.sameWork_updSeat ..).trans (State.sameWork_updSeat ..))
      · exact hdrop.trans (State.sameWork_updSeat ..)
    · exact .refl s
  · exact .refl s

theorem State.sameWork_putFrame (s : State) (b tile tier frame : Nat) (d : TileData) : s.SameWork (s.putFrame b tile tier frame d) := by
  unfold State.putFrame
  split
  · exact ⟨rfl, fun _ => rfl⟩
  · exact .refl s

theorem State.sameWork_writeTile {tile : Nat} {d : TileData} (h : s.writeTile b tile d = some t) : s.SameWork t := by
  unfold State.writeTile at h
  split at h
  · cases h
  next tier frame _ =>
    split at h
    · cases h
    · obtain rfl := Option.some.inj h
      refine (s.sameWork_putFrame b tile tier frame d).trans ?_
      generalize s.putFrame b tile tier frame d = u
      have habandon : u.SameWork (if ((u.box b).tile tile).st = tsMigrating then u.abandonMove b tile else u) := by
        split
        · exact u.sameWork_abandonMove b tile
        · exact .refl u
      generalize (if ((u.box b).tile tile).st = tsMigrating then u.abandonMove b tile else u) = v at habandon ⊢
      split
      · exact habandon.trans (State.sameWork_updTile ..)
      · exact habandon

theorem State.sameWork_rangeWrite (s : State) (b addr n : Nat) (img : Mem) : s.SameWork (s.rangeWrite b addr n img) := by
  unfold State.rangeWrite
  split
  · exact .refl s
  · refine State.sameWork_foldl (fun s i => ?_) _ s
    dsimp only
    generalize (if i = 0 then addr % 16384 else 0) = lo
    split
    · exact .refl s
    · split
      · exact .refl s
      · split
        · split
          next h => exact State.sameWork_writeTile h
          · exact .refl s
        · exact .refl s

end
end Sys2Proof.Machine

/-! An understudy is taken (06:R127, R148, R149, R151). -/
namespace Sys2Proof.Machine
section

variable {s : State} {k : Fin 128} {b : Nat} {l : Launch} {e : CEnv} {c : Core} {q sb : Nat} {sben : Bool}

/-- The context of the buffer that a cue is for. -/
def Core.fillOf (c : Core) (q : Nat) : Nat := match (c.cue q).buf with | some (x, _) => x | none => 0

/-- A core that has taken the understudy of cue `q`, but for the stream contexts. -/
def Core.understood (c : Core) (q : Nat) (ctxs : Tab SCtx) : Core :=
  { c with
    ctxs := ctxs
    cues := Tab.set {} (Tab.set {} (Tab.set {} c.cues q {}) q { aband := true }) (q + 1) {}
    use := c.use ||| BitVec.ofNat 64 (2 ^ q)
    understudyUses := satAdd 32 c.understudyUses 1
    msgs := c.msgs ++ [.under c.scyc q (c.fillOf q)] }

theorem Core.takeUnder_eq (c : Core) (q : Nat) : ∃ ctxs, c.takeUnder q = c.understood q ctxs := by
  have habandon : ∃ t, c.abandon q = { c with ctxs := t } := by
    unfold Core.abandon
    split
    · exact ⟨_, rfl⟩
    · exact ⟨c.ctxs, rfl⟩
  obtain ⟨t, ht⟩ := habandon
  refine ⟨t, ?_⟩
  simp only [Core.takeUnder, ht, Core.disarm, Core.setCue, Core.setUse, Core.tell, Core.understood, Core.fillOf, if_true] <;> rfl

theorem Core.understood_cues (c : Core) (q : Nat) (t : Tab SCtx) :
    (c.understood q t).cue q = { aband := true } ∧ (c.understood q t).cue (q + 1) = {} := by
  have hne : q ≠ q + 1 := Nat.ne_of_lt (Nat.lt_succ_self q)
  unfold Core.understood Core.cue
  exact ⟨by rw [Tab.get_set_other _ _ _ _ _ hne, Tab.get_set_same], by rw [Tab.get_set_same]⟩

/-- A miss is counted (06:R143). -/
def Core.missed (c : Core) : Core := { c with misses := satAdd 32 c.misses 1 }

/-- A late cue whose understudy is visible (06:R148). -/
theorem Core.waitStep_under (ha : (c.cue q).armed = true) (hd : (c.cue q).ddl = c.scyc) (hv : (c.cue q).vis = false)
    (hu : (c.cue (q + 1)).vis = true) (hp : c.policy e q = 2) (slots : List Instr) : c.waitStep e slots q sben sb none
      = (let d := (c.missed.takeUnder q).advance e 4
         if d.st = .faulted then d.settle e else d.release e slots c.now 0x82) := by
  unfold Core.waitStep
  simp only [ha, hd, hv, hu, hp, Bool.not_true, Bool.not_false, ne_eq, not_true_eq_false, decide_false, decide_true, Bool.or_true,
    Bool.or_false, Bool.false_eq_true, Option.isNone_none, Bool.and_true, if_false, if_true]
  rfl

/-- A bundle that issues after its cycle, with nothing in flight: the slip is counted, and its slots issue (06:R84, R151). -/
theorem Core.release_late (hst : c.st ≠ .faulted) (hf : c.flight = []) (hacc : c.accs = []) (hb : c.bundle = []) (hseg : c.seg = none)
    {miss : Nat} (hm : miss < c.now) (x : Issue) (cue : Fin 64) (en : Bool) (sb : Fin 8) (kind : Nat) :
    c.release e [.cwait x cue en sb] miss kind
      = ({ c with st := .running, heldAt := none } : Core).along.slip kind 0 (c.now - miss) := by
  have hre : c.reHold e [.cwait x cue en sb] = c := by
    unfold Core.reHold
    simp only [hacc, holdOf_none]
    exact Core.startCycle_empty e c hf
  have hs : c.now - miss ≠ 0 := Nat.sub_ne_zero_of_lt hm
  have hstill : (({ c with st := .running, heldAt := none } : Core).slip kind 0 (c.now - miss)).Still := ⟨rfl, hf, hacc, hb, hseg⟩
  unfold Core.release
  simp only [hre, hst, hs, if_false]
  exact hstill.commitPlain rfl hstill rfl rfl

theorem State.lineBad_of_well {t : Nat} (h : s.lineWell b t) : s.lineBad (s.readPlace b t) = false := by
  unfold State.lineWell at h
  split at h
  next tier frame hp => rw [hp, State.lineBad, h.1]
  next hp =>
    unfold State.lineBad
    split
    next tier frame hp' => exact absurd hp' (hp tier frame)
    · rfl

theorem Box.launch_updLaunch {x : Box} (h : x.launch l.num = some l) {f : Launch → Launch} (hf : ∀ m, (f m).num = m.num) :
    (x.updLaunch l.num f).launch l.num = some (f l) := by
  unfold Box.launch Box.updLaunch at *
  have hsame : ((fun m : Launch => m.num == l.num) ∘ fun m => if m.num = l.num then f m else m) = fun m => m.num == l.num := by
    funext m
    simp only [Function.comp]
    split
    · rw [hf]
    · rfl
  rw [List.find?_map, hsame, h]
  exact congrArg some (if_pos rfl)

/-- An understudy record is written to the launch's log, whose line reads good (06:R149). -/
theorem State.putCore_under (hl : (s.box b).launch l.num = some l) (hg : l.stop = none) {scyc cue ctx : Nat}
    (hm : c.msgs = [.under scyc cue ctx]) (hw : ∀ t ∈ partTiles [(l.log + 16 * l.logged, 16)], s.lineWell b t) :
    s.putCore b l.num k.val c = ((s.setCore k.val (c.withMsgs [])).rangeWrite b (l.log + 16 * l.logged) 16
        (Tab.block 0 0 (underRecord l.num scyc ((s.box b).localCore k.val) cue ctx (s.box b).step))).updLaunch b l.num
          (fun l => { l with logged := l.logged + 1 }) := by
  have hlog : s.logTiles b l.num c.msgs = partTiles [(l.log + 16 * l.logged, 16)] := by
    rw [State.logTiles, hl, hm]
    rfl
  have hbad : (partTiles [(l.log + 16 * l.logged, 16)]).any (fun t => s.lineBad (s.readPlace b t)) = false :=
    List.any_eq_false.2 fun t ht => by rw [State.lineBad_of_well (hw t ht)]; decide
  have hlaunch : (((s.setCore k.val (c.withMsgs [])).rangeWrite b (l.log + 16 * l.logged) 16
        (Tab.block 0 0 (underRecord l.num scyc ((s.box b).localCore k.val) cue ctx (s.box b).step))).box b).launch l.num = some l := by
    rw [Box.launch, (State.sameWork_rangeWrite ..).launches]
    exact hl
  unfold State.putCore
  simp only [hlog, hbad, State.meetTiles_of_well hw, Bool.false_eq_true, if_false, State.hearAll_one hm]
  have hear : (s.setCore k.val { c with msgs := [] }).hear b l.num k.val (.under scyc cue ctx)
      = ((s.setCore k.val (c.withMsgs [])).rangeWrite b (l.log + 16 * l.logged) 16
        (Tab.block 0 0 (underRecord l.num scyc ((s.box b).localCore k.val) cue ctx (s.box b).step))).updLaunch b l.num
          (fun l => { l with logged := l.logged + 1 }) := by
    unfold State.hear
    simp only [State.setCore_box, hl]
    rfl
  rw [hear]
  refine State.stopPoints_going (l := { l with logged := l.logged + 1 }) ?_ hg
  rw [State.updLaunch, State.updBox_box_same]
  exact Box.launch_updLaunch hlaunch fun _ => rfl

/-- A core whose CWAIT has taken its understudy and has issued, 4 cycles late (06:R148, R151). -/
def Core.underIssued (c : Core) (q : Nat) (ctxs : Tab SCtx) : Core :=
  ({ (c.missed.understood q ctxs).withNow (c.now + 4) with
    st := .running, heldAt := none } : Core).along.slip 0x82 0 4

theorem State.Quiet.slotIn_under (hq : s.Quiet k b l) {cue : Fin 64} (ha : ((s.core k.val).cue cue.val).armed = true)
    (hd : ((s.core k.val).cue cue.val).ddl = (s.core k.val).scyc) (hv : ((s.core k.val).cue cue.val).vis = false)
    (hu : ((s.core k.val).cue (cue.val + 1)).vis = true) (hp : (s.core k.val).policy e cue.val = 2) (x : Issue) (en : Bool) (sb : Fin 8) :
    ∃ ctxs, (s.core k.val).slotIn e (.cwait x cue en sb) true = (s.core k.val).underIssued cue.val ctxs := by
  obtain ⟨ctxs, ht⟩ := Core.takeUnder_eq (s.core k.val).missed cue.val
  refine ⟨ctxs, ?_⟩
  have hadv : ((s.core k.val).missed.takeUnder cue.val).advance e 4
      = ((s.core k.val).missed.understood cue.val ctxs).withNow ((s.core k.val).now + 4) := by
    rw [ht, Core.advance_empty (by exact hq.flight)]
    rfl
  have hst : (((s.core k.val).missed.understood cue.val ctxs).withNow ((s.core k.val).now + 4)).st ≠ .faulted :=
    fun h => absurd (hq.st.symm.trans h) (by decide)
  have hlt : (s.core k.val).now < (((s.core k.val).missed.understood cue.val ctxs).withNow ((s.core k.val).now + 4)).now :=
    Nat.lt_add_of_pos_right (Nat.succ_pos 3)
  have hrel := Core.release_late (e := e) hst hq.flight hq.accs hq.bundle hq.seg hlt x cue en sb 0x82
  rw [hq.slotIn_wait, Core.waitStep_under ha hd hv hu hp]
  simp only [hadv, hst, if_false, hrel]
  exact congrArg (Core.slip _ 0x82 0) (Nat.add_sub_cancel_left ..)

theorem satAdd_one_of_lt {n : Nat} (h : n < 2 ^ 32 - 1) : satAdd 32 n 1 = n + 1 := Nat.min_eq_left (Nat.succ_le_of_lt h)

/-- Settles O21: the understudy's cycles pass, its record is written, and nothing stops the launch. -/
theorem understudyIsTaken : Obligations.UnderstudyIsTaken := by
  intro s k b l hq cue en sb c q ha hd hv hp he hu hund hlog hrep huses hslips hw
  have hpol : c.policy ((s.box b).env l k.val) cue.val = 2 := by
    have hfull : ((s.box b).env l k.val).full = false := decide_eq_false (Nat.not_le.2 hlog)
    have hund : ((s.box b).env l k.val).und = true := hund
    have hrep : ((s.box b).env l k.val).replay = false := hrep
    simp [Core.policy, show (c.cue cue.val).pol = 2 from hp, he, hfull, hund, hrep]
  obtain ⟨ctxs, hstep⟩ := hq.slotIn_under (e := (s.box b).env l k.val) ha hd hv hu hpol (at1 k) en sb
  have hm : (c.underIssued cue.val ctxs).msgs = [.under c.scyc cue.val (c.fillOf cue.val)] := congrArg (· ++ [_]) hq.msgs
  have hexec : exec (.cwait (at1 k) cue en sb) s = .next (s.putCore b l.num k.val (c.underIssued cue.val ctxs)) :=
    congrArg Host.Outcome.next ((State.submit_runs hq.toRuns _).trans (congrArg (s.putCore b l.num k.val) hstep))
  rw [State.putCore_under hq.sole hq.going hm hw] at hexec
  have hrun := State.sameWork_rangeWrite (s.setCore k.val ((c.underIssued cue.val ctxs).withMsgs [])) b (l.log + 16 * l.logged) 16
    (Tab.block 0 0 (underRecord l.num c.scyc ((s.box b).localCore k.val) cue.val (c.fillOf cue.val) (s.box b).step))
  obtain ⟨hcue, hnext⟩ := Core.understood_cues c.missed cue.val ctxs
  refine ⟨(c.underIssued cue.val ctxs).withMsgs [], _, hexec, ?_, rfl, hcue, hnext, satAdd_one_of_lt huses, rfl, satAdd_one_of_lt hslips,
    rfl, rfl, rfl, rfl, rfl, rfl, ?_⟩
  · rw [State.updLaunch, State.updBox_core, State.core, hrun.cores]
    exact State.setCore_core_same ..
  · rfl

end
end Sys2Proof.Machine

/-! A held bundle that its token lets go (06:R139, R141, R143, R151). -/
namespace Sys2Proof.Machine
section

variable {s : State} {k : Fin 128} {b : Nat} {l : Launch} {e : CEnv} {c : Core} {q sb : Nat} {sben : Bool} {h : Held} {n : Nat}

/-- Cycles of a hold under STALL (06:R144). -/
def Core.stalledFor (c : Core) (n : Nat) : Core := { c.withNow (c.now + n) with stalled := c.stalled + n }

theorem Core.waitCycles_stall (hh : c.heldAt = some h) (hst : c.st = .held) (hf : c.flight = []) (hk : h.kind ≠ 0x82)
    (hn : c.stalled + n < e.stall) : c.waitCycles e n = c.stalledFor n := by
  have hu : c.waitsUnder e h.slots h.kind = false := by
    rw [Core.waitsUnder, decide_eq_false hk, Bool.false_and]
  have hne : (c.stalledFor n).st ≠ .faulted := fun hx => absurd (hst.symm.trans hx) (by decide)
  unfold Core.waitCycles
  simp only [hh, hst, hu, Nat.not_le.2 hn, ne_eq, not_true_eq_false, Bool.false_eq_true, if_false, Core.advance_empty hf]
  exact Core.settle_running hne

/-- The core whose one token has made cue `q` visible. -/
def Core.shown (c : Core) (n q : Nat) : Core :=
  ((c.stalledFor n).withToks []).setCue q { c.cue q with vis := true }

theorem Core.shown_heldAt (c : Core) (n q : Nat) : (c.shown n q).heldAt = c.heldAt := Core.setCue_heldAt ..
theorem Core.shown_st (c : Core) (n q : Nat) : (c.shown n q).st = c.st := Core.setCue_st ..
theorem Core.shown_scyc (c : Core) (n q : Nat) : (c.shown n q).scyc = c.scyc := Core.setCue_scyc ..
theorem Core.shown_cue (c : Core) (n q : Nat) : (c.shown n q).cue q = { c.cue q with vis := true } := Tab.get_set_same ..

theorem Core.applyToken_shown {t : Token} (hkind : t.kind ≠ .fill) (hstale : t.stale = false) (ha : (c.cue t.cue).armed = true)
    (hv : (c.cue t.cue).vis = false) (hd : (c.cue t.cue).ddl = t.ddl) (n : Nat) :
    ((c.stalledFor n).withToks []).applyToken t = c.shown n t.cue := by
  have hcue : ((c.stalledFor n).withToks []).cue t.cue = c.cue t.cue := rfl
  rw [Core.applyToken_match (by rw [hcue, ha]) (by rw [hcue, hv]) (by rw [hcue, hd]) hstale, if_neg hkind, hcue]
  rfl

theorem Core.visible_held {d : Core} (hd : c.waitCycles e n = d) {t : Token} (ht : d.toks = [t]) (hst : ((d.withToks []).applyToken t).st = .held) :
    c.visible e n [0] [] = ((d.withToks []).applyToken t).retry e := by
  have htake : takeAt [t] [0] = ([t], []) := rfl
  have hone : (d.withToks []).applyTokens [t] = (d.withToks []).applyToken t := rfl
  unfold Core.visible
  rw [hd]
  simp only [ht, htake, List.map_nil, List.append_nil]
  change (if ((d.withToks []).applyTokens [t]).st = .held then ((d.withToks []).applyTokens [t]).retry e else (d.withToks []).applyTokens [t]) = _
  rw [hone, if_pos hst]

/-- A held core whose one token arrives tries its bundle again with the cue visible (06:R139, R141). -/
theorem Core.visible_one (hh : c.heldAt = some h) (hst : c.st = .held) (hf : c.flight = []) {t : Token} {en : Bool} {sb : Nat}
    (hw : waitOf h.slots = some (t.cue, en, sb)) (hk : h.kind ≠ 0x82) (ht : c.toks = [t]) (hkind : t.kind ≠ .fill)
    (hstale : t.stale = false) (ha : (c.cue t.cue).armed = true) (hv : (c.cue t.cue).vis = false)
    (hd : (c.cue t.cue).ddl = t.ddl) (hn : c.stalled + n < e.stall) :
    c.visible e n [0] [] = (c.shown n t.cue).waitStep e h.slots t.cue en sb (some (h.miss, h.kind, h.clear)) := by
  have hshow := Core.applyToken_shown hkind hstale ha hv hd n
  have hheld : (c.shown n t.cue).heldAt = some h := (c.shown_heldAt ..).trans hh
  have hrun : (c.shown n t.cue).st = .held := (c.shown_st ..).trans hst
  rw [Core.visible_held (Core.waitCycles_stall hh hst hf hk hn) ht (by rw [hshow, hrun]), hshow, Core.retry_held hheld hw]

/-- The core with other cues and USE bits, its tokens taken. -/
def Core.withCues (c : Core) (cues : Tab Cue) (use : W64) : Core := { c with toks := [], cues := cues, use := use }

/-- A cue that is made visible and then consumed leaves its place free (06:R141). -/
theorem Core.shown_consume (hp : (c.cue q).pol ≠ 2) (n : Nat) :
    ∃ cues use, Tab.get {} cues q = {} ∧ (c.shown n q).consume q = (c.stalledFor n).withCues cues use := by
  refine ⟨Tab.set {} (c.shown n q).cues q {}, c.use &&& ~~~(BitVec.ofNat 64 (2 ^ q)), Tab.get_set_same .., ?_⟩
  rw [Core.consume_eq, Core.shown_cue]
  simp only [hp, false_and, if_false]
  rfl

/-- A bundle held under STALL whose cue came `n` cycles on, and the slip of its whole hold (06:R151). -/
def Core.letGo (c : Core) (n miss : Nat) (cues : Tab Cue) (use : W64) : Core :=
  ({ (c.stalledFor n).withCues cues use with st := .running, heldAt := none } : Core).along.slip 0x80 0 (c.now + n - miss)

section
variable (c : Core) (n miss : Nat) (cues : Tab Cue) (use : W64)

theorem Core.letGo_issues : (c.letGo n miss cues use).st = .running ∧ (c.letGo n miss cues use).heldAt = none ∧
    (c.letGo n miss cues use).scyc = c.scyc + 1 ∧ (c.letGo n miss cues use).now = c.now + n + 1 ∧ (c.letGo n miss cues use).s = c.s :=
  ⟨rfl, rfl, rfl, rfl, rfl⟩

theorem Core.letGo_slips : (c.letGo n miss cues use).offset = c.offset + (c.now + n - miss) ∧ (c.letGo n miss cues use).slipKind = 0x80 ∧
    (c.letGo n miss cues use).slipEvents = satAdd 32 c.slipEvents 1 ∧
    (c.letGo n miss cues use).slipCycles = satAdd 32 c.slipCycles (c.now + n - miss) ∧
    (c.letGo n miss cues use).slipHold = min (c.now + n - miss) 0xFFFF := ⟨rfl, rfl, rfl, rfl, rfl⟩

theorem Core.letGo_cue (q : Nat) : (c.letGo n miss cues use).cue q = Tab.get {} cues q := rfl
end

theorem Core.waitStep_shown (hst : c.st = .held) (hf : c.flight = []) (hacc : c.accs = []) (hb : c.bundle = []) (hseg : c.seg = none)
    {iss : Issue} {cue : Fin 64} {en : Bool} {sb : Fin 8} {miss : Nat} {clear : Bool} (ha : (c.cue cue.val).armed = true)
    (hd : (c.cue cue.val).ddl = c.scyc) (hp : (c.cue cue.val).pol = 0) (hm : miss < c.now + n) :
    ∃ cues use, Tab.get {} cues cue.val = {} ∧ (c.shown n cue.val).waitStep e [.cwait iss cue en sb] cue.val en sb.val (some (miss, 0x80, clear))
      = c.letGo n miss cues use := by
  obtain ⟨cues, use, hget, hcons⟩ := Core.shown_consume (n := n) (show (c.cue cue.val).pol ≠ 2 by rw [hp]; decide)
  refine ⟨cues, use, hget, ?_⟩
  have hne : ((c.stalledFor n).withCues cues use).st ≠ .faulted := fun h => absurd (hst.symm.trans h) (by decide)
  have hpol : (c.shown n cue.val).policy e cue.val ≠ 2 := by
    rw [Core.policy_zero (.inl (by rw [Core.shown_cue]; exact hp))]
    decide
  rw [Core.waitStep_visible_again (by rw [Core.shown_cue]; exact ha) (by rw [Core.shown_cue, Core.shown_scyc]; exact hd) (by rw [Core.shown_cue])
    (fun h => absurd h hpol), hcons, if_neg (by decide), Core.release_late hne hf hacc hb hseg hm]
  rfl

theorem State.HeldAt.runs_token (hq : s.HeldAt k b l h) {n : Nat} {t : Token} {iss : Issue} {cue : Fin 64} {en : Bool} {sb : Fin 8}
    (hs : h.slots = [.cwait iss cue en sb]) (hk : h.kind = 0x80) (ht : (s.core k.val).toks = [t]) (hc : t.cue = cue.val) (hkind : t.kind ≠ .fill)
    (hstale : t.stale = false) (ha : ((s.core k.val).cue cue.val).armed = true) (hv : ((s.core k.val).cue cue.val).vis = false)
    (hd : ((s.core k.val).cue cue.val).ddl = t.ddl) (hcyc : t.ddl = (s.core k.val).scyc) (hp : ((s.core k.val).cue cue.val).pol = 0)
    (hm : h.miss < (s.core k.val).now + n) (hn : (s.core k.val).stalled + n < (if l.stall = 0 then 2 ^ 32 else l.stall)) :
    ∃ cues use, Tab.get {} cues cue.val = {} ∧
      exec (.tokenVisible k n [0] []) s = .next (s.setCore k.val ((s.core k.val).letGo n h.miss cues use)) := by
  obtain ⟨cues, use, hget, hstep⟩ := Core.waitStep_shown (e := (s.box b).env l k.val) (iss := iss) (en := en) (sb := sb) (clear := h.clear)
    hq.st hq.flight hq.accs hq.bundle hq.seg ha (hd.trans hcyc) hp hm
  refine ⟨cues, use, hget, ?_⟩
  have hvis := Core.visible_one (e := (s.box b).env l k.val) hq.held hq.st hq.flight (t := t) (en := en) (sb := sb.val)
    (by rw [hs, hc]; rfl) (by rw [hk]; decide) ht hkind hstale (by rw [hc]; exact ha) (by rw [hc]; exact hv) (by rw [hc]; exact hd) hn
  rw [hs, hk, hc, hstep] at hvis
  rw [exec_tokenVisible_eq hq.toRuns, State.coreEvent_silent hq.toRuns hvis]
  exact hq.msgs

end
end Sys2Proof.Machine

/-! A drain that waits for a multiplication (03:R82 to R84). -/
namespace Sys2Proof.Machine
section

/-- A drain of the one row that a single-mode HMUL of cycle `now` accumulates to waits until 14 cycles after it (03:R83). -/
theorem accBound_drain_mul (arr plane now r : Nat) :
    accBound (.drain arr 0 r 1) (.mul arr plane now r 1 false) = some (now + 14, 1) := by
  simp [accBound, ArrAcc.arr, ArrAcc.rowsOf, ArrAcc.after, ArrAcc.first, rowKind, ArrAcc.isRead, ArrAcc.isMul, rowIx, List.range_succ]

theorem holdOf_one (now : Nat) {x y : ArrAcc} {t kind : Nat} (h : accBound x y = some (t, kind)) :
    holdOf now [x] [y] = if now < t then some (t - now, kind, x.arr) else none := by
  simp [holdOf, h]

theorem holdOf_drain_mul {now arr plane r d : Nat} (hd : d < 14) :
    holdOf (now + d) [.drain arr 0 r 1] [.mul arr plane now r 1 false] = some (14 - d, 1, arr) ∧
    holdOf (now + 14 + d) [.drain arr 0 r 1] [.mul arr plane now r 1 false] = none := by
  have hb := accBound_drain_mul arr plane now r
  rw [holdOf_one _ hb, holdOf_one _ hb, if_pos (by omega), if_neg (by omega)]
  exact ⟨by rw [Nat.add_sub_add_left]; rfl, rfl⟩

section
variable {c : Core} {e : CEnv} {p q : Pend} {limit : Nat}

/-- One micro-operation in flight, up to a cycle before or after it. -/
theorem Core.runTo_wait (hf : c.flight = [p]) (h : limit ≤ p.key) : c.runTo e limit = c := by
  have hw := Core.runFuel_wait e c.fuel c h
  rwa [Core.withFlight_self hf] at hw

theorem Core.runTo_go {d : Core} (hf : c.flight = [p]) (h : p.key < limit) (hm : (c.withFlight []).micro e p = d)
    (hd : d.flight = [] ∨ ∃ q, d.flight = [q] ∧ limit ≤ q.key) : c.runTo e limit = d := by
  obtain ⟨n, hn⟩ := Core.fuel_one c p
  have hgo := Core.runFuel_go e (n + 1) (c.withFlight []) (Nat.not_le.2 h) rfl
  rw [hm] at hgo
  have hfuel : c.fuel = n + 2 := (congrArg Core.fuel (Core.withFlight_self hf)).symm.trans hn
  have hrun : c.runTo e limit = Core.runFuel e limit (n + 1) d := by
    rw [Core.runTo, hfuel, ← hgo]
    exact congrArg (Core.runFuel e limit (n + 2)) (Core.withFlight_self hf).symm
  rw [hrun]
  rcases hd with hd | ⟨q, hd, hq⟩
  · exact Core.runFuel_none e limit (n + 1) hd
  · have hw := Core.runFuel_wait e (n + 1) d hq
    rwa [Core.withFlight_self hd] at hw
end

section
variable {s : State} {k : Fin 128} {b : Nat} {l : Launch} {c : Core} {e : CEnv} {x : HdrainD} {desc : BitVec 12} {ba bb : Fin 32}

/-- The row of a drain of one row, in flight. -/
def Core.rowPend (c : Core) (x : HdrainD) : Pend :=
  ⟨keyAt (c.now + 0) phRead, c.seq, c.bptr, .drainRead x (c.sget x.sp) (c.sget x.sq) (signedOf 16 (c.sget x.se).toNat) (c.c0Of x.arr)
    (c.bound x.arr) 0 ((x.accRow + 0) % 512)⟩

theorem Core.doHdrain_one (hf : c.flight = []) (hx : c.hdrainOp desc.toNat ba bb = some x) (hr : x.rows = 1) :
    c.doHdrain desc ba bb = c.withFlight [c.rowPend x] := by
  unfold Core.doHdrain
  rw [hx]
  simp only [hr, List.range_one, List.foldl_cons, List.foldl_nil]
  exact Core.later_quiet hf ..

/-- The cycle in which the row is read ends (03:R79): what is left in flight reads its operand in the next one. -/
theorem Core.endCycle_row {pp qq c0 : W32} {g : Fin 16} {sq bd row i : Nat} {sc : Int}
    (hf : c.flight = [⟨keyAt (c.now + 0) phRead, sq, bd, .drainRead x pp qq sc c0 g i row⟩]) :
    ∃ fl, c.endCycle e = (c.withNow (c.now + 1)).withFlight fl := by
  have hcyc := Pend.cycle_keyAt (n := c.now + 0) (sq := sq) (bd := bd) (show phRead < 8 by decide) (.drainRead x pp qq sc c0 g i row)
  refine ⟨[⟨keyAt (c.now + 1) phRead, sq, bd, .drainEw x pp qq sc c0 g i ((c.rowWords x.arr row).map fun w => ⟨(accSrc w).v, (accSrc w).sticky⟩)⟩], ?_⟩
  rw [Core.endCycle, Core.passTo_eq, Core.runTo_go hf (d := c.withFlight [⟨keyAt (c.now + 1) phRead, sq, bd,
    .drainEw x pp qq sc c0 g i ((c.rowWords x.arr row).map fun w => ⟨(accSrc w).v, (accSrc w).sticky⟩)⟩])]
  · exact Core.runTo_wait rfl (by simp only [keyAt, phRead, phGen]; exact Nat.add_le_add_left (by decide) _)
  · simp only [keyAt, phRead]; omega
  · refine Eq.trans (Core.push_empty (c.withFlight []) rfl (keyAt (Pend.cycle ⟨keyAt (c.now + 0) phRead, sq, bd,
      .drainRead x pp qq sc c0 g i row⟩ + 1) phRead) sq bd _) ?_
    rw [hcyc]
    rfl
  · exact .inr ⟨_, rfl, by simp only [keyAt]; omega⟩

/-- A core on which a drain of one row has issued. -/
def Core.drainIssued (c : Core) (nx : Nat × List LoopEntry) (busy : Nat) (accs : List ArrAcc) (fl : List Pend) : Core :=
  { c with bptr := nx.1 % 2 ^ 14, loops := nx.2, scyc := c.scyc + 1, now := c.now + 1, seq := c.seq + 1, bundle := [], busy := busy,
           accs := accs, flight := fl }

theorem Core.commitPlain_drain (hst : c.st = .running) (hf : c.flight = []) (hseg : c.seg = none) (hx : c.hdrainOp desc.toNat ba bb = some x)
    (hr : x.rows = 1) (iss : Issue) :
    ∃ nx busy accs fl, c.commitPlain e [.hdrain iss desc ba bb] = c.drainIssued nx busy accs fl := by
  obtain ⟨as, hna⟩ : ∃ as, c.noteAccs [.hdrain iss desc ba bb] = c.withAccs as := ⟨_, rfl⟩
  have heff : (c.withAccs as).slotEffect (.hdrain iss desc ba bb) = (c.withAccs as).withFlight [c.rowPend x] :=
    Core.doHdrain_one (c := c.withAccs as) hf hx hr
  have hstep : c.stepped (.hdrain iss desc ba bb) = ((c.withAccs as).withFlight [c.rowPend x]).placed (c.nextOf [.hdrain iss desc ba bb]) := by
    rw [Core.stepped, hna, heff]
  obtain ⟨fl, hend⟩ := Core.endCycle_row (e := e) (c := ((c.withAccs as).withFlight [c.rowPend x]).placed (c.nextOf [.hdrain iss desc ba bb])) rfl
  refine ⟨c.nextOf [.hdrain iss desc ba bb], (((c.withAccs as).withFlight [c.rowPend x]).busyAfter c.seq), as, fl, ?_⟩
  rw [Core.commitPlain_one e c _ rfl (by rw [hna, heff]; exact hseg) (by rw [hna, heff]; exact hst) (by rw [hstep, hend]; exact hst), hstep, hend]
  rfl

/-- The sums of a multiplication enter a row (03:R72). -/
def Core.summed (c : Core) (arr row mode : Nat) (sums : List RowSum) : Core :=
  (c.withFlight []).setWords arr row 0 (List.zipWith (fun w r => accStep w mode r) (c.rowWords arr row) sums)

theorem Core.summed_st (c : Core) (arr row mode : Nat) (sums : List RowSum) : (c.summed arr row mode sums).st = c.st := rfl

theorem Core.summed_seg (c : Core) (arr row mode : Nat) (sums : List RowSum) : (c.summed arr row mode sums).seg = c.seg := rfl

/-- The cycles of the hold pass until the sums have landed. -/
theorem Core.advance_sums {m sq bd arr row mode : Nat} {sums : List RowSum}
    (hf : c.flight = [⟨keyAt (c.now + m) phLand, sq, bd, .accAdd arr row mode sums⟩]) :
    c.advance e m = (c.withNow (c.now + m)).summed arr row mode sums := by
  have hwait : c.runTo e (keyAt (c.now + m) 0) = c := Core.runTo_wait hf le_rfl
  rw [Core.advance, Core.passTo_eq, hwait]
  exact Core.runTo_go (c := c.withNow (c.now + m)) hf (by simp only [keyAt, phLand, phRead]; exact Nat.add_lt_add_left (by decide) _) rfl (.inl rfl)

/-- The core at the drain's issue cycle, after its hold (03:R84). -/
def Core.heldForSums (c : Core) (m arr row mode : Nat) (sums : List RowSum) : Core :=
  ((c.slip 1 arr m).withNow (c.now + m)).summed arr row mode sums

/-- A slot that the interlock holds issues after its hold, which is counted (03:R82, R84). -/
theorem Core.slotIn_interlocked {d : Core} {i : Instr} {m kind a : Nat} (hst : c.st = .running) (hb : c.bundle = []) (hseg : c.seg = none)
    (hlim : c.scyc < 2 ^ 40) (hstart : c.startCycle e = c) (hw : waitOf [i] = none) (hh : hasHalt [i] = false)
    (hhold : holdOf c.now (c.accsOf i) c.accs = some (m, kind, a)) (hd : (c.slip kind a m).advance e m = d) (hdst : d.st ≠ .faulted)
    (hdseg : d.seg = none) : c.slotIn e i true = d.commitPlain e [i] := by
  have hlim' : decide (2 ^ 40 ≤ c.scyc) = false := by simpa using hlim
  have hi : c.issuing = true := by rw [Core.issuing, hst]
  have hne : ¬CoreSt.running = .faulted := by decide
  unfold Core.slotIn Core.issueBundle
  simp only [hi, hb, List.nil_append, hstart, hst, hseg, hlim', List.flatMap_cons, List.flatMap_nil, List.append_nil, hhold, hd, hdst, hdseg,
    hw, hh, hne, Option.isNone_none, Option.isSome_none, Bool.not_true, Bool.and_false, Bool.false_and, Bool.false_eq_true, if_false, if_true]

theorem Core.issue_drain (hst : c.st = .running) (hb : c.bundle = []) (hseg : c.seg = none) (hlim : c.scyc < 2 ^ 40) {d : Nat} (hd : d < 14)
    (hnow : d ≤ c.now) (hx : c.hdrainOp desc.toNat ba bb = some x) (hr : x.rows = 1) {plane sq bd mode : Nat} {sums : List RowSum}
    (hacc : c.accs = [.mul x.arr plane (c.now - d) x.accRow 1 false])
    (hf : c.flight = [⟨keyAt (c.now + (14 - d)) phLand, sq, bd, .accAdd x.arr x.accRow mode sums⟩]) (iss : Issue) :
    c.slotIn e (.hdrain iss desc ba bb) true = ((c.slip 1 x.arr (14 - d)).advance e (14 - d)).commitPlain e [.hdrain iss desc ba bb] := by
  have hstart : c.startCycle e = c := Core.runTo_wait hf (by simp only [keyAt, phLand, phRead]; omega)
  have haccs : c.accsOf (.hdrain iss desc ba bb) = [.drain x.arr 0 x.accRow 1] := by
    unfold Core.accsOf
    simp only [hx, hr]
  have hhold : holdOf c.now (c.accsOf (.hdrain iss desc ba bb)) c.accs = some (14 - d, 1, x.arr) := by
    have h := (holdOf_drain_mul (now := c.now - d) (arr := x.arr) (plane := plane) (r := x.accRow) hd).1
    rwa [Nat.sub_add_cancel hnow, ← hacc, ← haccs] at h
  have hadv := Core.advance_sums (e := e) (c := c.slip 1 x.arr (14 - d)) hf
  refine Core.slotIn_interlocked hst hb hseg hlim hstart rfl rfl hhold rfl ?_ ?_
  · rw [hadv, Core.summed_st]
    exact fun h => absurd (hst.symm.trans h) (by decide)
  · rw [hadv, Core.summed_seg]
    exact hseg

theorem Core.summed_hdrainOp (c : Core) (arr row mode : Nat) (sums : List RowSum) (n : Nat) (ba bb : Fin 32) :
    (c.summed arr row mode sums).hdrainOp n ba bb = c.hdrainOp n ba bb := rfl

theorem Core.rowWords_length (c : Core) (arr row : Nat) : (c.rowWords arr row).length = 128 := by simp [Core.rowWords]

theorem Core.summed_accWordAt (c : Core) {arr row mode n : Nat} {sums : List RowSum} (hs : n < sums.length) (hn : n < 128) :
    (c.summed arr row mode sums).accWordAt arr row n = (List.zipWith (fun w r => accStep w mode r) (c.rowWords arr row) sums).getD n 0 := by
  have hlen : (List.zipWith (fun w r => accStep w mode r) (c.rowWords arr row) sums).length = min 128 sums.length := by
    rw [List.length_zipWith, Core.rowWords_length]
  refine (Tab.get_setRun ..).trans ((if_pos ⟨by omega, by omega⟩).trans ?_)
  congr 1
  omega

theorem Core.heldForSums_accWordAt (c : Core) {m arr row mode n : Nat} {sums : List RowSum} (hs : n < sums.length) (hn : n < 128) :
    (c.heldForSums m arr row mode sums).accWordAt arr row n
      = (List.zipWith (fun w r => accStep w mode r) (c.rowWords arr row) sums).getD n 0 := by
  have hrow : ((c.slip 1 arr m).withNow (c.now + m)).rowWords arr row = c.rowWords arr row := by
    unfold Core.rowWords Core.accWordAt
    rfl
  rw [Core.heldForSums, Core.summed_accWordAt _ hs hn, hrow]

theorem Core.drainIssued_accWordAt (c : Core) (nx : Nat × List LoopEntry) (busy : Nat) (accs : List ArrAcc) (fl : List Pend) (arr row n : Nat) :
    (c.drainIssued nx busy accs fl).accWordAt arr row n = c.accWordAt arr row n := rfl

theorem satAdd_of_le {x n : Nat} (h : x + n < 2 ^ 32) : satAdd 32 x n = x + n := Nat.min_eq_left (Nat.le_sub_one_of_lt h)
end

section
variable {s : State} {k : Fin 128} {b : Nat} {l : Launch}

theorem State.Runs.held_drain (hq : s.Runs k b l) {x : HdrainD} {desc : BitVec 12} {ba bb : Fin 32} {plane d q bu mode : Nat} {sums : List RowSum}
    (hst : (s.core k.val).st = .running) (hb : (s.core k.val).bundle = []) (hseg : (s.core k.val).seg = none)
    (hlim : (s.core k.val).scyc < 2 ^ 40) (hd : d < 14) (hnow : d ≤ (s.core k.val).now)
    (hx : (s.core k.val).hdrainOp desc.toNat ba bb = some x) (hr : x.rows = 1)
    (hacc : (s.core k.val).accs = [.mul x.arr plane ((s.core k.val).now - d) x.accRow 1 false])
    (hf : (s.core k.val).flight = [⟨keyAt ((s.core k.val).now + (14 - d)) phLand, q, bu, .accAdd x.arr x.accRow mode sums⟩]) :
    ∃ nx busy accs fl,
      exec (.hdrain (at1 k) desc ba bb) s
        = .next (s.setCore k.val (((s.core k.val).heldForSums (14 - d) x.arr x.accRow mode sums).drainIssued nx busy accs fl)) ∧
      ((s.core k.val).heldForSums (14 - d) x.arr x.accRow mode sums).drainIssued nx busy accs fl
        = (((s.core k.val).slip 1 x.arr (14 - d)).advance ((s.box b).env l k.val) (14 - d)).commitPlain ((s.box b).env l k.val)
            [.hdrain (at1 k) desc ba bb] := by
  have hadv := Core.advance_sums (e := (s.box b).env l k.val) (c := (s.core k.val).slip 1 x.arr (14 - d)) hf
  obtain ⟨nx, busy, accs, fl, hc⟩ := Core.commitPlain_drain (e := (s.box b).env l k.val)
    (c := (s.core k.val).heldForSums (14 - d) x.arr x.accRow mode sums) (desc := desc) (ba := ba) (bb := bb) (x := x)
    (by rw [Core.heldForSums, Core.summed_st]; exact hst) rfl (by rw [Core.heldForSums, Core.summed_seg]; exact hseg)
    (by rw [Core.heldForSums, Core.summed_hdrainOp]; exact hx) hr (at1 k)
  refine ⟨nx, busy, accs, fl, ?_, ?_⟩
  · refine congrArg Host.Outcome.next (State.submit_silent hq ((Core.issue_drain hst hb hseg hlim hd hnow hx hr hacc hf (at1 k)).trans ?_) hq.msgs)
    rw [hadv]
    exact hc
  · rw [hadv]
    exact hc.symm

/-- Settles O24: the token lets the held bundle go; the interlock holds the drain until the sums have landed. -/
theorem heldBundlesIssue : Obligations.HeldBundlesIssue := by
  refine ⟨?_, ?_, fun now arr plane r d _ _ hd => holdOf_drain_mul hd⟩
  · intro s k b l h n t iss cue en sb hq hs hk c ht hc hkind hstale ha hv hd hcyc hp hm hn hev hslip
    obtain ⟨cues, use, hget, hexec⟩ := hq.runs_token hs hk ht hc hkind hstale ha hv hd hcyc hp hm hn
    obtain ⟨hrun, hfree, hscyc, hnow, hregs⟩ := c.letGo_issues n h.miss cues use
    obtain ⟨hoff, hkind, hevents, hcycles, hhold⟩ := c.letGo_slips n h.miss cues use
    exact ⟨_, hexec, hrun, hfree, (Core.letGo_cue ..).trans hget, hscyc, hnow, hoff, hkind, hevents.trans (satAdd_one_of_lt hev),
      hcycles.trans (satAdd_of_le hslip), hhold, hregs⟩
  · intro s k b l x desc ba bb plane d q bu mode sums hq c e hst hh hb hseg hlim hd hnow hx hr harr hrow hacc hf hev hslip ws
    obtain ⟨nx, busy, accs, fl, hexec, hcommit⟩ := hq.held_drain hst hb hseg hlim hd hnow hx hr hacc hf
    refine ⟨_, hexec, satAdd_one_of_lt hev, rfl, rfl, ?_, satAdd_of_le ?_, rfl, rfl, rfl, hcommit, fun n hs hn => ?_⟩
    · exact Nat.min_eq_left (by omega)
    · exact Nat.lt_of_le_of_lt (Nat.add_le_add_left (Nat.sub_le 14 d) _) hslip
    · rw [Core.drainIssued_accWordAt]
      exact Core.heldForSums_accWordAt c hs hn
end

end
end Sys2Proof.Machine

/-! A launch that starts (06:R153 to R155; 08:R189). -/
namespace Sys2Proof.Machine
section

variable {s t u : State} {b k : Nat}

/-- Launches changed one by one, each under its number. -/
theorem Box.launch_of_map {x y : Box} {f : Launch → Launch} (hl : y.launches = x.launches.map f) (hn : ∀ l, (f l).num = l.num) (q : Nat) :
    y.launch q = (x.launch q).map f := by
  have hsame : ((fun l : Launch => l.num == q) ∘ f) = fun l => l.num == q := funext fun l => by simp only [Function.comp, hn]
  rw [Box.launch, hl, List.find?_map, hsame, Box.launch]

theorem Box.launch_num {x : Box} {q : Nat} {l : Launch} (h : x.launch q = some l) : l.num = q := by
  simpa using List.find?_some h

/-- The logical cores of a box are distinct (01:R14). -/
theorem Box.coreList_nodup (x : Box) : x.coreList.Nodup := by
  refine List.nodup_flatMap.2 ⟨fun k _ => ?_, ?_⟩
  · exact List.nodup_range.map fun i j h => by omega
  · refine (List.nodup_range.filter _).imp fun {j k} hjk => ?_
    intro c hj hk
    obtain ⟨i, hi, rfl⟩ := List.mem_map.1 hj
    obtain ⟨i', hi', h⟩ := List.mem_map.1 hk
    have := List.mem_range.1 hi
    have := List.mem_range.1 hi'
    omega

theorem Box.launchCores_nodup (x : Box) (l : Launch) : (x.launchCores l).Nodup :=
  x.coreList_nodup.sublist ((List.take_sublist ..).trans (List.drop_sublist ..))

theorem Tab.has_erase_other {α : Type} (t : Tab α) {k j : Nat} (h : j ≠ k) : Tab.has (Tab.erase t k) j = Tab.has t j := by
  unfold Tab.has Tab.erase
  rw [List.any_filter]
  refine congrArg (List.any t) (funext fun p => ?_)
  by_cases hp : p.1 = j
  · simp [hp, h]
  · simp [hp]

theorem Tab.has_insert_other {α : Type} (t : Tab α) (v : α) {k j : Nat} (h : j ≠ k) : Tab.has (Tab.insert k v t) j = Tab.has t j := by
  have hk : (k == j) = false := beq_eq_false_iff_ne.2 (Ne.symm h)
  unfold Tab.has
  induction t with
  | nil => simp [Tab.insert, hk]
  | cons p t ih =>
    unfold Tab.insert
    split
    · rw [List.any_cons, hk, Bool.false_or]
    · rw [List.any_cons, ih, List.any_cons]

/-- A table has the other keys that it had before one was written. -/
theorem Tab.has_set_other {α : Type} [DecidableEq α] (d : α) (t : Tab α) (v : α) {k j : Nat} (h : j ≠ k) :
    Tab.has (Tab.set d t k v) j = Tab.has t j := by
  unfold Tab.set
  split
  · exact Tab.has_erase_other t h
  · exact (Tab.has_insert_other _ v h).trans (Tab.has_erase_other t h)

/-! Preempted cores are set aside (06:R153). -/

/-- The core that a launch runs goes to that launch's record. -/
def State.setAside (s : State) (b k : Nat) : State :=
  match (s.box b).runsOn k with
  | some m => s.updLaunch b m.num fun m => { m with saved := Tab.set {} m.saved k (s.core k) }
  | none => s

/-- A launch with other saved cores. -/
def Launch.withSaved (l : Launch) (cs : Tab Core) : Launch := { l with saved := cs }

/-- Some cores have been set aside: each launch has the saved cores `f` gives it. -/
structure State.Aside (s t : State) (b : Nat) (done : List Nat) (f : Launch → Tab Core) : Prop where
  cores : t.cores = s.cores
  box : t.box b = { s.box b with launches := (s.box b).launches.map fun l => l.withSaved (f l) }
  has : ∀ l k, k ∉ done → Tab.has (f l) k = Tab.has l.saved k
  kept : ∀ k ∈ done, ∀ m, (s.box b).runsOn k = some m → ∀ l : Launch, l.num = m.num → Tab.get {} (f l) k = s.core k

theorem State.Aside.init (s : State) (b : Nat) : s.Aside s b [] Launch.saved where
  cores := rfl
  box := by
    have hid : (s.box b).launches.map (fun l => l.withSaved l.saved) = (s.box b).launches := List.map_id _
    rw [hid]
  has := fun _ _ _ => rfl
  kept := fun _ h => nomatch h

theorem State.Aside.runsOn {done : List Nat} {f : Launch → Tab Core} (h : s.Aside t b done f) (hk : k ∉ done) :
    (t.box b).runsOn k = ((s.box b).runsOn k).map fun l => l.withSaved (f l) := by
  have hcore : (t.box b).localCore k = (s.box b).localCore k := by
    rw [h.box]
    rfl
  rw [Box.runsOn, hcore, h.box, Box.runsOn, List.find?_map]
  refine congrArg (Option.map _) (congrArg (List.find? · _) (funext fun l => ?_))
  change (l.st == .running && l.hasCore _ && !l.haltedCores.contains _ && !Tab.has (f l) k) = _
  rw [h.has l k hk]

theorem State.Aside.step {done : List Nat} {f : Launch → Tab Core} (h : s.Aside t b done f) (hk : k ∉ done) :
    ∃ g, s.Aside (t.setAside b k) b (done ++ [k]) g := by
  have hrun := h.runsOn hk
  have hcore : t.core k = s.core k := by rw [State.core, h.cores, State.core]
  unfold State.setAside
  cases hm : (s.box b).runsOn k with
  | none =>
    rw [hm, Option.map_none] at hrun
    rw [hrun]
    refine ⟨f, h.cores, h.box, fun l j hj => h.has l j fun hd => hj (List.mem_append_left _ hd), fun j hj m hjm => ?_⟩
    obtain hj | hj := List.mem_append.1 hj
    · exact h.kept j hj m hjm
    · rw [List.mem_singleton.1 hj, hm] at hjm
      exact nomatch hjm
  | some m =>
    rw [hm, Option.map_some] at hrun
    rw [hrun]
    refine ⟨fun l => if l.num = m.num then Tab.set {} (f l) k (s.core k) else f l, h.cores, ?_, fun l j hj => ?_, fun j hj m' hjm l hl => ?_⟩
    · refine (State.updBox_box_same ..).trans ?_
      rw [h.box]
      refine congrArg (fun ls => ({ s.box b with launches := ls } : Box)) (List.map_map.trans (List.map_congr_left fun l _ => ?_))
      rw [hcore]
      by_cases hl : l.num = m.num <;> simp only [Function.comp, Launch.withSaved, hl, if_true, if_false]
    · have hjk : j ≠ k := fun he => hj (List.mem_append_right _ (List.mem_singleton.2 he))
      have hold := h.has l j fun hd => hj (List.mem_append_left _ hd)
      split
      · rw [Tab.has_set_other _ _ _ hjk, hold]
      · exact hold
    · obtain hj | hj := List.mem_append.1 hj
      · have hold := h.kept j hj m' hjm l hl
        split
        · rw [Tab.get_set_other _ _ _ _ _ (fun he : j = k => hk (he ▸ hj)), hold]
        · exact hold
      · obtain rfl := List.mem_singleton.1 hj
        rw [hm] at hjm
        obtain rfl := Option.some.inj hjm
        rw [if_pos hl, Tab.get_set_same]

theorem State.Aside.foldl (ks : List Nat) : ∀ {t : State} {done : List Nat} {f : Launch → Tab Core}, s.Aside t b done f →
    ks.Nodup → (∀ k ∈ ks, k ∉ done) → ∃ g, s.Aside (ks.foldl (fun s k => s.setAside b k) t) b (done ++ ks) g := by
  induction ks with
  | nil => exact fun h _ _ => ⟨_, by rwa [List.append_nil]⟩
  | cons k ks ih =>
    intro t done f h hn hd
    obtain ⟨hk, hn⟩ := List.nodup_cons.1 hn
    obtain ⟨g, hg⟩ := h.step (hd k List.mem_cons_self)
    have hrest : ∀ j ∈ ks, j ∉ done ++ [k] := fun j hj hmem => by
      obtain hmem | hmem := List.mem_append.1 hmem
      · exact hd j (List.mem_cons_of_mem _ hj) hmem
      · exact hk (List.mem_singleton.1 hmem ▸ hj)
    obtain ⟨g', hg'⟩ := ih hg hn hrest
    exact ⟨g', by rwa [List.append_assoc] at hg'⟩

/-! The cores of the launch start (06:R154; 08:R189). -/

/-- A core of the launch starts at bundle 0, if the script has a part for it. -/
def State.startCore (s : State) (sc : ScriptImg) (p : Nat × Nat) : State :=
  match sc.cores[p.1]? with
  | some img => s.setCore p.2 ((s.core p.2).launched img)
  | none => s

theorem State.startCore_other (s : State) (sc : ScriptImg) (p : Nat × Nat) {k : Nat} (h : k ≠ p.2) : (s.startCore sc p).core k = s.core k := by
  unfold State.startCore
  split
  · rw [State.setCore_core, if_neg h]
  · rfl

theorem State.startCore_box (s : State) (sc : ScriptImg) (p : Nat × Nat) : (s.startCore sc p).boxes = s.boxes := by
  unfold State.startCore
  split <;> rfl

theorem State.startCore_same (s : State) {sc : ScriptImg} {p : Nat × Nat} {img : CoreImg} (h : sc.cores[p.1]? = some img) :
    (s.startCore sc p).core p.2 = (s.core p.2).launched img := by
  unfold State.startCore
  rw [h]
  exact State.setCore_core_same ..

theorem State.startCores_other (sc : ScriptImg) (ps : List (Nat × Nat)) : ∀ (s : State) {k : Nat}, k ∉ ps.map Prod.snd →
    (ps.foldl (fun s p => s.startCore sc p) s).core k = s.core k := by
  induction ps with
  | nil => exact fun _ _ _ => rfl
  | cons p ps ih =>
    intro s k hk
    rw [List.map_cons, List.mem_cons, not_or] at hk
    rw [List.foldl_cons, ih _ hk.2, State.startCore_other _ _ _ hk.1]

theorem State.startCores_boxes (sc : ScriptImg) (ps : List (Nat × Nat)) : ∀ s : State,
    (ps.foldl (fun s p => s.startCore sc p) s).boxes = s.boxes := by
  induction ps with
  | nil => exact fun _ => rfl
  | cons p ps ih => exact fun s => (ih _).trans (State.startCore_box s sc p)

theorem State.startCores_same (sc : ScriptImg) (ps : List (Nat × Nat)) : ∀ (s : State), (ps.map Prod.snd).Nodup → ∀ p ∈ ps, ∀ img,
    sc.cores[p.1]? = some img → (ps.foldl (fun s p => s.startCore sc p) s).core p.2 = (s.core p.2).launched img := by
  induction ps with
  | nil => exact fun _ _ _ h => nomatch h
  | cons q ps ih =>
    intro s hn p hp img himg
    obtain ⟨hq, hn⟩ := List.nodup_cons.1 (List.map_cons ▸ hn)
    rw [List.foldl_cons]
    obtain rfl | hp := List.mem_cons.1 hp
    · rw [State.startCores_other sc ps _ hq, State.startCore_same s himg]
    · have hne : p.2 ≠ q.2 := fun he => hq (he ▸ List.mem_map_of_mem hp)
      rw [ih _ hn p hp img himg, State.startCore_other s sc q hne]

/-! Tags open and prefetch entries are queued: cores, and what launches have saved, stay (07:R183; 10:R233). -/

/-- The cores of the device stand, and the launches of a box with their states and saved cores. -/
structure State.SameRuns (s t : State) (b : Nat) : Prop where
  cores : t.cores = s.cores
  launches : ∃ f : Launch → Launch, (∀ l, (f l).num = l.num ∧ (f l).st = l.st ∧ (f l).saved = l.saved) ∧
    (t.box b).launches = (s.box b).launches.map f

theorem State.SameRuns.refl (s : State) (b : Nat) : s.SameRuns s b :=
  ⟨rfl, fun l => l, fun _ => ⟨rfl, rfl, rfl⟩, (List.map_id _).symm⟩

theorem State.SameRuns.trans (h : s.SameRuns t b) (h' : t.SameRuns u b) : s.SameRuns u b := by
  obtain ⟨hc, f, hf, hl⟩ := h
  obtain ⟨hc', f', hf', hl'⟩ := h'
  refine ⟨hc'.trans hc, f' ∘ f, fun l => ?_, by rw [hl', hl, List.map_map]⟩
  obtain ⟨hn, hst, hs⟩ := hf l
  obtain ⟨hn', hst', hs'⟩ := hf' (f l)
  exact ⟨hn'.trans hn, hst'.trans hst, hs'.trans hs⟩

theorem State.sameRuns_foldl {α : Type} {g : State → α → State} (hg : ∀ s a, State.SameRuns s (g s a) b) (as : List α) :
    ∀ s, State.SameRuns s (as.foldl g s) b := by
  induction as with
  | nil => exact fun s => .refl s b
  | cons a as ih => exact fun s => (hg s a).trans (ih _)

/-- A change of a box that leaves its launches. -/
theorem State.sameRuns_updBox (s : State) (b : Nat) {f : Box → Box} (hf : (f (s.box b)).launches = (s.box b).launches) :
    s.SameRuns (s.updBox b f) b :=
  ⟨rfl, fun l => l, fun _ => ⟨rfl, rfl, rfl⟩, by rw [State.updBox_box_same, hf]; exact (List.map_id _).symm⟩

theorem State.sameRuns_updLaunch (s : State) (b num : Nat) {f : Launch → Launch}
    (hf : ∀ l, (f l).num = l.num ∧ (f l).st = l.st ∧ (f l).saved = l.saved) : s.SameRuns (s.updLaunch b num f) b := by
  refine ⟨rfl, fun l => if l.num = num then f l else l, fun l => ?_, by rw [State.updLaunch, State.updBox_box_same]; rfl⟩
  dsimp only
  split
  · exact hf l
  · exact ⟨rfl, rfl, rfl⟩

theorem State.sameRuns_queueMove {m : Move} (h : s.queueMove m = some t) : s.SameRuns t b := by
  unfold State.queueMove at h
  dsimp only at h
  split at h
  · cases h
  · obtain rfl := Option.some.inj h
    exact ⟨rfl, fun l => l, fun _ => ⟨rfl, rfl, rfl⟩, (List.map_id _).symm⟩

theorem State.sameRuns_queueDue (s : State) (b num n : Nat) : s.SameRuns (s.queueDue b num n) b := by
  unfold State.queueDue
  cases (s.box b).launch num with
  | none => exact .refl s b
  | some l =>
    refine State.sameRuns_foldl (fun s i => ?_) _ s
    split
    · exact .refl s b
    · split
      · exact .refl s b
      · split
        · exact .refl s b
        next v hv => exact (State.sameRuns_queueMove hv).trans (State.sameRuns_updLaunch _ b num fun _ => ⟨rfl, rfl, rfl⟩)

/-- Old tags go, and the plan's tags open (10:R233). -/
def State.openTags (s : State) (b n : Nat) (plan : List PlanEntry) : State :=
  let x := s.box b
  let s := s.updBox b fun y => { y with tags := x.tags.filter (fun (p : Nat × Tag) => p.2.st == 1
    || x.launches.any (fun (m : Launch) => m.num == p.2.launch && m.st == LaunchSt.running && m.num != n)) }
  (plan.filter (fun e => e.ddev == s.boxIndex b)).foldl (fun s e =>
    s.updBox b fun x => { x with tags := Tab.set {} x.tags e.tag (s.openTag b n e) }) s

theorem State.sameRuns_openTags (s : State) (b n : Nat) (plan : List PlanEntry) : s.SameRuns (s.openTags b n plan) b :=
  (s.sameRuns_updBox b rfl).trans (State.sameRuns_foldl (fun s _ => s.sameRuns_updBox b rfl) _ _)

/-- The launch runs. -/
def State.markRunning (s : State) (b n : Nat) : State := s.updLaunch b n fun l => { l with st := .running, marker := none }

/-- The state once the preempted cores are aside and the launch's cores stand at bundle 0. -/
def State.startCores (s : State) (b n : Nat) (cores : List Nat) (sc : ScriptImg) : State :=
  ((List.range cores.length).zip cores).foldl (fun s p => s.startCore sc p) ((cores.foldl (fun s k => s.setAside b k) s).markRunning b n)

section
variable {box : Fin 16} {num : W32} {l : Launch} {sc : ScriptImg}

/-- A launch that may start does (06:R153 to R155). -/
theorem execLaunchStart_may (hl : (s.box box.val).launch num.toNat = some l)
    (hsc : Tab.get none (s.box box.val).scripts l.slot = some sc) (hm : s.mayStart box.val l = true)
    (hw : ∀ e ∈ l.plan, e.ddev = s.boxIndex box.val → e.ledger ≠ 0 → ∀ t ∈ partTiles [(e.ledger, 96)], s.lineWell box.val t) :
    exec (.launchStart box num) s = .next (((s.startCores box.val num.toNat ((s.box box.val).launchCores l) sc).openTags box.val num.toNat
      l.plan).queueDue box.val num.toNat 0) := by
  have hfrozen : (s.box box.val).frozen = false := by
    unfold State.mayStart at hm
    repeat rw [Bool.and_eq_true] at hm
    obtain ⟨⟨⟨⟨⟨⟨⟨⟨⟨⟨-, -⟩, hfrozen⟩, -⟩, -⟩, -⟩, -⟩, -⟩, -⟩, -⟩, -⟩ := hm
    simpa using hfrozen
  have hmeet : s.meetTiles box.val (partTiles ((l.plan.filter (fun e => e.ddev == s.boxIndex box.val && e.ledger != 0)).map
      (fun e => (e.ledger, 96)))) 1 5 = (s, true) := by
    refine State.meetTiles_of_well fun t ht => ?_
    obtain ⟨r, hr, ht⟩ := List.mem_flatMap.1 ht
    obtain ⟨e, he, rfl⟩ := List.mem_map.1 hr
    obtain ⟨hplan, he⟩ := List.mem_filter.1 he
    obtain ⟨hdev, hledger⟩ := Bool.and_eq_true_iff.1 he
    exact hw e hplan (beq_iff_eq.1 hdev) (bne_iff_ne.1 hledger) t (List.mem_flatMap.2 ⟨_, List.mem_singleton.2 rfl, ht⟩)
  change execLaunchStart box num s = _
  unfold execLaunchStart
  dsimp only
  rw [hl]
  dsimp only
  rw [hsc]
  dsimp only
  rw [hm, hmeet, if_neg (by decide), if_neg (by rw [hfrozen]; decide)]
  rfl
end

/-- A launch as it stands when launch `n` has started and the launches' saved cores are those of `f`. -/
def Launch.atStart (n : Nat) (f : Launch → Tab Core) (l : Launch) : Launch :=
  if l.num = n then { l with saved := f l, st := .running, marker := none } else { l with saved := f l }

theorem Launch.atStart_num (n : Nat) (f : Launch → Tab Core) (l : Launch) : (l.atStart n f).num = l.num := by
  unfold Launch.atStart
  split <;> rfl

theorem Launch.atStart_saved (n : Nat) (f : Launch → Tab Core) (l : Launch) : (l.atStart n f).saved = f l := by
  unfold Launch.atStart
  split <;> rfl

theorem Launch.atStart_running {n : Nat} (f : Launch → Tab Core) {l : Launch} (h : l.num = n) : (l.atStart n f).st = .running := by
  rw [Launch.atStart, if_pos h]

/-- The launches once the cores are started: launch `n` runs, and each has its saved cores. -/
theorem State.startCores_launches (s : State) (b n : Nat) {cores : List Nat} (sc : ScriptImg) {f : Launch → Tab Core}
    (h : s.Aside (cores.foldl (fun s k => s.setAside b k) s) b cores f) :
    ((s.startCores b n cores sc).box b).launches = (s.box b).launches.map (Launch.atStart n f) := by
  rw [State.startCores, State.box, State.startCores_boxes]
  change (State.box (State.markRunning ..) b).launches = _
  rw [State.markRunning, State.updLaunch, State.updBox_box_same, h.box]
  exact List.map_map.trans (List.map_congr_left fun l _ => rfl)

theorem State.startCores_cores (s : State) (b n : Nat) {cores : List Nat} {sc : ScriptImg} {f : Launch → Tab Core}
    (h : s.Aside (cores.foldl (fun s k => s.setAside b k) s) b cores f) (hn : cores.Nodup) :
    (∀ (j k : Nat) (img : CoreImg), cores[j]? = some k → sc.cores[j]? = some img → (s.startCores b n cores sc).core k = (s.core k).launched img) ∧
      ∀ k, k ∉ cores → (s.startCores b n cores sc).core k = s.core k := by
  have hsnd : ((List.range cores.length).zip cores).map Prod.snd = cores := List.map_snd_zip (by simp)
  have hcore : ∀ k, ((cores.foldl (fun s k => s.setAside b k) s).markRunning b n).core k = s.core k := fun k => by
    rw [State.core, State.core]
    exact congrArg (Tab.get _ · k) h.cores
  refine ⟨fun j k img hk himg => ?_, fun k hk => ?_⟩
  · have hmem : (j, k) ∈ (List.range cores.length).zip cores := by
      refine List.mem_iff_getElem?.2 ⟨j, List.getElem?_zip_eq_some.2 ⟨?_, hk⟩⟩
      exact List.getElem?_range (List.getElem?_eq_some_iff.1 hk).1
    exact (State.startCores_same sc _ _ (hsnd.symm ▸ hn) _ hmem img himg).trans (congrArg (Core.launched · img) (hcore k))
  · exact (State.startCores_other sc _ _ (hsnd.symm ▸ hk)).trans (hcore k)

/-- A launch that a core runs is found under its number. -/
theorem Box.launch_of_runsOn {x : Box} {m : Launch} (h : x.runsOn k = some m) : ∃ l, x.launch m.num = some l := by
  have hmem : m ∈ x.launches := List.mem_of_find?_eq_some h
  exact Option.isSome_iff_exists.1 (List.find?_isSome.2 ⟨m, hmem, beq_self_eq_true _⟩)

end

/-- Settles O33: preempted cores go to their launches' records one by one, the launch's own cores are distinct and start each
at bundle 0, and opening the tags and queueing the plan touches no core and no saved one. -/
theorem launchStartsItsCores : Obligations.LaunchStartsItsCores := by
  unfold Obligations.LaunchStartsItsCores
  intro s box num l sc hl hsc hm hw
  have hnodup := (s.box box.val).launchCores_nodup l
  obtain ⟨f, hf⟩ := State.Aside.foldl ((s.box box.val).launchCores l) (State.Aside.init s box.val) hnodup fun _ _ h => nomatch h
  rw [List.nil_append] at hf
  obtain ⟨hown, hother⟩ := s.startCores_cores box.val num.toNat (sc := sc) hf hnodup
  have hstart := s.startCores_launches box.val num.toNat sc hf
  obtain ⟨hcores, g, hg, hlaunches⟩ := (State.sameRuns_openTags (s.startCores box.val num.toNat ((s.box box.val).launchCores l) sc)
    box.val num.toNat l.plan).trans (State.sameRuns_queueDue _ box.val num.toNat 0)
  rw [hstart, List.map_map] at hlaunches
  have hfind := Box.launch_of_map hlaunches fun l => (hg _).1.trans (Launch.atStart_num ..)
  have hcore : ∀ k, State.core _ k = State.core _ k := fun k => congrArg (Tab.get _ · k) hcores
  refine ⟨_, execLaunchStart_may hl hsc hm hw, ?_, fun j k img hk himg => ?_, fun k hk => ?_, fun k m hk hrun _ => ?_⟩
  · rw [hfind, hl]
    exact congrArg some ((hg _).2.1.trans (Launch.atStart_running f (Box.launch_num hl)))
  · exact (hcore k).trans (hown j k img hk himg)
  · exact (hcore k).trans (hother k hk)
  · obtain ⟨m', hm'⟩ := Box.launch_of_runsOn hrun
    refine ⟨_, by rw [hfind, hm']; rfl, ?_⟩
    rw [Function.comp, (hg _).2.2, Launch.atStart_saved]
    exact hf.kept k hk m hrun m' (Box.launch_num hm')

end Sys2Proof.Machine

/-! The commands for scripts, launches and the curtain (06:R137; 11:R263, R271, R272, R281, R285; 13:R336, R337). -/
namespace Sys2Proof.Machine

/-- A command's own rules do not refuse it. -/
def Ans.Serves (a : Ans) : Prop := ∀ st ps, a ≠ .no st ps

section
variable {s t : State} {w : Sender} {h : Hdr} {p : List Byte} {op b : Nat} {a : Ans}

theorem State.Accepts.serves (ha : s.Accepts h op p w) : (command op w p (s.acceptSeq w h)).Serves := fun _ _ => ha.ne_no

/-- An operation that is accepted takes its effect once ACCEPTED has been answered (13:R331). -/
theorem State.Accepts.hostCommand_go (ha : s.Accepts h op p w) {f : State → Nat → State}
    (hc : command op w p (s.acceptSeq w h) = .go f) : s.hostCommand op h p = f (s.begun w h op).1 (s.begun w h op).2 := by
  have hslot := ha.passes
  rw [hc] at hslot
  obtain ⟨⟨t, o⟩, hstart⟩ := Option.isSome_iff_exists.1 hslot
  rw [ha.toTakes.hostCommand_eq, hc, State.begun, hstart]
  unfold State.execHere
  rw [hstart]
  exact congrArg (fun d => f (t.answer w h op d stAccepted o []) o) (s.acceptSeq_devIndex w h w.k)

/-! What an answer that is no refusal says of the checks before it. -/
theorem Ans.not_serves_no {st : Nat} {ps : List Byte} (ha : (Ans.no st ps).Serves) : False := ha _ _ rfl

theorem Ans.Serves.needLen {n : Nat} (ha : (needLen p n a).Serves) : Machine.needLen p n a = a ∧ a.Serves := by
  have he : Machine.needLen p n a = a := if_neg fun hn => Ans.not_serves_no (by rwa [Machine.needLen, if_pos hn] at ha)
  exact ⟨he, he ▸ ha⟩

theorem Ans.Serves.fields {xs : List (Bool × Nat)} (ha : (fields xs a).Serves) : Machine.fields xs a = a ∧ a.Serves := by
  cases hf : firstBad xs with
  | some f =>
    rw [Machine.fields, hf] at ha
    exact (Ans.not_serves_no ha).elim
  | none =>
    have he : Machine.fields xs a = a := by rw [Machine.fields, hf]
    exact ⟨he, he ▸ ha⟩

theorem Ans.Serves.guard {c : Prop} [Decidable c] {r : Ans} (ha : (if c then r else a).Serves) (hr : ¬ r.Serves) :
    ¬ c ∧ (if c then r else a) = a ∧ a.Serves := by
  have hn : ¬ c := fun hc => hr (by rwa [if_pos hc] at ha)
  exact ⟨hn, if_neg hn, by rwa [if_neg hn] at ha⟩

theorem Box.not_serves_curtainReject (x : Box) : ¬ x.curtainReject.Serves := Ans.not_serves_no

/-! SCRIPT_LOAD and LAUNCH (13:R336, R337). -/
/-- SCRIPT_LOAD's operation ends with the loader's failure, with the script in its slot, or for want of approvals. -/
theorem cmdScriptLoad_serves (ha : (cmdScriptLoad b p s).Serves) : ∃ f, cmdScriptLoad b p s = .go f ∧
    ∀ (B : State) (o : Nat) (img : List Byte), B.rangeRead b (fieldAt p 8 8) (fieldAt p 0x10 8) = some img →
      (∀ e, imageFail (s.box b).rehearsal img = some e → f B o = B.endOp b o stBadParam 0 0 (some e.detail)) ∧
      (imageFail (s.box b).rehearsal img = none → (s.box b).scriptApproved (scriptImg img).digest = true →
        f B o = (B.updBox b fun x => { x with
          scripts := Tab.set none x.scripts (fieldAt p 0 1) (some (scriptImg img)), digests := x.digests ++ [(scriptImg img).digest] }).endOp
            b o stOk 0 0 (some (fieldAt p 0 1))) ∧
      (imageFail (s.box b).rehearsal img = none → (s.box b).scriptApproved (scriptImg img).digest = false →
        f B o = B.endOp b o stNotAuth) := by
  unfold cmdScriptLoad at ha ⊢
  dsimp only at ha ⊢
  obtain ⟨hlen, ha⟩ := ha.needLen
  obtain ⟨hfields, ha⟩ := ha.fields
  obtain ⟨-, hfree, -⟩ := ha.guard Ans.not_serves_no
  rw [hlen, hfields, hfree]
  refine ⟨_, rfl, fun B o img himg => ⟨fun e he => ?_, fun hf ha => ?_, fun hf ha => ?_⟩⟩
  · rw [himg]
    dsimp only
    rw [he]
  · rw [himg]
    dsimp only
    rw [hf, ha]
    rfl
  · rw [himg]
    dsimp only
    rw [hf, ha]
    rfl

theorem cmdLaunch_serves {sc : ScriptImg} (hsc : Tab.get none (s.box b).scripts (fieldAt p 0 1) = some sc) (ha : (cmdLaunch b p s).Serves) :
    ∃ f, cmdLaunch b p s = .go f ∧ ∀ (B : State) (o : Nat) (l : Launch),
      B.makeLaunch b o (launchP p) sc.cores.length = some l → f B o = B.acceptLaunch b o l := by
  have hslot : Tab.get none (s.box b).scripts (launchP p).slot = some sc := hsc
  unfold cmdLaunch at ha ⊢
  dsimp only at ha ⊢
  rw [hslot] at ha ⊢
  dsimp only at ha ⊢
  obtain ⟨hlen, ha⟩ := ha.needLen
  obtain ⟨hfields, ha⟩ := ha.fields
  obtain ⟨-, hscript, ha⟩ := ha.guard Ans.not_serves_no
  obtain ⟨-, hst, ha⟩ := ha.guard Ans.not_serves_no
  obtain ⟨-, hroom, -⟩ := ha.guard Ans.not_serves_no
  rw [hlen, hfields, hscript, hst, hroom]
  refine ⟨_, rfl, fun B o l hl => ?_⟩
  rw [hl]

/-! CURTAIN_CFG, CURTAIN_STATUS and CURTAIN_RESOLVE (11:R263, R271, R272). -/
theorem cmdCurtainCfg_serves (ha : (cmdCurtainCfg b p s).Serves) : cmdCurtainCfg b p s = .go fun s o => s.takeCurtain b o p := by
  unfold cmdCurtainCfg at ha ⊢
  dsimp only at ha ⊢
  obtain ⟨hlen, ha⟩ := ha.needLen
  obtain ⟨hfields, ha⟩ := ha.fields
  obtain ⟨-, hslots, ha⟩ := ha.guard Ans.not_serves_no
  obtain ⟨-, hst, -⟩ := ha.guard (Box.not_serves_curtainReject _)
  rw [hlen, hfields, hslots, hst]

theorem cmdCurtainStatus_serves (hr : (s.box b).takeReject = false) (ha : (cmdCurtainStatus b p s).Serves) :
    cmdCurtainStatus b p s = okSync s (leBytes 1 (s.box b).cst ++ leBytes 1 (s.box b).last ++ leBytes 1 (s.box b).cause
      ++ leBytes 1 (s.box b).partner ++ leBytes 4 (s.box b).openE ++ leBytes 4 (s.box b).resolvedE ++ leBytes 4 0 ++ leBytes 8 (s.box b).step
      ++ stepOrOnes (s.box b).mirrorStep ++ stepOrOnes (s.box b).localStep ++ stepOrOnes (s.box b).storeStep) := by
  unfold cmdCurtainStatus at ha ⊢
  dsimp only at ha ⊢
  rw [hr] at ha ⊢
  exact ha.needLen.1

/-- An outcome of an epoch that is not the open one is confirmed, where the history holds it. -/
theorem cmdCurtainResolve_past (he : fieldAt p 0 4 ≠ (s.box b).openE) (ha : (cmdCurtainResolve b p s).Serves) :
    cmdCurtainResolve b p s = okSync s ∧
      ∀ q, (s.box b).history.find? (fun q => q.1 == fieldAt p 0 4) = some q → q.2 = decide (fieldAt p 4 1 = 1) := by
  unfold cmdCurtainResolve at ha ⊢
  dsimp only at ha ⊢
  obtain ⟨hlen, ha⟩ := ha.needLen
  obtain ⟨-, hrange, ha⟩ := ha.guard Ans.not_serves_no
  rw [hlen, hrange]
  rw [if_pos he] at ha ⊢
  cases hq : (s.box b).history.find? (fun q => q.1 == fieldAt p 0 4) with
  | none =>
    rw [hq] at ha
    exact (Box.not_serves_curtainReject _ ha).elim
  | some q =>
    rw [hq] at ha
    dsimp only at ha ⊢
    by_cases heq : (q.2 = true) = (fieldAt p 4 1 = 1)
    · exact ⟨if_pos heq, fun r hr => Option.some.inj hr ▸ Bool.eq_iff_iff.2 ((iff_of_eq heq).trans decide_eq_true_iff.symm)⟩
    · rw [if_neg heq] at ha
      exact (Box.not_serves_curtainReject _ ha).elim

/-- An outcome of the open epoch that has one already is confirmed. -/
theorem cmdCurtainResolve_sealed (he : fieldAt p 0 4 = (s.box b).openE) (ho : (s.box b).outcome.isSome = true)
    (ha : (cmdCurtainResolve b p s).Serves) : cmdCurtainResolve b p s = okSync s := by
  unfold cmdCurtainResolve at ha ⊢
  dsimp only at ha ⊢
  obtain ⟨hlen, ha⟩ := ha.needLen
  obtain ⟨-, hrange, ha⟩ := ha.guard Ans.not_serves_no
  rw [hlen, hrange]
  rw [if_neg (not_not_intro he), if_pos ho] at ha ⊢
  exact (ha.guard (Box.not_serves_curtainReject _)).2.1

/-- The open epoch closes, or is discarded. -/
theorem cmdCurtainResolve_open (he : fieldAt p 0 4 = (s.box b).openE) (ho : (s.box b).outcome = none)
    (ha : (cmdCurtainResolve b p s).Serves) :
    cmdCurtainResolve b p s = okSync (if fieldAt p 4 1 = 1 then s.applyClose b else s.beginDiscard b 4 false) := by
  have hnone : ¬ (s.box b).outcome.isSome = true := by simp [ho]
  unfold cmdCurtainResolve at ha ⊢
  dsimp only at ha ⊢
  obtain ⟨hlen, ha⟩ := ha.needLen
  obtain ⟨-, hrange, ha⟩ := ha.guard Ans.not_serves_no
  rw [hlen, hrange]
  rw [if_neg (not_not_intro he), if_neg hnone] at ha ⊢
  by_cases hclose : fieldAt p 4 1 = 1
  · rw [if_pos hclose] at ha ⊢
    rw [if_pos hclose]
    by_cases hst : (s.box b).cst = 2
    · exact if_pos hst
    · rw [if_neg hst] at ha
      exact (Box.not_serves_curtainReject _ ha).elim
  · rw [if_neg hclose, if_neg hclose]

/-! SCENE_RESTORE and IFEALE_IMPORT (11:R281, R285). -/
/-- The restore that SCENE_RESTORE's parameters ask for. -/
def restoreOf (p : List Byte) (o : Nat) : Restore :=
  ⟨o, fieldAt p 0 1, (fieldAt p 1 1).testBit 0, (fieldAt p 1 1).testBit 1, (fieldAt p 1 1).testBit 2, fieldAt p 8 8, fieldAt p 0x10 8,
    fieldAt p 0x18 8, fieldAt p 2 2, [], 0, [], [], []⟩

theorem cmdSceneRestore_serves (ha : (cmdSceneRestore b p s).Serves) :
    (fieldAt p 0 1 ≠ 1 → cmdSceneRestore b p s = .go fun s o => s.beginRestore b (restoreOf p o)) ∧
      ∀ r, fieldAt p 0 1 = 1 → s.localSource b (fieldAt p 8 8) = some r →
        cmdSceneRestore b p s = .go fun s o => (s.claim b r).beginRestore b (restoreOf p o) := by
  unfold cmdSceneRestore at ha ⊢
  dsimp only at ha ⊢
  obtain ⟨hlen, ha⟩ := ha.needLen
  obtain ⟨hfields, ha⟩ := ha.fields
  rw [hlen, hfields]
  cases hc : (s.box b).curtain with
  | none =>
    rw [hc] at ha
    exact (Box.not_serves_curtainReject _ ha).elim
  | some c =>
    rw [hc] at ha
    dsimp only at ha ⊢
    obtain ⟨-, hst, ha⟩ := ha.guard (Box.not_serves_curtainReject _)
    rw [hst]
    unfold restoreOf
    generalize fieldAt p 0 1 = src at ha ⊢
    refine ⟨fun hsrc => ?_, fun r hsrc hr => ?_⟩
    · split
      · exact (ha.guard Ans.not_serves_no).2.1
      · exact absurd rfl hsrc
      · rfl
    · subst hsrc
      rw [hr] at ha ⊢
      obtain ⟨-, hreh, ha⟩ := ha.guard Ans.not_serves_no
      obtain ⟨-, hruns, ha⟩ := ha.guard Ans.not_serves_no
      obtain ⟨-, hquota, -⟩ := ha.guard Ans.not_serves_no
      exact hreh.trans (hruns.trans hquota)

theorem State.acceptSeq_localSource (s : State) (w : Sender) (h : Hdr) (b step : Nat) :
    (s.acceptSeq w h).localSource b step = s.localSource b step := by
  unfold State.acceptSeq
  split <;> rfl

/-- The step record that an import writes, on a box with the configuration `c`. -/
def State.importedRec (B : State) (p : List Byte) (x : Box) (c : CurtainCfg) : StepRec :=
  { epoch := x.resolvedE, step := fieldAt p 0x10 8, dstep := fieldAt p 0x18 8, sample := fieldAt p 0x20 8, batch := c.batch, flags := 1,
    gens := ((List.range x.coreList.length).zip x.coreList).foldl (fun e (q : Nat × Nat) => (List.range 16).foldl (fun e g =>
      Tab.set {} e (q.1 * 16 + g) { (B.core q.2).gen g with step := fieldAt p 0x18 8 % 2 ^ 32, draw := 0 }) e) [] }

theorem cmdIfealeImport_serves {c : CurtainCfg} (hc : (s.box b).curtain = some c) (hl : (s.box b).launches = [])
    (ha : (cmdIfealeImport b p s).Serves) : cmdIfealeImport b p s = .go fun B o =>
      (((B.updBox b fun x => { x with
          step := fieldAt p 0x10 8, cst := 5,
          imp := some ⟨if signedOf 8 (fieldAt p 0 1) = 0 then -7 else signedOf 8 (fieldAt p 0 1), fieldAt p 4 4, fieldAt p 8 8⟩,
          impPassed := none }).putStepRec b (B.importedRec p (s.box b) c)).loadGens b (B.importedRec p (s.box b) c)).endOp b o stOk := by
  unfold cmdIfealeImport at ha ⊢
  dsimp only at ha ⊢
  obtain ⟨hlen, ha⟩ := ha.needLen
  obtain ⟨hfields, ha⟩ := ha.fields
  obtain ⟨-, hst, -⟩ := ha.guard (Box.not_serves_curtainReject _)
  rw [hlen, hfields, hst, hl, hc]
  rfl

end

/-- Settles O54: the checks before each command's effect have passed, since it is accepted; an operation's effect then follows
its ACCEPTED, and a synchronous command's reply its effect. -/
theorem launchCommandResults : Obligations.LaunchCommandResults := by
  unfold Obligations.LaunchCommandResults
  intro s h p w A b x f run tell
  have hbox : A.box b = x := s.acceptSeq_box w h b
  refine ⟨fun B o img hB himg => ?_, fun B o sc l hB hsc hl ha => ?_, fun ha => ?_, fun hr ha => ?_, fun he => ⟨fun ha => ?_, fun q hq hne ha => ?_⟩,
    fun he ho ha => ?_, fun he ho => ⟨fun hclose ha => ?_, fun hopen ha => ?_⟩, ⟨fun hsrc ha => ?_, fun r hsrc hr ha => ?_⟩,
    fun B o c r hB hc hl hr ha => ?_⟩
  · obtain ⟨rfl, rfl⟩ := Prod.mk.inj hB
    refine ⟨fun e he ha => ?_, fun hok happ ha => ?_, fun hok happ ha => ?_⟩
    · obtain ⟨g, hg, hends⟩ := cmdScriptLoad_serves ha.serves
      obtain ⟨hfails, -, -⟩ := hends _ _ img himg
      exact congrArg Host.Outcome.next ((ha.hostCommand_go hg).trans (hfails e (hbox.symm ▸ he)))
    · obtain ⟨g, hg, hends⟩ := cmdScriptLoad_serves ha.serves
      obtain ⟨-, hloads, -⟩ := hends _ _ img himg
      exact congrArg Host.Outcome.next ((ha.hostCommand_go hg).trans (hloads (hbox.symm ▸ hok) (hbox.symm ▸ happ)))
    · obtain ⟨g, hg, hends⟩ := cmdScriptLoad_serves ha.serves
      obtain ⟨-, -, hunapproved⟩ := hends _ _ img himg
      exact congrArg Host.Outcome.next ((ha.hostCommand_go hg).trans (hunapproved (hbox.symm ▸ hok) (hbox.symm ▸ happ)))
  · obtain ⟨rfl, rfl⟩ := Prod.mk.inj hB
    obtain ⟨g, hg, haccepts⟩ := cmdLaunch_serves (hbox.symm ▸ hsc) ha.serves
    exact congrArg Host.Outcome.next ((ha.hostCommand_go hg).trans (haccepts _ _ l hl))
  · exact congrArg Host.Outcome.next (ha.hostCommand_go (cmdCurtainCfg_serves ha.serves))
  · have hstatus := cmdCurtainStatus_serves (hbox.symm ▸ hr) ha.serves
    rw [hbox] at hstatus
    exact congrArg Host.Outcome.next (ha.hostCommand_sync hstatus)
  · exact congrArg Host.Outcome.next (ha.hostCommand_sync (cmdCurtainResolve_past (hbox.symm ▸ he) ha.serves).1)
  · exact hne ((cmdCurtainResolve_past (hbox.symm ▸ he) ha.serves).2 q (hbox.symm ▸ hq))
  · exact congrArg Host.Outcome.next (ha.hostCommand_sync (cmdCurtainResolve_sealed (hbox.symm ▸ he) (hbox.symm ▸ ho) ha.serves))
  · have hclosed := cmdCurtainResolve_open (hbox.symm ▸ he) (hbox.symm ▸ ho) ha.serves
    rw [if_pos hclose] at hclosed
    exact congrArg Host.Outcome.next (ha.hostCommand_sync hclosed)
  · have hdiscarded := cmdCurtainResolve_open (hbox.symm ▸ he) (hbox.symm ▸ ho) ha.serves
    rw [if_neg (ne_of_eq_of_ne hopen Nat.zero_ne_one)] at hdiscarded
    exact congrArg Host.Outcome.next (ha.hostCommand_sync hdiscarded)
  · exact congrArg Host.Outcome.next (ha.hostCommand_go ((cmdSceneRestore_serves ha.serves).1 hsrc))
  · have hsource : A.localSource b (f 8 8) = some r := (s.acceptSeq_localSource w h b _).trans hr
    exact congrArg Host.Outcome.next (ha.hostCommand_go ((cmdSceneRestore_serves ha.serves).2 r hsrc hsource))
  · obtain ⟨rfl, rfl⟩ := Prod.mk.inj hB
    subst hr
    have himport := cmdIfealeImport_serves (hbox.symm ▸ hc) (hbox.symm ▸ hl) ha.serves
    rw [hbox] at himport
    exact congrArg Host.Outcome.next (ha.hostCommand_go himport)

end Sys2Proof.Machine

/-! Tiles, frames and the epoch walk (07:R165 to R176; 12:R302, R308). -/
namespace Sys2Proof.Machine

/-- What serves the requests of the boxes stands: the frames and who holds them, the key slots, the requests, the seats in service, and
the boxes but for their tiles (07:R169; 12:R308). -/
structure State.Remaps (s t : State) : Prop where
  frames : t.frames = s.frames
  taken : t.taken = s.taken
  ring : t.ring = s.ring
  reqs : t.reqs = s.reqs
  inService : ∀ k, (t.seat k).inService = (s.seat k).inService
  box : ∀ b, ∃ ts, t.box b = { s.box b with tiles := ts }

section
variable {s t u : State} {b tile : Nat}

theorem State.Remaps.refl (s : State) : s.Remaps s where
  frames := rfl
  taken := rfl
  ring := rfl
  reqs := rfl
  inService := fun _ => rfl
  box := fun b => ⟨(s.box b).tiles, rfl⟩

theorem State.Remaps.trans (h : s.Remaps t) (h' : t.Remaps u) : s.Remaps u where
  frames := h'.frames.trans h.frames
  taken := h'.taken.trans h.taken
  ring := h'.ring.trans h.ring
  reqs := h'.reqs.trans h.reqs
  inService k := (h'.inService k).trans (h.inService k)
  box b := by
    obtain ⟨ts, ht⟩ := h.box b
    obtain ⟨us, hu⟩ := h'.box b
    exact ⟨us, by rw [hu, ht]⟩

/-! Releases, seats and entries. -/
theorem State.release_eq (s : State) (tier frame : Nat) : ∃ fs, s.release tier frame = { s with releasing := fs } := by
  unfold State.release
  dsimp only
  split
  · exact ⟨_, rfl⟩
  · exact ⟨s.releasing, rfl⟩

theorem State.remaps_release (s : State) (tier frame : Nat) : s.Remaps (s.release tier frame) := by
  obtain ⟨fs, hfs⟩ := s.release_eq tier frame
  rw [hfs]
  exact ⟨rfl, rfl, rfl, rfl, fun _ => rfl, fun b => ⟨(s.box b).tiles, rfl⟩⟩

theorem State.release_box (s : State) (tier frame b : Nat) : (s.release tier frame).box b = s.box b := by
  obtain ⟨fs, hfs⟩ := s.release_eq tier frame
  rw [hfs]
  rfl

theorem State.remaps_releases (fs : List (Nat × Nat)) : ∀ s : State, s.Remaps (fs.foldl (fun s f => s.release f.1 f.2) s) := by
  induction fs with
  | nil => exact State.Remaps.refl
  | cons f fs ih => exact fun s => (s.remaps_release f.1 f.2).trans (ih _)

theorem State.releases_box (fs : List (Nat × Nat)) (b : Nat) : ∀ s : State, (fs.foldl (fun s f => s.release f.1 f.2) s).box b = s.box b := by
  induction fs with
  | nil => exact fun _ => rfl
  | cons f fs ih => exact fun s => (ih _).trans (s.release_box f.1 f.2 b)

theorem State.remaps_dropDest (s : State) (m : Moving) : s.Remaps (s.dropDest m) := by
  unfold State.dropDest
  split
  · exact .refl s
  · exact s.remaps_release ..

theorem State.dropDest_box (s : State) (m : Moving) (b : Nat) : (s.dropDest m).box b = s.box b := by
  unfold State.dropDest
  split
  · rfl
  · exact s.release_box ..

theorem State.remaps_updSeat (s : State) (k : Nat) {f : Seat → Seat} (hf : ∀ x, (f x).inService = x.inService) : s.Remaps (s.updSeat k f) where
  frames := rfl
  taken := rfl
  ring := rfl
  reqs := rfl
  inService j := by
    rw [State.updSeat_seat]
    split
    next h => rw [hf, h]
    · rfl
  box := fun b => ⟨(s.box b).tiles, rfl⟩

theorem State.remaps_updTile (s : State) (b tile : Nat) (f : Tile → Tile) : s.Remaps (s.updTile b tile f) where
  frames := rfl
  taken := rfl
  ring := rfl
  reqs := rfl
  inService := fun _ => rfl
  box j := by
    rw [State.updTile, State.updBox_box]
    split
    next h => exact ⟨_, by rw [h]; rfl⟩
    · exact ⟨(s.box j).tiles, rfl⟩

theorem State.updTile_tile (s : State) (b tile : Nat) (f : Tile → Tile) (j : Nat) :
    ((s.updTile b tile f).box b).tile j = if j = tile then f ((s.box b).tile tile) else (s.box b).tile j := by
  rw [State.updTile, State.updBox_box_same]
  exact Tab.get_set ..

/-! Where an entry is read and which subkeys it has. -/
/-- The place of an entry of a box (07:R172, R175, R177). -/
def State.placeOf (s : State) (b : Nat) (t : Tile) : Place :=
  if t.st = tsZero || t.st = tsResident || t.st = tsMigrating then
    if (s.box b).wingDone t && (s.box b).closed then (if t.wlost then .bad else s.placeAt b t.wtier t.wframe)
    else if t.st = tsZero then .zero else s.placeAt b t.tier t.frame
  else .bad

theorem State.readPlace_eq (s : State) (b tile : Nat) : s.readPlace b tile = s.placeOf b ((s.box b).tile tile) := rfl

theorem State.Remaps.frame (h : s.Remaps t) (k : Nat) : t.frame k = s.frame k := by
  rw [State.frame, h.frames, State.frame]

theorem State.Remaps.frameOk (h : s.Remaps t) (b tier frame : Nat) : t.frameOk b tier frame = s.frameOk b tier frame := by
  unfold State.frameOk
  cases seatOf tier frame with
  | some k =>
    obtain ⟨ts, hb⟩ := h.box b
    simp only [State.seatServes, hb, h.inService]
  | none => rw [h.taken]

theorem State.Remaps.placeAt (h : s.Remaps t) (b tier frame : Nat) : t.placeAt b tier frame = s.placeAt b tier frame := by
  rw [State.placeAt, h.frameOk, State.placeAt]

theorem State.Remaps.placeOf (h : s.Remaps t) (b : Nat) (e : Tile) : t.placeOf b e = s.placeOf b e := by
  obtain ⟨ts, hb⟩ := h.box b
  simp only [State.placeOf, h.placeAt, hb]
  rfl

theorem State.Remaps.subkeys (h : s.Remaps t) (b tile : Nat) : t.subkeys b tile = s.subkeys b tile := by
  obtain ⟨ts, hb⟩ := h.box b
  simp only [State.subkeys, State.slot, hb, h.ring]
  rfl

/-! The epoch walk (07:R176). -/
/-- An entry as its normalisation leaves it (07:R176; 14:R377). -/
def Box.normalTile (x : Box) (t : Tile) : Tile :=
  if x.wingDone t && t.wlost && x.closed then { t with st := tsLost, wing := false, we := 0, wframe := 0, wtier := 0, wlost := false }
  else if x.wingDone t then (t.normal x.closed).1 else t

theorem State.Remaps.normalTile (h : s.Remaps t) (b : Nat) : (t.box b).normalTile = (s.box b).normalTile := by
  obtain ⟨ts, hb⟩ := h.box b
  rw [hb]
  rfl

theorem State.Remaps.wingDone (h : s.Remaps t) (b : Nat) : (t.box b).wingDone = (s.box b).wingDone := by
  obtain ⟨ts, hb⟩ := h.box b
  rw [hb]
  rfl

theorem State.remaps_normalise (s : State) (b tile : Nat) : s.Remaps (s.normalise b tile) := by
  unfold State.normalise
  dsimp only
  split
  · exact s.remaps_updTile ..
  · split
    · exact (s.remaps_updTile ..).trans (State.remaps_releases ..)
    · exact .refl s

theorem State.normalise_tile (s : State) (b tile j : Nat) : ((s.normalise b tile).box b).tile j =
    if j = tile then (s.box b).normalTile ((s.box b).tile tile) else (s.box b).tile j := by
  unfold State.normalise Box.normalTile
  dsimp only
  split
  · exact s.updTile_tile ..
  · split
    · rw [State.releases_box, State.updTile_tile]
    · split
      next h => rw [h]
      · rfl

theorem Box.normalTile_of_not_done {x : Box} {t : Tile} (h : x.wingDone t = false) : x.normalTile t = t := by
  simp [Box.normalTile, h]

theorem Tile.normal_wing (t : Tile) (closed : Bool) : (t.normal closed).1.wing = false := by
  unfold Tile.normal
  split <;> rfl

/-- A normalised entry carries no resolved epoch. -/
theorem Box.wingDone_normalTile (x : Box) (t : Tile) : x.wingDone (x.normalTile t) = false := by
  unfold Box.normalTile
  split
  · rfl
  · split
    · simp [Box.wingDone, Tile.normal_wing]
    next h => exact Bool.eq_false_iff.2 h

/-- Normalisation changes no entry's place (07:R175, R176). -/
theorem State.placeOf_normalTile (s : State) (b : Nat) (t : Tile) : s.placeOf b ((s.box b).normalTile t) = s.placeOf b t := by
  cases hd : (s.box b).wingDone t with
  | false => rw [Box.normalTile_of_not_done hd]
  | true =>
    have hn := (s.box b).wingDone_normalTile t
    unfold State.placeOf
    rw [hn, hd]
    cases hc : (s.box b).closed with
    | false => simp [Box.normalTile, Tile.normal, hd, hc]
    | true =>
      cases hl : t.wlost with
      | true => simp [Box.normalTile, hd, hc, hl, tsLost, tsZero, tsResident, tsMigrating]
      | false =>
        by_cases hz : t.st = tsZero
        · simp [Box.normalTile, Tile.normal, hd, hc, hl, hz, tsZero, tsResident]
        · simp [Box.normalTile, Tile.normal, hd, hc, hl, hz]

/-- After a walk of some entries these are normal, and no other has changed. -/
theorem State.walk_tile (b : Nat) (ks : List Nat) : ∀ s : State, s.Remaps (ks.foldl (fun s k => s.normalise b k) s) ∧
    ∀ j, ((ks.foldl (fun s k => s.normalise b k) s).box b).tile j =
      if j ∈ ks then (s.box b).normalTile ((s.box b).tile j) else (s.box b).tile j := by
  induction ks with
  | nil => exact fun s => ⟨.refl s, fun _ => rfl⟩
  | cons k ks ih =>
    intro s
    obtain ⟨hmap, htile⟩ := ih (s.normalise b k)
    refine ⟨(s.remaps_normalise b k).trans hmap, fun j => (htile j).trans ?_⟩
    have hnormal := (s.remaps_normalise b k).normalTile b
    rw [hnormal, s.normalise_tile]
    by_cases hj : j = k
    · subst hj
      rw [if_pos rfl, if_pos List.mem_cons_self, Box.normalTile_of_not_done (Box.wingDone_normalTile ..), ite_self]
    · simp only [hj, if_false, List.mem_cons, false_or]

theorem Box.tile_of_unlisted {x : Box} {j : Nat} (h : j ∉ x.tiles.map Prod.fst) : x.tile j = {} := by
  refine Tab.get_of_not_has _ _ _ (Bool.eq_false_iff.2 fun hh => h ?_)
  obtain ⟨p, hp, he⟩ := List.any_eq_true.1 hh
  exact List.mem_map.2 ⟨p, hp, beq_iff_eq.1 he⟩

/-- Settles O29: after the walk every entry is its normal form, which has the entry's place and carries no resolved epoch. -/
theorem epochWalkKeepsWhatReadsMeet : Obligations.EpochWalkKeepsWhatReadsMeet := by
  unfold Obligations.EpochWalkKeepsWhatReadsMeet
  intro s box
  obtain ⟨hmap, hwalk⟩ := State.walk_tile box.val ((s.box box.val).tiles.map Prod.fst) s
  refine ⟨_, rfl, ?_⟩
  generalize ((s.box box.val).tiles.map Prod.fst).foldl (fun s k => s.normalise box.val k) s = t at hmap hwalk
  have htile : ∀ j, (t.box box.val).tile j = (s.box box.val).normalTile ((s.box box.val).tile j) := fun j => by
    rw [hwalk]
    split
    · rfl
    next h => rw [Box.tile_of_unlisted h]; exact (Box.normalTile_of_not_done rfl).symm
  refine ⟨fun j => ?_, fun j => ?_⟩
  · rw [State.readPlace_eq, htile, hmap.placeOf, State.placeOf_normalTile, State.readPlace_eq]
  · rw [htile, hmap.wingDone, Box.wingDone_normalTile]
end
end Sys2Proof.Machine

namespace Sys2Proof.Machine
section
variable {s t u : State} {b tile tier frame : Nat} {d : TileData} {k : Nat × Nat}

/-! A whole tile that is written reads back (07:R165, R172, R182; 12:R302, R308). -/
/-- What serves the requests stands, and so does the entry of a tile, but that it may be RESIDENT now (07:R182). -/
structure State.Settles (s t : State) (b tile : Nat) : Prop where
  remaps : s.Remaps t
  entry : (t.box b).tile tile = (s.box b).tile tile ∨ (t.box b).tile tile = { (s.box b).tile tile with st := tsResident }

theorem State.Settles.trans (h : s.Settles t b tile) (h' : t.Settles u b tile) : s.Settles u b tile where
  remaps := h.remaps.trans h'.remaps
  entry := by
    obtain h' | h' := h'.entry
    · rw [h']; exact h.entry
    · obtain h | h := h.entry <;> exact .inr (by rw [h', h])

theorem State.settles_foldl {α : Type} {f : State → α → State} (hf : ∀ s a, State.Settles s (f s a) b tile) (as : List α) :
    ∀ s, State.Settles s (as.foldl f s) b tile := by
  induction as with
  | nil => exact fun s => ⟨.refl s, .inl rfl⟩
  | cons a as ih => exact fun s => (hf s a).trans (ih _)

theorem State.settles_updSeat (s : State) (k : Nat) {f : Seat → Seat} (hf : ∀ x, (f x).inService = x.inService) :
    s.Settles (s.updSeat k f) b tile := ⟨s.remaps_updSeat k hf, .inl rfl⟩

theorem State.abandonMove_settles (s : State) (b tile : Nat) : s.Settles (s.abandonMove b tile) b tile := by
  refine State.settles_foldl (fun s k => ?_) _ s
  split
  next m _ =>
    have hdrop : s.Settles ((s.dropDest m).updTile b tile fun t => { t with st := tsResident }) b tile := by
      refine ⟨(s.remaps_dropDest m).trans (State.remaps_updTile ..), .inr ?_⟩
      rw [State.updTile_tile, if_pos rfl, State.dropDest_box]
    split
    · dsimp only
      split
      · refine hdrop.trans (.trans (State.settles_updSeat _ k ?_) (State.settles_updSeat _ k ?_)) <;> exact fun _ => rfl
      · refine hdrop.trans (State.settles_updSeat _ k ?_)
        exact fun _ => rfl
    · exact ⟨.refl s, .inl rfl⟩
  · exact ⟨.refl s, .inl rfl⟩

/-- An entry once an ordinary write of its whole tile has taken place (07:R172): a ZERO one is RESIDENT, unless its wing is read. -/
def Box.written (x : Box) (t : Tile) : Tile := if t.st = tsZero && !(x.wingDone t && x.closed) then { t with st := tsResident } else t

theorem State.placeOf_resident (s : State) (b : Nat) {e : Tile} (h : e.st = tsMigrating) :
    s.placeOf b { e with st := tsResident } = s.placeOf b e := by
  unfold State.placeOf
  rw [h]
  rfl

/-- A RESIDENT entry without a closed wing is read from its live frame. -/
theorem State.placeOf_live (s : State) (b : Nat) {e : Tile} (he : e.st = tsResident) (h : ((s.box b).wingDone e && (s.box b).closed) = false) :
    s.placeOf b e = s.placeAt b e.tier e.frame := by
  unfold State.placeOf
  rw [he, h]
  rfl

/-- An ordinary write goes to the frame that its tile is then read from, which is not the partner's. -/
theorem State.writePlace_some (h : s.writePlace b tile = some (tier, frame)) :
    tier ≠ 3 ∧ s.placeOf b ((s.box b).written ((s.box b).tile tile)) = .at tier frame := by
  unfold State.writePlace at h
  dsimp only at h
  split at h
  next hp =>
    split at h
    · cases h
    next hg =>
      cases h
      refine ⟨fun h3 => hg (by simp [h3]), ?_⟩
      unfold Box.written
      split at hp
      next hz =>
        split at hp
        · cases hp
        · obtain ⟨-, hw⟩ := Bool.and_eq_true_iff.1 hz
          rw [if_pos hz, ← hp]
          exact s.placeOf_live b rfl (Bool.not_eq_eq_eq_not.1 hw)
      next hz => rw [if_neg hz]; exact hp
  · cases h

theorem State.freeFrom_some {lo n f : Nat} (hn : 0 < n) : ∀ {fuel i : Nat}, s.freeFrom tier lo n fuel i = some f →
    s.isTaken (frameKey tier f) = false ∧ lo ≤ f ∧ f < lo + n
  | 0, _, h => nomatch h
  | fuel + 1, i, h => by
    unfold State.freeFrom at h
    split at h
    · exact State.freeFrom_some hn h
    next hfree =>
      obtain rfl := Option.some.inj h
      exact ⟨Bool.eq_false_iff.2 hfree, Nat.le_add_right .., Nat.add_lt_add_left (Nat.mod_lt i hn) lo⟩

theorem poolOf_pos (tier seat : Nat) : 0 < (poolOf tier seat).2 := by
  unfold poolOf
  split
  · exact (by decide : 0 < hbmFrames)
  · split
    · exact (by decide : 0 < 2 * lpFrames)
    · exact (by decide : 0 < flashFrames)

/-- A frame that is taken is the first free one of its pool from some place on, and it is marked as the box's. -/
theorem State.takeFrame_some {seat f : Nat} (h : s.takeFrame b tier seat = some (t, f)) :
    (∃ fuel i, s.draw.2.freeFrom tier (poolOf tier seat).1 (poolOf tier seat).2 fuel i = some f) ∧
      t.taken = Tab.set 0 s.taken (frameKey tier f) (b + 1) ∧ t.frames = s.frames := by
  unfold State.takeFrame at h
  dsimp only at h
  split at h
  next ht =>
    subst ht
    split at h
    · cases h
    · split at h
      next hf =>
        cases h
        exact ⟨⟨_, _, hf⟩, rfl, rfl⟩
      · cases h
  · split at h
    · split at h
      next hf =>
        cases h
        exact ⟨⟨_, _, hf⟩, rfl, rfl⟩
      · cases h
    · cases h

/-- What a write does to the tile's map entry: its move is abandoned, and it is RESIDENT (07:R172, R182). -/
def State.settle (s : State) (b tile : Nat) : State :=
  let t := (s.box b).tile tile
  let u := if t.st = tsMigrating then s.abandonMove b tile else s
  if t.st = tsZero && !((u.box b).wingDone t && (u.box b).closed) then u.updTile b tile fun t => { t with st := tsResident } else u

theorem State.writeTile_some (h : s.writeTile b tile d = some t) :
    ∃ tier frame, s.writePlace b tile = some (tier, frame) ∧ t = (s.putFrame b tile tier frame d).settle b tile := by
  unfold State.writeTile at h
  split at h
  · cases h
  next tier frame hplace =>
    split at h
    · cases h
    · exact ⟨tier, frame, hplace, (Option.some.inj h).symm⟩

theorem State.settle_place (s : State) (b tile : Nat) : s.Remaps (s.settle b tile) ∧
    (s.settle b tile).readPlace b tile = s.placeOf b ((s.box b).written ((s.box b).tile tile)) := by
  unfold State.settle Box.written
  dsimp only
  by_cases hm : ((s.box b).tile tile).st = tsMigrating
  · have hz : ¬((s.box b).tile tile).st = tsZero := by rw [hm]; decide
    obtain ⟨hmap, hentry⟩ := s.abandonMove_settles b tile
    simp only [hz, if_pos hm, decide_false, Bool.false_and, Bool.false_eq_true, if_false]
    refine ⟨hmap, ?_⟩
    rw [State.readPlace_eq, hmap.placeOf]
    obtain hentry | hentry := hentry
    · rw [hentry]
    · rw [hentry, State.placeOf_resident _ _ hm]
  · rw [if_neg hm]
    split
    · have hmap := s.remaps_updTile b tile fun t => { t with st := tsResident }
      exact ⟨hmap, by rw [State.readPlace_eq, hmap.placeOf, State.updTile_tile, if_pos rfl]⟩
    · exact ⟨.refl s, rfl⟩

/-- A whole tile that is written reads back, with the generation of its subkeys in its side record. -/
theorem State.readTile_writeTile (hk : s.subkeys b tile = some k) (h : s.writeTile b tile d = some t) :
    t.readTile b tile = some ⟨d.data, d.side.write 3 (BitVec.ofNat 8 k.2)⟩ := by
  obtain ⟨tier, frame, hplace, rfl⟩ := State.writeTile_some h
  obtain ⟨h3, hp⟩ := State.writePlace_some hplace
  have hput : s.putFrame b tile tier frame d =
      s.setFrame (frameKey tier frame) ⟨k.1, d.data, d.side.write 3 (BitVec.ofNat 8 k.2), .good⟩ := by
    unfold State.putFrame
    rw [hk]
  rw [hput]
  obtain ⟨hmap, hread⟩ := State.settle_place
    (s.setFrame (frameKey tier frame) ⟨k.1, d.data, d.side.write 3 (BitVec.ofNat 8 k.2), .good⟩) b tile
  generalize State.settle _ b tile = t at hmap hread ⊢
  have hread : t.readPlace b tile = .at tier frame := hread.trans hp
  have hkeys : t.subkeys b tile = some k := (hmap.subkeys b tile).trans hk
  have hframe : t.frame (frameKey tier frame) = ⟨k.1, d.data, d.side.write 3 (BitVec.ofNat 8 k.2), .good⟩ :=
    (hmap.frame _).trans (Tab.get_set_same ..)
  simp [State.readTile, State.lineBad, State.contents, hread, hkeys, hframe, h3]

/-- Settles O28: a write goes to the frame that its tile is read from afterwards, and the frame that a box takes is the first free
one of the pool from some place on. -/
theorem tilesAndFrames : Obligations.TilesAndFrames := by
  unfold Obligations.TilesAndFrames
  refine ⟨fun s t b tile d k hk h => State.readTile_writeTile hk h, fun s t b tier seat f _ h => ?_⟩
  obtain ⟨⟨fuel, i, hf⟩, htaken, hframes⟩ := State.takeFrame_some h
  obtain ⟨hfree, hlo, hhi⟩ := State.freeFrom_some (poolOf_pos tier seat) hf
  rw [htaken]
  exact ⟨hfree, Tab.get_set_same .., hlo, hhi, fun k hk => Tab.get_set_other _ _ _ _ _ hk, hframes⟩
end
end Sys2Proof.Machine

/-! Requests at their memory controllers (07:R172, R173, R175; 08:R199; R206). -/
namespace Sys2Proof.Machine
section
variable {s t u : State} {id : Nat} {r q : Req}

/-- A request that waits for nothing is served (07:R173). -/
theorem execMemRequest_waiting (hr : s.req id = some r) (hw : r.st = .waiting) (he : s.waitsEarlier id r = false) (hd : s.dev.on = true)
    (hf : (s.box r.box).frozen = false) (line : LineOutcome) : exec (.memRequest id line) s = .next (s.serveReq id r line) := by
  change execMemRequest id line s = _
  unfold execMemRequest
  rw [hr]
  simp [hw, he, hd, hf]

theorem State.markReq_some (h : s.req id = some q) (f : Req → Req) : s.markReq id f = s.setReq id (some (f q)) := by
  rw [State.markReq, h]

/-- A stream's read that nothing holds back takes the tile as its place stands. -/
theorem State.serveReq_read {line : LineOutcome} {t : TileData} (hm : (s.box r.box).readMeets r.launch r.tile r.wing = .free)
    (ht : (s.streamRead r.box r.core r.tile r.wing r.noalloc line).2.1 = some t) :
    let d := s.streamRead r.box r.core r.tile r.wing r.noalloc line
    (∀ a, r.op = .lda a → s.serveReq id r line =
      d.1.markReq id fun r => { r with st := .served, word := leNat (t.data.bytes (a % 16384) 4), uses := d.2.2 }) ∧
    (∀ a, r.op = .rearm a → s.serveReq id r line =
      d.1.markReq id fun r => { r with st := .served, word := leNat (t.data.bytes (a % 16384) 8), uses := d.2.2 }) ∧
    (∀ o u buf g, r.op = .get o u buf g → (sideNeedsComp t.side = false ∨ (o.fmtD = none ∧ o.scl = false)) →
      s.serveReq id r line = d.1.markReq id fun r => { r with st := .served, got := t, uses := d.2.2 }) := by
  refine ⟨fun a ho => ?_, fun a ho => ?_, fun o u buf g ho hc => ?_⟩
  · simp only [State.serveReq, ho, hm, ht]
  · simp only [State.serveReq, ho, hm, ht]
  · have hn : ¬((sideNeedsComp t.side && !sideBad t.side && (o.fmtD.isSome || o.scl)) = true) := by
      obtain hc | ⟨hf, hs⟩ := hc
      · simp [hc]
      · simp [hf, hs]
    simp only [State.serveReq, ho, hm, ht, if_neg hn]

theorem Tab.get_map_snd {α β : Type} (f : α → β) (d : α) (t : Tab α) (k : Nat) :
    Tab.get (f d) (t.map fun p => (p.1, f p.2)) k = f (Tab.get d t k) := by
  induction t with
  | nil => rfl
  | cons p t ih =>
    simp only [List.map_cons, Tab.get, ih]
    split <;> rfl

/-- The requests that a PUT has met keep their boxes. -/
theorem State.noteOver_req (s : State) (r : Req) (tile : Nat) (d : TileData) :
    ∃ f : Req → Req, (∀ q, (f q).box = q.box) ∧ ∀ id, (s.noteOver r tile d).req id = (s.req id).map f := by
  refine ⟨_, fun q => ?_, fun id => Tab.get_map_snd (Option.map _) none s.reqs id⟩
  exact (apply_ite Req.box ..).trans (ite_self _)

theorem State.ordWrite_req {tile b : Nat} {d : TileData} (h : s.ordWrite b tile d = some t) : t.reqs = s.reqs := by
  unfold State.ordWrite at h
  split at h
  · cases h
  · obtain ⟨tier, frame, -, rfl⟩ := State.writeTile_some h
    rw [(State.settle_place _ b tile).1.reqs]
    unfold State.putFrame
    split <;> rfl

theorem mixLines_nil (fresh tile : Nat) (d : TileData) : mixLines fresh tile d [] = d := rfl

/-- An ordinary PUT without a companion, which no other PUT has met, writes its tile (08:R199). -/
theorem State.servePut_alone {o : PutOp} {buf comp : Nat} {w : W32} {g : Gen} {line : LineOutcome} {p : TileData × List Nat × Amax}
    (hr : s.req id = some r) (hwing : o.wing = false) (hothers : r.others = [])
    (hp : (s.core r.core).putTile r.ctx o buf w comp (s.box r.box).step g = p) (hcomp : p.2.1 = [])
    (hu : (s.setCore r.core ((s.core r.core).updCtx r.ctx fun y => { y with cvr := p.2.2 })).ordWrite r.box r.tile p.1 = some u) :
    s.servePut id r o buf w comp g line = ((u.noteOver r r.tile p.1).markReq id fun q =>
      { q with uses := q.uses ++ u.useOf r.box r.tile false }).markReq id fun q => { q with st := .served } := by
  obtain ⟨f, hf, hreq⟩ := u.noteOver_req r r.tile p.1
  have hq : (u.noteOver r r.tile p.1).req id = some (f r) := by
    rw [hreq, State.req, State.ordWrite_req hu]
    exact congrArg (Option.map f) hr
  have hmark : ((u.noteOver r r.tile p.1).markReq id fun q => { q with uses := q.uses ++ u.useOf q.box r.tile false }) =
      (u.noteOver r r.tile p.1).markReq id fun q => { q with uses := q.uses ++ u.useOf r.box r.tile false } := by
    rw [State.markReq_some hq, State.markReq_some hq, hf]
  unfold State.servePut
  simp only [hp, hwing, hothers, List.filter_nil, List.map_nil, List.isEmpty_nil, if_true, mixLines_nil, Bool.false_eq_true, if_false,
    hu, Option.map_some, hcomp, hmark]

/-- Settles O27: a read by the branch of its instruction, an ordinary PUT by its one write. -/
theorem memoryRequestResults : Obligations.MemoryRequestResults := by
  unfold Obligations.MemoryRequestResults
  intro s id r hr hw he hd hf rd
  have hexec := execMemRequest_waiting hr hw he hd hf .good
  refine ⟨fun t hm ht => ?_, ?_⟩
  · obtain ⟨hlda, hrearm, hget⟩ := State.serveReq_read hm ht
    exact ⟨fun a ho => hexec.trans (congrArg _ (hlda a ho)), fun a ho => hexec.trans (congrArg _ (hrearm a ho)),
      fun o u buf g ho hc => hexec.trans (congrArg _ (hget o u buf g ho hc))⟩
  · intro o buf q comp g u ho hwing hothers p hcomp hu
    have hserve : s.serveReq id r .good = s.servePut id r o buf q comp g .good := by
      rw [State.serveReq, ho]
    rw [hexec, hserve, State.servePut_alone hr hwing hothers rfl hcomp hu]

end
end Sys2Proof.Machine

/-! Frame releases, stage markers and migration (07:R173, R180 to R183). -/
namespace Sys2Proof.Machine
section
variable {s t u : State}

theorem Tab.has_erase_same {α : Type} (t : Tab α) (k : Nat) : Tab.has (Tab.erase t k) k = false :=
  Bool.eq_false_iff.2 fun h => by
    obtain ⟨p, hp, he⟩ := List.any_eq_true.1 h
    exact Tab.erase_ne t k p hp (beq_iff_eq.1 he)

/-- A frame that returns to its pool is neither taken nor released, and holds nothing (07:R173). -/
theorem State.returnFrame_frames (s : State) (tier frame : Nat) :
    (s.returnFrame tier frame).taken = Tab.erase s.taken (frameKey tier frame) ∧
    (s.returnFrame tier frame).releasing = s.releasing.filter (· ≠ frameKey tier frame) ∧
    (s.returnFrame tier frame).frames = Tab.erase s.frames (frameKey tier frame) := by
  unfold State.returnFrame
  dsimp only
  split <;> exact ⟨rfl, rfl, rfl⟩

/-- A released frame that nothing reads returns to its pool. -/
theorem execFrameRelease_unused {tier : Fin 3} {frame : Nat} (hr : s.releasing.contains (frameKey tier.val frame) = true)
    (hu : s.inUse tier.val frame = false) : exec (.frameRelease tier frame) s = .next (s.returnFrame tier.val frame) := by
  change execFrameRelease tier frame s = _
  unfold execFrameRelease
  rw [hr, hu]
  rfl

/-- A marker above the launch's last one queues the prefetches that are due (07:R183). -/
theorem execStageMarker_higher {box : Fin 16} {num k : Nat} {ms : List (Nat × Nat)} {l : Launch}
    (hq : (s.box box.val).markers = (num, k) :: ms) (hl : (s.box box.val).launch num = some l) (hk : ∀ m, l.marker = some m → m < k) :
    exec (.stageMarker box) s = .next (((s.updBox box.val fun x => { x with markers := ms }).updLaunch box.val num
      fun l => { l with marker := some k }).queueDue box.val num k) := by
  have hl' : ((s.updBox box.val fun x => { x with markers := ms }).box box.val).launch num = some l := by
    rw [State.updBox_box_same]
    exact hl
  change execStageMarker box s = _
  unfold execStageMarker
  dsimp only
  rw [hq]
  dsimp only
  rw [hl']
  dsimp only
  refine if_neg ?_
  cases hm : l.marker with
  | none => exact Bool.false_ne_true
  | some m => exact fun h => Nat.not_le.2 (hk m hm) (of_decide_eq_true h)

/-- The moves left in a queue when a tile of its oldest has been taken from it (07:R181). -/
def Move.after (m : Move) (ms : List Move) : List Move :=
  if m.count ≤ 1 then ms else { m with first := m.first + 1, count := m.count - 1 } :: ms

/-- The state in which the engine meets the next tile of a seat's oldest move. -/
def State.taking (s : State) (k : Nat) (m : Move) (ms : List Move) : State :=
  (s.updSeat k fun x => { x with moves := m.after ms }).queueHomes m.box

/-- The engine takes up a tile: it is skipped, marked MIGRATING with a destination frame, or dropped for want of one. -/
def State.takeUp (s : State) (k : Nat) (m : Move) : State :=
  if s.skips m m.first then (s.updSeat k fun x => { x with migSkip := satAdd 32 x.migSkip 1 }).movesDone m.box
  else match s.takeFrame m.box m.dtier m.dseat with
    | some (t, f) => (t.updTile m.box m.first fun t => { t with st := tsMigrating }).updSeat k
        fun x => { x with moving := some ⟨{ m with count := 1 }, m.first, m.dtier, f⟩ }
    | none => (s.dropMove k 2).movesDone m.box

/-- A move that is neither a move home nor an unpinning one takes up its next tile (07:R181). -/
theorem execMigTileStart_takeUp {seat : Fin 16} {m : Move} {ms : List Move} (hn : (s.seat seat.val).moving = none)
    (hq : (s.seat seat.val).moves = m :: ms) (hb : (s.box m.box).st = 3) (hf : (s.box m.box).frozen = false) (hd : s.dev.on = true)
    (hu : m.unpin = false) (hh : m.homing = false) :
    exec (.migTileStart seat) s = .next ((s.taking seat.val m ms).takeUp seat.val m) := by
  have hon : ¬(((s.box m.box).st ≠ 3 || (s.box m.box).frozen || !s.dev.on) = true) := by simp [hb, hf, hd]
  have hpin : ∀ c : Bool, ¬((m.unpin && c) = true) := by simp [hu]
  change execMigTileStart seat s = _
  unfold execMigTileStart
  dsimp only
  rw [hn, hq]
  dsimp only
  rw [if_neg hon, if_neg (hpin _)]
  unfold State.takeUp State.taking Move.after
  generalize State.queueHomes _ m.box = v
  by_cases hs : v.skips m m.first = true
  · rw [if_pos hs, if_pos hs]
  · rw [if_neg hs, if_neg hs, if_neg (Bool.eq_false_iff.1 hh)]
    cases v.takeFrame m.box m.dtier m.dseat <;> rfl

/-- The state once a copied tile's entry, which was `t`, has changed to its destination, and the source frame, and the home that another move leaves,
are released (07:R177, R181). -/
def State.moved (s : State) (m : Moving) (t : Tile) (d : TileData) : State :=
  let b := m.move.box
  let u := ((s.putFrame b m.tile m.dtier m.dframe d).updTile b m.tile fun t => { t with
    st := tsResident, tier := m.dtier, frame := m.dframe, pin := t.pin || m.move.pinAfter, home := none }).release t.tier t.frame
  match m.move.homing, t.home with
  | false, some h => u.release h.1 h.2
  | _, _ => u

/-- A seat that moves no tile. -/
def State.atRest (s : State) (k : Nat) : State := s.updSeat k fun x => { x with moving := none }

/-- A copied tile that is still MIGRATING changes to its destination (07:R181). -/
theorem execMigTileComplete_moved {seat : Fin 16} {m : Moving} {t : Tile} {d : TileData} (hm : (s.seat seat.val).moving = some m)
    (hd : s.dev.on = true) (ht : (s.box m.move.box).tile m.tile = t) (hst : t.st = tsMigrating)
    (hhome : m.move.homing = true → t.tier = 3) (hflash : m.dtier = 2 → s.dev.flashRo = false)
    (hread : (s.atRest seat.val).checkedRead m.move.box m.tile ((s.atRest seat.val).placeAt m.move.box t.tier t.frame) .good 3 2 =
      (s.atRest seat.val, some d)) :
    exec (.migTileComplete seat .good) s = .next ((((s.atRest seat.val).moved m t d).updSeat seat.val
      fun x => { x with migDone := satAdd 32 x.migDone 1 }).movesDone m.move.box) := by
  have hon : ¬((!s.dev.on) = true) := by simp [hd]
  have hnothome : ¬((m.move.homing && decide (t.tier ≠ 3)) = true) := by simpa using hhome
  have hnotflash : ¬((decide (m.dtier = 2) && (s.atRest seat.val).dev.flashRo) = true) := by simpa [State.atRest] using hflash
  change execMigTileComplete seat .good s = _
  unfold execMigTileComplete
  dsimp only
  rw [hm]
  dsimp only
  rw [ht, if_neg hon, if_neg (not_not_intro hst), if_neg hnothome]
  refine (if_neg hnotflash).trans ?_
  unfold State.atRest at hread ⊢
  rw [hread]
  unfold State.moved
  dsimp only
  by_cases hg : m.move.homing = true
  · rw [if_pos hg, hg]
  · rw [if_neg hg, Bool.eq_false_iff.2 hg]
    cases t.home <;> rfl

/-- Settles O30: each by the branch that it takes. -/
theorem migrationResults : Obligations.MigrationResults := by
  unfold Obligations.MigrationResults
  refine ⟨fun s tier frame hr hu => ?_, fun s box num k ms l hq hl hk => execStageMarker_higher hq hl hk,
    fun s seat m ms hn hq hb hf hd hu hh => ?_, fun s seat m d hm hd => ?_⟩
  · obtain ⟨htaken, hreleasing, hframes⟩ := s.returnFrame_frames tier.val frame
    refine ⟨_, execFrameRelease_unused hr hu, ?_, ?_, fun k hk => ⟨?_, ?_⟩⟩
    · rw [State.isTaken, htaken, Tab.has_erase_same]
    · simp [hreleasing]
    · rw [htaken, Tab.get_erase, if_neg hk]
    · rw [State.frame, hframes, Tab.get_erase, if_neg hk, State.frame]
  · have hexec := execMigTileStart_takeUp hn hq hb hf hd hu hh
    refine ⟨fun hs => hexec.trans ?_, fun t f hs ht => hexec.trans ?_⟩
    · exact congrArg _ (if_pos hs)
    · have ht : (s.taking seat.val m ms).takeFrame m.box m.dtier m.dseat = some (t, f) := ht
      refine congrArg _ ((if_neg (Bool.eq_false_iff.1 hs)).trans ?_)
      rw [ht]
  · intro b t ht hhome hflash s1 hread
    exact execMigTileComplete_moved hm hd rfl ht hhome hflash hread

end
end Sys2Proof.Machine

/-! The commands for the tile map, transfers, weights and scenes (07:R163, R180, R185; 09:R216, R219, R221; 13:R338 to R340). -/
namespace Sys2Proof.Machine
section
variable {s t : State} {w : Sender} {h : Hdr} {p : List Byte} {op b : Nat} {a : Ans}

/-! The device when an operation begins: its command is answered, and its store stands. -/
theorem State.answer_dev (s : State) (w : Sender) (h : Hdr) (op dev status opid : Nat) (ps : List Byte) (store : Bool) :
    (s.answer w h op dev status opid ps store).dev = s.dev := by
  unfold State.answer
  dsimp only
  split <;> rfl

theorem State.startOp_dev {k o : Nat} (hs : s.startOp k op = some (t, o)) : t.dev = s.dev := by
  unfold State.startOp at hs
  dsimp only at hs
  split at hs
  · cases hs
  · cases hs
    rfl

theorem State.begun_dev (s : State) (w : Sender) (h : Hdr) (op : Nat) : (s.begun w h op).1.dev = s.dev := by
  unfold State.begun
  split
  next t o hs => exact (State.answer_dev ..).trans ((State.startOp_dev hs).trans (s.acceptSeq_dev w h))
  · rfl

theorem State.acceptSeq_fresh (s : State) (w : Sender) (h : Hdr) : (s.acceptSeq w h).fresh = s.fresh := by
  unfold State.acceptSeq
  split <;> rfl

theorem State.acceptSeq_portGid (s : State) (w : Sender) (h : Hdr) (port : Nat) : (s.acceptSeq w h).portGid port = s.portGid port := by
  unfold State.acceptSeq
  split <;> rfl

/-! A command that is accepted, as `exec` runs it. -/
theorem State.Accepts.exec_go {i : Instr} {f : State → Nat → State} (ha : s.Accepts h op p w)
    (hi : exec i s = .next (s.hostCommand op h p)) (hc : command op w p (s.acceptSeq w h) = .go f) :
    exec i s = .next (f (s.begun w h op).1 (s.begun w h op).2) := hi.trans (congrArg _ (ha.hostCommand_go hc))

theorem State.Accepts.exec_sync {i : Instr} {st : Nat} {ps : List Byte} (ha : s.Accepts h op p w)
    (hi : exec i s = .next (s.hostCommand op h p)) (hc : command op w p (s.acceptSeq w h) = .sync t st ps) :
    exec i s = .next (s.says t w h op st ps) := hi.trans (congrArg _ (ha.hostCommand_sync hc))

/-! The tile map (13:R338). -/
/-- The state in which the region of REGION_MAP's parameters is mapped with the tiles of its runs. -/
def State.mapRuns (s : State) (b : Nat) (p : List Byte) : Option State :=
  (s.mapRegion b (fieldAt p 0 4) (fieldAt p 4 2) (fieldAt p 6 1)).bind fun t =>
    (Machine.mapRuns p).foldl (fun (a : Option State) q => a.bind fun t => t.mapTiles b (fieldAt p 0 4) q) (some t)

theorem cmdRegionMap_serves (ha : (cmdRegionMap b p s).Serves) : ∃ f, cmdRegionMap b p s = .go f ∧ ∀ (B : State) (o : Nat),
    (∀ t, B.mapRuns b p = some t → f B o = t.endOp b o stOk) ∧ (B.mapRuns b p = none → f B o = B.endOp b o stBadParam) := by
  unfold cmdRegionMap at ha ⊢
  dsimp only at ha ⊢
  have hbad : ¬(if p.length < 0x0C then badParam noField else badParam 8).Serves := by split <;> exact Ans.not_serves_no
  obtain ⟨-, hcount, ha⟩ := ha.guard hbad
  obtain ⟨hlen, ha⟩ := ha.needLen
  obtain ⟨hfields, ha⟩ := ha.fields
  obtain ⟨-, howned, -⟩ := ha.guard Ans.not_serves_no
  refine ⟨_, hcount.trans (hlen.trans (hfields.trans howned)), fun B o => ⟨fun t ht => ?_, fun ht => ?_⟩⟩
  all_goals
    rw [State.mapRuns] at ht
    rw [ht]

theorem cmdRegionUnmap_serves (ha : (cmdRegionUnmap b p s).Serves) :
    cmdRegionUnmap b p s = .go fun B o => (B.unmapRegion b (fieldAt p 0 4)).endOp b o stOk := by
  unfold cmdRegionUnmap at ha ⊢
  dsimp only at ha ⊢
  obtain ⟨hlen, ha⟩ := ha.needLen
  obtain ⟨-, hmapped, ha⟩ := ha.guard Ans.not_serves_no
  obtain ⟨-, htag, ha⟩ := ha.guard Ans.not_serves_no
  obtain ⟨-, hscene, ha⟩ := ha.guard Ans.not_serves_no
  obtain ⟨-, hcurtain, ha⟩ := ha.guard Ans.not_serves_no
  obtain ⟨-, hunder, -⟩ := ha.guard Ans.not_serves_no
  exact hlen.trans (hmapped.trans (htag.trans (hscene.trans (hcurtain.trans hunder))))

theorem cmdTileUnd_serves (ha : (cmdTileUnd b p s).Serves) : cmdTileUnd b p s = .go fun B o => (B.updTile b (fieldAt p 0 8) fun z =>
    if fieldAt p 8 8 = 2 ^ 64 - 1 then { z with und := false, utile := 0 } else { z with und := true, utile := fieldAt p 8 8 }).endOp b o stOk := by
  unfold cmdTileUnd at ha ⊢
  dsimp only at ha ⊢
  obtain ⟨hlen, ha⟩ := ha.needLen
  obtain ⟨hfields, -⟩ := ha.fields
  refine hlen.trans (hfields.trans ?_)
  simp only [beq_iff_eq]

/-- The move that TILE_MOVE's parameters ask for. -/
def tileMoveOf (b : Nat) (p : List Byte) (o : Option Nat) : Move :=
  ⟨b, fieldAt p 0 8, fieldAt p 8 4, fieldAt p 0x0C 1, fieldAt p 0x0D 1, (fieldAt p 0x0E 1).testBit 0, (fieldAt p 0x0E 1).testBit 1, o, false,
    false⟩

theorem cmdTileMove_serves (ha : (cmdTileMove b p s).Serves) :
    ∃ f, cmdTileMove b p s = .go f ∧ ∀ (B : State) (o : Nat) (t : State), B.queueMove (tileMoveOf b p (some o)) = some t → f B o = t := by
  unfold cmdTileMove at ha ⊢
  dsimp only at ha ⊢
  obtain ⟨hlen, ha⟩ := ha.needLen
  obtain ⟨hfields, ha⟩ := ha.fields
  rw [hlen, hfields]
  unfold tileMoveOf
  split at ha
  · exact (Ans.not_serves_no ha).elim
  · refine ⟨_, rfl, fun B o t ht => ?_⟩
    rw [ht]

/-! Transfers (13:R339, R340). -/
/-- The transfer that XFER_REG's parameters register, on queue pair `q`. -/
def xferOf (p : List Byte) (q : Nat) : Xfer :=
  ⟨fieldAt p 2 1, fieldAt p 3 1, fieldAt p 4 2, fieldAt p 8 8, fieldAt p 0x10 8, fieldAt p 0x18 8, fieldAt p 0x20 4, fieldAt p 0x24 4,
    sliceBytes p 0x28 16, fieldAt p 0x38 4, fieldAt p 0x40 8, q⟩

theorem cmdXferReg_serves (ha : (cmdXferReg b p s).Serves) : cmdXferReg b p s = okSync
    ({ s with fresh := s.fresh + 1 }.updBox b fun y =>
      { y with xfers := Tab.set none y.xfers (fieldAt p 0 2) (some (xferOf p (Config.queuePair s.fresh).toNat)) })
    (leBytes 4 (Config.queuePair s.fresh).toNat ++ s.portGid (fieldAt p 3 1)) := by
  unfold cmdXferReg at ha ⊢
  dsimp only at ha ⊢
  obtain ⟨hlen, ha⟩ := ha.needLen
  obtain ⟨hfields, ha⟩ := ha.fields
  obtain ⟨-, howned, ha⟩ := ha.guard Ans.not_serves_no
  obtain ⟨-, hroom, -⟩ := ha.guard Ans.not_serves_no
  exact hlen.trans (hfields.trans (howned.trans hroom))

theorem cmdXferDrop_serves (ha : (cmdXferDrop b p s).Serves) :
    cmdXferDrop b p s = okSync (s.updBox b fun y => { y with xfers := Tab.set none y.xfers (fieldAt p 0 2) none }) := by
  unfold cmdXferDrop at ha ⊢
  dsimp only at ha ⊢
  obtain ⟨hlen, ha⟩ := ha.needLen
  obtain ⟨-, hxfer, ha⟩ := ha.guard Ans.not_serves_no
  obtain ⟨-, hruns, -⟩ := ha.guard Ans.not_serves_no
  exact hlen.trans (hxfer.trans hruns)

theorem cmdXferRun_serves (ha : (cmdXferRun b p s).Serves) : cmdXferRun b p s = .go fun B o => B.askRun b (fieldAt p 0 2) (.op o) := by
  unfold cmdXferRun at ha ⊢
  dsimp only at ha ⊢
  obtain ⟨hlen, ha⟩ := ha.needLen
  obtain ⟨-, hxfer, -⟩ := ha.guard Ans.not_serves_no
  exact hlen.trans hxfer

/-! Weights (09:R215 to R219). -/
/-- What forbids a command, if anything does, is no service. -/
def Refusals (r : Option Ans) : Prop := ∀ a, r = some a → ¬ a.Serves

theorem Refusals.none : Refusals none := fun _ h => nomatch h

theorem Refusals.ite {c : Prop} [Decidable c] {r : Option Ans} (ha : ¬ a.Serves) (hr : Refusals r) : Refusals (if c then some a else r) := by
  split
  · rintro _ ⟨⟩
    exact ha
  · exact hr

theorem State.refusals_sourceBad (s : State) (b kind keyslot source : Nat) : Refusals (s.sourceBad b kind keyslot source) := by
  unfold State.sourceBad
  dsimp only
  split
  · exact .ite Ans.not_serves_no (.ite Ans.not_serves_no .none)
  · split
    · exact .ite Ans.not_serves_no (.ite Ans.not_serves_no (.ite Ans.not_serves_no (.ite Ans.not_serves_no .none)))
    · exact .none

theorem State.sourceBad_none {kind keyslot source : Nat}
    (ha : (match s.sourceBad b kind keyslot source with | some r => r | none => a).Serves) : s.sourceBad b kind keyslot source = none := by
  cases hs : s.sourceBad b kind keyslot source with
  | none => rfl
  | some r =>
    rw [hs] at ha
    exact (s.refusals_sourceBad b kind keyslot source r hs ha).elim

/-- The load that WT_LOAD's parameters begin, with its key in `slot` and its header. -/
def loadOf (p : List Byte) (o slot : Nat) (hdr : List Byte) : Load :=
  ⟨o, fieldAt p 0 1, slot, fieldAt p 4 2, fieldAt p 6 2, fieldAt p 8 4, [], hdr, [], 0, false⟩

/-- WT_LOAD begins a load, under the header of the model where it loads one, and asks for its shard map. -/
theorem cmdWtLoad_serves (ha : (cmdWtLoad b p s).Serves) : ∃ f, cmdWtLoad b p s = .go f ∧ ∀ (B : State) (o : Nat),
    (fieldAt p 0 1 = 1 → f B o = (B.updBox b fun y => { y with loading := y.loading ++ [loadOf p o (fieldAt p 2 2) []] }).askRun b
      (fieldAt p 6 2) (.shardMap o)) ∧
    (∀ k, fieldAt p 0 1 = 2 → B.sourceKey b 2 (fieldAt p 2 2) (fieldAt p 4 2) = k →
      headerOk (k.1.slot k.2).key (B.modelHdr (fieldAt p 4 2)) = true →
      f B o = (k.1.updBox b fun y => { y with loading := y.loading ++ [loadOf p o k.2 (B.modelHdr (fieldAt p 4 2))] }).askRun b
        (fieldAt p 6 2) (.shardMap o)) := by
  unfold cmdWtLoad at ha ⊢
  dsimp only at ha ⊢
  obtain ⟨hlen, ha⟩ := ha.needLen
  obtain ⟨hfields, ha⟩ := ha.fields
  obtain ⟨-, hst, ha⟩ := ha.guard Ans.not_serves_no
  have hsource := State.sourceBad_none ha
  rw [hlen, hfields, hst, hsource]
  refine ⟨_, rfl, fun B o => ⟨fun hkind => ?_, fun k hkind hk hok => ?_⟩⟩
  · unfold loadOf
    rw [hkind]
    rfl
  · unfold loadOf
    rw [hkind, if_pos rfl, hk, State.updBox_slot, hok]
    exact if_neg (by decide)

theorem cmdWtChannel_serves (ha : (cmdWtChannel b p s).Serves) : cmdWtChannel b p s = okSync (s.updBox b fun y =>
    { y with chans := Tab.upd {} y.chans (fieldAt p 0 1) fun c => { c with
      active := fieldAt p 1 1 == 1, tier := fieldAt p 2 1, lo := fieldAt p 3 1, hi := fieldAt p 4 1, rate := fieldAt p 8 4 } }) := by
  unfold cmdWtChannel at ha ⊢
  dsimp only at ha ⊢
  obtain ⟨hlen, ha⟩ := ha.needLen
  obtain ⟨-, hchan, ha⟩ := ha.guard Ans.not_serves_no
  obtain ⟨hfields, -⟩ := ha.fields
  exact hlen.trans (hchan.trans hfields)

/-! Scenes (09:R221 to R223). -/
/-- SCENE_CHANGE is not served while a change is in progress; else it begins the change that its table asks for. -/
theorem cmdSceneChange_serves (ha : (cmdSceneChange b p s).Serves) : (s.box b).scene.active = false ∧
    ∃ f, cmdSceneChange b p s = .go f ∧ ∀ (B : State) (o : Nat) (m : List Byte), B.rangeRead b (fieldAt p 8 8) (32 * fieldAt p 6 2) = some m →
      f B o = if B.layersOk b (fieldAt p 0 1) m (fieldAt p 6 2) = true then B.beginScene b o p m else B.endOp b o stBadParam := by
  unfold cmdSceneChange at ha ⊢
  dsimp only at ha ⊢
  obtain ⟨hlen, ha⟩ := ha.needLen
  obtain ⟨hfields, ha⟩ := ha.fields
  obtain ⟨hidle, hscene, ha⟩ := ha.guard Ans.not_serves_no
  have hsource := State.sourceBad_none ha
  rw [hlen, hfields, hscene, hsource]
  refine ⟨Bool.eq_false_iff.2 hidle, _, rfl, fun B o m hm => ?_⟩
  rw [hm]

end

/-- Settles O53: the checks before each command's effect have passed, since it is accepted; an operation's effect then follows
its ACCEPTED, and a synchronous command's reply its effect. -/
theorem memoryCommandResults : Obligations.MemoryCommandResults := by
  unfold Obligations.MemoryCommandResults
  intro s h p w
  dsimp only
  refine ⟨fun ha => ?_, fun ha => ?_, fun ha => ?_, fun B o t hB ht ha => ?_, fun ha => ?_, fun ha => ?_, fun ha => ?_, fun hk ha => ?_,
    fun hk B o hB hok ha => ?_, fun ha => ?_, fun B o m hB hm ha => ?_, fun hactive ha => ?_⟩
  · obtain ⟨g, hg, hmaps⟩ := cmdRegionMap_serves ha.serves
    obtain ⟨hmapped, hwanting⟩ := hmaps (s.begun w h 0x0200).1 (s.begun w h 0x0200).2
    refine (ha.exec_go rfl hg).trans (congrArg _ ?_)
    split
    next t ht => exact hmapped t ht
    next ht => exact hwanting ht
  · exact (ha.exec_go rfl (cmdRegionUnmap_serves ha.serves)).trans rfl
  · exact ha.exec_go rfl (cmdTileUnd_serves ha.serves)
  · obtain ⟨rfl, rfl⟩ := Prod.mk.inj hB
    obtain ⟨g, hg, hmoves⟩ := cmdTileMove_serves ha.serves
    exact (ha.exec_go rfl hg).trans (congrArg _ (hmoves _ _ t ht))
  · have hreg := cmdXferReg_serves ha.serves
    rw [s.acceptSeq_fresh w h, s.acceptSeq_portGid w h] at hreg
    exact ha.exec_sync rfl hreg
  · exact ha.exec_sync rfl (cmdXferDrop_serves ha.serves)
  · exact ha.exec_go rfl (cmdXferRun_serves ha.serves)
  · obtain ⟨g, hg, hloads⟩ := cmdWtLoad_serves ha.serves
    obtain ⟨hbox, -⟩ := hloads (s.begun w h 0x0220).1 (s.begun w h 0x0220).2
    have hload := hbox hk
    rw [loadOf, hk] at hload
    exact (ha.exec_go rfl hg).trans (congrArg _ hload)
  · obtain ⟨rfl, rfl⟩ := Prod.mk.inj hB
    obtain ⟨g, hg, hloads⟩ := cmdWtLoad_serves ha.serves
    obtain ⟨-, hmodel⟩ := hloads (s.begun w h 0x0220).1 (s.begun w h 0x0220).2
    have hhdr : (s.begun w h 0x0220).1.modelHdr (fieldAt p 4 2) = s.modelHdr (fieldAt p 4 2) := by
      rw [State.modelHdr, s.begun_dev, State.modelHdr]
    rw [hhdr] at hmodel
    have hload := hmodel _ hk rfl hok
    rw [loadOf, hk] at hload
    exact (ha.exec_go rfl hg).trans (congrArg _ hload)
  · exact ha.exec_sync rfl (cmdWtChannel_serves ha.serves)
  · obtain ⟨rfl, rfl⟩ := Prod.mk.inj hB
    obtain ⟨-, g, hg, hchanges⟩ := cmdSceneChange_serves ha.serves
    exact (ha.exec_go rfl hg).trans (congrArg _ (hchanges _ _ m hm))
  · obtain ⟨hidle, -⟩ := cmdSceneChange_serves ha.serves
    rw [s.acceptSeq_box, hactive] at hidle
    exact Bool.noConfusion hidle

end Sys2Proof.Machine
